-- ==== Sys2Proof/Word.lean ====
section
/-!
DEFINITION. Word.lean: the word types of the BX7260 (R2, R35, R40) and their plainest helpers.
-/
namespace Sys2Proof

abbrev Byte := BitVec 8
abbrev Half := BitVec 16
/-- One lane of one register (R98). -/
abbrev Word := BitVec 32
abbrev Dword := BitVec 64
/-- A lane mask: bit L is lane L (R84). -/
abbrev Mask := BitVec 32
/-- A program counter or virtual address (R35, R11). -/
abbrev Addr := BitVec 57
/-- An instruction slot (R31). -/
abbrev Slot := BitVec 96

/-- Bits hi:lo of a number (R2). -/
def bits (x hi lo : Nat) : Nat := x / 2 ^ lo % 2 ^ (hi + 1 - lo)

/-- Bit i of a number. -/
def bitN (x i : Nat) : Bool := x / 2 ^ i % 2 == 1

end Sys2Proof
end

