-- ==== Sys2Proof/Config.lean ====
section
/-!
DEFINITION. Config.lean: what the spec leaves open. Each constant here has no body, so that nothing in the package can
know its value; a statement holds whatever it is. Every choice is asked for with the tick of the step that makes it,
so that two choices are independent, and with the number of the place it is made for.
-/
namespace Sys2Proof.Config

/-- One of two outcomes that the spec allows: R16, R97, R140, R142, R176, R355, R365, R400. -/
opaque choice (tick place : Nat) : Bool

/-- A number below the bound n that the spec leaves open (R332). -/
opaque pick (tick place : Nat) : Nat

/-- A word that the spec gives no value for (log entry 8). -/
opaque word (tick place : Nat) : Word

/-- Falcon-1024 verification of a signature over a digest against the fused key (R460, R461). -/
opaque falconVerify (digest sig : Nat) : Bool

/-- Falcon-1024 signing of a digest with the device identity key (R463). -/
opaque falconSign (digest nonce : Nat) : List Byte

/-- The SHAKE256 hash of the device identity key (R462). -/
opaque identityHash : BitVec 256

/-- SHAKE256 of a byte string, as many bytes as asked for (R462). -/
opaque shake256 (data : List Byte) (n : Nat) : List Byte

end Sys2Proof.Config
end

