-- ==== Sys2Proof/Syntax.lean ====
section
/-!
DEFINITION. Syntax.lean: the instructions and events of the BX7260.
One constructor of Instr per row of the table of operations and events. The first part are the instructions of
the slots (R57 to R65), whose constructors carry the decoded fields of their format (R43, R50). The second part
are the events: indivisible steps of the part that no slot encodes, with the units they concern.
-/
namespace Sys2Proof

/-! ## Operand codes (R45, R46) -/

/-- The read-only special names of R46, codes 448 to 470. -/
inductive Special where
  | zero | laneid | waveid | groupid | coreid | cluid | dieid | nodeid | batchn | recbase
  | cpwp0 | cpwp1 | cpwp2 | cpwp3 | execmask | ltmask | livemask | depth | bwphase | watch
  | launchid | fpflags | fpctl
  deriving DecidableEq, Repr

/-- An operand of a 9-bit field (R45). `rsv` is a reserved code: it is accepted in no position (R47). -/
inductive Opnd where
  | v (n : Nat)
  | q (n : Nat)
  | h (n : Nat)
  | k (n : Nat)
  | sp (x : Special)
  | rsv (code : Nat)
  | none
  deriving DecidableEq, Repr

/-- The operand that HOLD.SEL latches (R40). -/
inductive HoldSel where
  | none | A | B | C
  deriving DecidableEq, Repr

/-- The common header (R40). -/
structure Hdr where
  g   : Opnd
  gn  : Bool
  sel : HoldSel
  ent : Nat
  deriving DecidableEq, Repr

/-! ## Modifier codes (R51 to R55) -/

/-- TYPE, DTYPE and STYPE (R51). -/
inductive Ty where
  | b32 | b64 | s8 | s16 | s32 | s64 | n8 | n16 | n32 | n64 | f16 | bf16 | f32 | f64 | f16x2 | bf16x2
  deriving DecidableEq, Repr

/-- RND (R52). -/
inductive Rnd where
  | dflt | rn | rz | rp | rm
  deriving DecidableEq, Repr

/-- COND (R53). -/
inductive Cond where
  | eq | ne | lt | le | gt | ge | equ | neu | ltu | leu | gtu | geu | num | nan
  deriving DecidableEq, Repr

/-- SIZE of the M format (R54). -/
inductive MSize where
  | n8 | s8 | n16 | s16 | b32 | b64 | b128
  deriving DecidableEq, Repr

/-- SCOPE (R55). -/
inductive Scope where
  | lane | wave | grp | clu | die | dev | sys | obs
  deriving DecidableEq, Repr

/-! ## Formats (R43, R50) -/

/-- RRR with the integer and lane layout of MOD: TYPE and SUB. -/
structure IntR where
  h : Hdr
  ty : Ty
  sub : BitVec 8
  d : Opnd
  a : Opnd
  b : Opnd
  c : Opnd
  deriving DecidableEq, Repr

/-- RI with the integer and lane layout of MOD. -/
structure IntI where
  h : Hdr
  ty : Ty
  sub : BitVec 8
  d : Opnd
  a : Opnd
  imm : Word
  deriving DecidableEq, Repr

/-- RRR with the float layout of MOD: TYPE, RND, FTZ, SAT. -/
structure FltR where
  h : Hdr
  ty : Ty
  rnd : Rnd
  ftz : Bool
  sat : Bool
  d : Opnd
  a : Opnd
  b : Opnd
  c : Opnd
  deriving DecidableEq, Repr

/-- RI with the float layout of MOD. -/
structure FltI where
  h : Hdr
  ty : Ty
  rnd : Rnd
  ftz : Bool
  sat : Bool
  d : Opnd
  a : Opnd
  imm : Word
  deriving DecidableEq, Repr

/-- RRR with the conversion layout of MOD: DTYPE, STYPE, RND, SAT. -/
structure CvtR where
  h : Hdr
  dty : Ty
  sty : Ty
  rnd : Rnd
  sat : Bool
  d : Opnd
  a : Opnd
  b : Opnd
  c : Opnd
  deriving DecidableEq, Repr

/-- RRR with the compare layout of MOD: TYPE, COND, FTZ. -/
structure CmpR where
  h : Hdr
  ty : Ty
  cond : Cond
  ftz : Bool
  d : Opnd
  a : Opnd
  b : Opnd
  c : Opnd
  deriving DecidableEq, Repr

/-- RI with the compare layout of MOD. -/
structure CmpI where
  h : Hdr
  ty : Ty
  cond : Cond
  ftz : Bool
  d : Opnd
  a : Opnd
  imm : Word
  deriving DecidableEq, Repr

/-- RRR of an instruction outside the MOD classes (`nop`, `ret`, `fjoin`, `exit`, `qstat`). -/
structure PlainR where
  h : Hdr
  mod : BitVec 12
  d : Opnd
  a : Opnd
  b : Opnd
  c : Opnd
  deriving DecidableEq, Repr

/-- RI of an instruction outside the MOD classes. -/
structure PlainI where
  h : Hdr
  mod : BitVec 12
  d : Opnd
  a : Opnd
  imm : Word
  deriving DecidableEq, Repr

/-- M format (R43, R54 to R56, R219). -/
structure MemF where
  h : Hdr
  d : Opnd
  base : Opnd
  x : Opnd
  scope : Scope
  size : MSize
  flags : BitVec 8
  flag : Opnd
  off : BitVec 21
  deriving DecidableEq, Repr

/-- B format (R160). -/
structure BrF where
  h : Hdr
  disp : BitVec 32
  join : BitVec 20
  a : Opnd
  mod : BitVec 11
  deriving DecidableEq, Repr

/-- X format: ENG is laid out by the entry of each instruction (R43). -/
structure XF where
  h : Hdr
  d : Opnd
  a : Opnd
  b : Opnd
  eng : BitVec 45
  deriving DecidableEq, Repr

/-! ## The operands of events -/

/-- Who writes a register of the command die or the fabric (R454, R459). -/
inductive Agent where
  | host | gaffer | punty
  deriving DecidableEq, Repr

/-- A register by its place: the CDCS (R454) or a die's fabric control block (R362). -/
inductive RegAddr where
  | cdcs (off : Nat)
  | fabric (die off : Nat)
  deriving DecidableEq, Repr

/-- What a replay or retry repaired (R28, R474). -/
inductive LinkErr where
  | ucie | rdCrc | wrEdc | caPar
  deriving DecidableEq, Repr

/-- A machine check with its source and place (R273), and the context whose instruction raised it: a tail slot, or 63 (R250). -/
structure McRec where
  ctx : BitVec 6
  src : BitVec 4
  cause : BitVec 8
  loc : BitVec 48
  deriving DecidableEq, Repr

/-- Why a kill happens (R22, R401, R404): the fault of a stopped wave of a die, whose core and slot the event names, reaches no
handler, or its handler reports it fatal; or Gaffer kills a context, where the event's core and slot say nothing. -/
inductive KillReq where
  | fault (die : Nat)
  | context (ctxid : Nat)
  deriving DecidableEq, Repr

/-- The agent whose access makes a wake request (R360, R363): a wave, for its own accesses and those of its engine commands, or a
fixed unit that works for a launch. A background request, which is the Lehr's own, has none. -/
inductive WakeReq where
  | wave (die core w : Nat)
  | unit (seq : Nat)
  deriving DecidableEq, Repr

/-- A cross-die request that is not answered in time (R365): an access of a wave, a line of a copy
command, or the `done` of a barrier (R216). -/
inductive XReq where
  | access (die core w acc : Nat)
  | copy (die core ch : Nat)
  | done (die core bar : Nat)
  deriving DecidableEq, Repr

/-- A request to Punty about the protected-root table, with its signature (R460). -/
structure RootReq where
  add : Bool
  idx : Nat
  ctxid : Nat
  root : Nat
  sig : Nat
  deriving DecidableEq, Repr

/-- A firmware image: its body, the digest it carries, and its signature (R461). -/
structure Image where
  body : List Byte
  digest : Nat
  sig : Nat
  deriving DecidableEq, Repr

/-- What boot finds: the two firmware images, and the digests of the management-core image and the fuse block (R461,
R462). -/
structure BootSet where
  punty : Image
  gaffer : Image
  mgmt : Nat
  fuses : Nat
  deriving DecidableEq, Repr

/-- The work that causes a request at an arbitration point (R23): a wave's instruction, the command at the head of a copy channel,
the item at the head of a matrix unit's queue, a fixed node's work for a launch, or the device's own traffic. -/
inductive ReqCause where
  | wave (die core w : Nat)
  | copy (die core ch : Nat)
  | matrix (die core : Nat)
  | unit (seq : Nat)
  | firmware
  | service
  | display
  | background
  deriving DecidableEq, Repr

/-- A request that reaches an arbitration point (R24): its cause, its requester, and its transfers. -/
structure ArbReq where
  cause : ReqCause
  who : Nat
  transfers : Nat
  deriving DecidableEq, Repr

/-- One sample of the telemetry (R469, R476): package and rail powers in 1/8 W, sensor readings by index 32p + 16l + s,
margins by index 2p + l, corrected error counts to add by index 32p + s, and accesses to add by channel. -/
structure Telemetry where
  pkg : Nat
  rails : List Nat
  sensors : List (Nat × Nat)
  margins : List (Nat × Nat)
  ce : List (Nat × Nat)
  reads : List (Nat × Nat)
  writes : List (Nat × Nat)
  deriving DecidableEq, Repr

/-- The operations and events of the part. -/
inductive Instr where
  /-- R105, OP 0x000. -/
  | add (f : IntR)
  /-- R105, OP 0x040. -/
  | addRi (f : IntI)
  /-- R105, OP 0x001. -/
  | sub (f : IntR)
  /-- R105, OP 0x041. -/
  | subRi (f : IntI)
  /-- R105, OP 0x002. -/
  | mul (f : IntR)
  /-- R105, OP 0x042. -/
  | mulRi (f : IntI)
  /-- R105, OP 0x003. -/
  | mulhi (f : IntR)
  /-- R105, OP 0x004. -/
  | mad (f : IntR)
  /-- R106, OP 0x005. -/
  | div (f : IntR)
  /-- R106, OP 0x045. -/
  | divRi (f : IntI)
  /-- R106, OP 0x006. -/
  | rem (f : IntR)
  /-- R106, OP 0x046. -/
  | remRi (f : IntI)
  /-- R107, OP 0x007. -/
  | neg (f : IntR)
  /-- R107, OP 0x008. -/
  | abs (f : IntR)
  /-- R107, OP 0x009. -/
  | min (f : IntR)
  /-- R107, OP 0x049. -/
  | minRi (f : IntI)
  /-- R107, OP 0x00A. -/
  | max (f : IntR)
  /-- R107, OP 0x04A. -/
  | maxRi (f : IntI)
  /-- R107, OP 0x00B. -/
  | clamp (f : IntR)
  /-- R108, OP 0x00C. -/
  | addc (f : IntR)
  /-- R108, OP 0x00D. -/
  | subb (f : IntR)
  /-- R109, OP 0x00E. -/
  | sad (f : IntR)
  /-- R109, OP 0x00F. -/
  | dot4 (f : IntR)
  /-- R110, OP 0x010. -/
  | and (f : IntR)
  /-- R110, OP 0x050. -/
  | andRi (f : IntI)
  /-- R110, OP 0x011. -/
  | or (f : IntR)
  /-- R110, OP 0x051. -/
  | orRi (f : IntI)
  /-- R110, OP 0x012. -/
  | xor (f : IntR)
  /-- R110, OP 0x052. -/
  | xorRi (f : IntI)
  /-- R110, OP 0x013. -/
  | not (f : IntR)
  /-- R110, OP 0x014. -/
  | andn (f : IntR)
  /-- R111, OP 0x015. -/
  | shl (f : IntR)
  /-- R111, OP 0x055. -/
  | shlRi (f : IntI)
  /-- R111, OP 0x016. -/
  | shr (f : IntR)
  /-- R111, OP 0x056. -/
  | shrRi (f : IntI)
  /-- R111, OP 0x017. -/
  | rot (f : IntR)
  /-- R111, OP 0x057. -/
  | rotRi (f : IntI)
  /-- R112, OP 0x018. -/
  | bfx (f : IntR)
  /-- R112, OP 0x058. -/
  | bfxRi (f : IntI)
  /-- R112, OP 0x019. -/
  | bfi (f : IntR)
  /-- R112, OP 0x059. -/
  | bfiRi (f : IntI)
  /-- R113, OP 0x01A. -/
  | popc (f : IntR)
  /-- R113, OP 0x01B. -/
  | clz (f : IntR)
  /-- R113, OP 0x01C. -/
  | ctz (f : IntR)
  /-- R113, OP 0x01D. -/
  | brev (f : IntR)
  /-- R114, OP 0x01E. -/
  | bpick (f : IntR)
  /-- R114, OP 0x05E. -/
  | bpickRi (f : IntI)
  /-- R110, OP 0x01F. -/
  | bfn (f : IntR)
  /-- R115, OP 0x020. -/
  | mov (f : IntR)
  /-- R115, OP 0x060. -/
  | movRi (f : IntI)
  /-- R116, OP 0x021. -/
  | sel (f : IntR)
  /-- R117, OP 0x022. -/
  | lea (f : IntR)
  /-- R117, OP 0x062. -/
  | leaRi (f : IntI)
  /-- R117, OP 0x023. -/
  | sadd (f : IntR)
  /-- R117, OP 0x063. -/
  | saddRi (f : IntI)
  /-- R122, OP 0x028. -/
  | afset (f : IntR)
  /-- R122, OP 0x068. -/
  | afsetRi (f : IntI)
  /-- R123, OP 0x029. -/
  | aftest (f : IntR)
  /-- R123, OP 0x02A. -/
  | afclr (f : IntR)
  /-- R137, OP 0x080. -/
  | fadd (f : FltR)
  /-- R137, OP 0x0C0. -/
  | faddRi (f : FltI)
  /-- R137, OP 0x081. -/
  | fsub (f : FltR)
  /-- R137, OP 0x0C1. -/
  | fsubRi (f : FltI)
  /-- R137, OP 0x082. -/
  | fmul (f : FltR)
  /-- R137, OP 0x0C2. -/
  | fmulRi (f : FltI)
  /-- R137, OP 0x083. -/
  | ffma (f : FltR)
  /-- R138, OP 0x084. -/
  | fmin (f : FltR)
  /-- R138, OP 0x0C4. -/
  | fminRi (f : FltI)
  /-- R138, OP 0x085. -/
  | fmax (f : FltR)
  /-- R138, OP 0x0C5. -/
  | fmaxRi (f : FltI)
  /-- R139, OP 0x086. -/
  | fabs (f : FltR)
  /-- R139, OP 0x087. -/
  | fneg (f : FltR)
  /-- R138, OP 0x088. -/
  | fclamp (f : FltR)
  /-- R140, OP 0x089. -/
  | fdiv (f : FltR)
  /-- R140, OP 0x08A. -/
  | fsqrt (f : FltR)
  /-- R140, OP 0x08B. -/
  | frcp (f : FltR)
  /-- R140, OP 0x08C. -/
  | frsq (f : FltR)
  /-- R141, OP 0x08D. -/
  | fex2 (f : FltR)
  /-- R141, OP 0x08E. -/
  | flg2 (f : FltR)
  /-- R142, OP 0x08F. -/
  | fsin (f : FltR)
  /-- R142, OP 0x090. -/
  | fcos (f : FltR)
  /-- R142, OP 0x091. -/
  | ftanh (f : FltR)
  /-- R143, OP 0x092. -/
  | ffloor (f : FltR)
  /-- R143, OP 0x093. -/
  | fceil (f : FltR)
  /-- R143, OP 0x094. -/
  | ftrunc (f : FltR)
  /-- R143, OP 0x095. -/
  | frint (f : FltR)
  /-- R143, OP 0x096. -/
  | ffrac (f : FltR)
  /-- R139, OP 0x097. -/
  | fcsgn (f : FltR)
  /-- R144, OP 0x098. -/
  | fscale (f : FltR)
  /-- R144, OP 0x099. -/
  | fgetexp (f : FltR)
  /-- R145, OP 0x09A. -/
  | fclass (f : FltR)
  /-- R146, OP 0x09B. -/
  | fdot2 (f : FltR)
  /-- R148, OP 0x100. -/
  | cvt (f : CvtR)
  /-- R151, OP 0x101. -/
  | fpack (f : CvtR)
  /-- R151, OP 0x102. -/
  | fsplit (f : CvtR)
  /-- R118, OP 0x110. -/
  | cmp (f : CmpR)
  /-- R118, OP 0x150. -/
  | cmpRi (f : CmpI)
  /-- R118, OP 0x111. -/
  | cmpm (f : CmpR)
  /-- R118, OP 0x151. -/
  | cmpmRi (f : CmpI)
  /-- R154, OP 0x120. -/
  | lxch (f : IntR)
  /-- R154, OP 0x160. -/
  | lxchRi (f : IntI)
  /-- R155, OP 0x121. -/
  | vote (f : IntR)
  /-- R156, OP 0x122. -/
  | lred (f : IntR)
  /-- R157, OP 0x123. -/
  | lscan (f : IntR)
  /-- R158, OP 0x124. -/
  | lmatch (f : IntR)
  /-- R158, OP 0x125. -/
  | elect (f : IntR)
  /-- R159, OP 0x126. -/
  | rdlane (f : IntR)
  /-- R159, OP 0x166. -/
  | rdlaneRi (f : IntI)
  /-- R159, OP 0x127. -/
  | wrlane (f : IntR)
  /-- R176, OP 0x180. -/
  | nop (f : PlainR)
  /-- R162, OP 0x181. -/
  | br (f : BrF)
  /-- R163, OP 0x182. -/
  | brc (f : BrF)
  /-- R164, OP 0x183. -/
  | brany (f : BrF)
  /-- R164, OP 0x184. -/
  | brall (f : BrF)
  /-- R168, OP 0x185. -/
  | jtab (f : XF)
  /-- R172, OP 0x186. -/
  | call (f : BrF)
  /-- R172, OP 0x187. -/
  | callt (f : XF)
  /-- R173, OP 0x188. -/
  | ret (f : PlainR)
  /-- R166, OP 0x189. -/
  | lpad (f : PlainI)
  /-- R180, OP 0x18A. -/
  | baton (f : PlainI)
  /-- R190, OP 0x18B. -/
  | fjoin (f : PlainR)
  /-- R174, OP 0x18C. -/
  | exit (f : PlainR)
  /-- R175, OP 0x18D. -/
  | trap (f : PlainI)
  /-- R175, OP 0x18E. -/
  | brk (f : PlainI)
  /-- R176, OP 0x18F. -/
  | sleep (f : PlainI)
  /-- R221, OP 0x200. -/
  | ld (f : MemF)
  /-- R221, OP 0x202. -/
  | lds (f : MemF)
  /-- R221, OP 0x204. -/
  | ldc (f : MemF)
  /-- R221, OP 0x201. -/
  | st (f : MemF)
  /-- R221, OP 0x203. -/
  | sts (f : MemF)
  /-- R221, OP 0x205. -/
  | stc (f : MemF)
  /-- R225, OP 0x206. -/
  | pf (f : MemF)
  /-- R228, OP 0x207. -/
  | ldt (f : XF)
  /-- R228, OP 0x208. -/
  | stt (f : XF)
  /-- R230, OP 0x210. -/
  | atom (f : MemF)
  /-- R230, OP 0x213. -/
  | atoms (f : MemF)
  /-- R230, OP 0x215. -/
  | atomc (f : MemF)
  /-- R231, OP 0x211. -/
  | cas (f : MemF)
  /-- R231, OP 0x214. -/
  | cass (f : MemF)
  /-- R230, OP 0x212. -/
  | red (f : MemF)
  /-- R236, OP 0x218. -/
  | futld (f : MemF)
  /-- R235, OP 0x219. -/
  | futst (f : MemF)
  /-- R236, OP 0x21A. -/
  | futtry (f : MemF)
  /-- R235, OP 0x21B. -/
  | futclr (f : MemF)
  /-- R238, OP 0x220. -/
  | sbind (f : XF)
  /-- R238, OP 0x221. -/
  | sfree (f : XF)
  /-- R241, OP 0x222. -/
  | acq (f : MemF)
  /-- R240, OP 0x223. -/
  | rel (f : MemF)
  /-- R242, OP 0x224. -/
  | fence (f : MemF)
  /-- R233, OP 0x228. -/
  | rcell (f : XF)
  /-- R233, OP 0x229. -/
  | rcfree (f : XF)
  /-- R244, OP 0x230. -/
  | rwb (f : XF)
  /-- R244, OP 0x231. -/
  | rinv (f : XF)
  /-- R246, OP 0x232. -/
  | resreq (f : MemF)
  /-- R245, OP 0x233. -/
  | icinv (f : XF)
  /-- R247, OP 0x234. -/
  | phase (f : PlainI)
  /-- R199, OP 0x280. -/
  | qbind (f : XF)
  /-- R200, OP 0x281. -/
  | qfree (f : XF)
  /-- R201, OP 0x282. -/
  | qstat (f : PlainR)
  /-- R213, OP 0x288. -/
  | barInit (f : XF)
  /-- R213, OP 0x289. -/
  | barArrive (f : XF)
  /-- R214, OP 0x28A. -/
  | barWait (f : XF)
  /-- R214, OP 0x28B. -/
  | barSync (f : XF)
  /-- R213, OP 0x28C. -/
  | barExpect (f : XF)
  /-- R214, OP 0x28D. -/
  | barTest (f : XF)
  /-- R302, OP 0x290. -/
  | own (f : XF)
  /-- R248, OP 0x291. -/
  | waitc (f : PlainI)
  /-- R293, OP 0x300. -/
  | cpy (f : XF)
  /-- R293, OP 0x301. -/
  | cpys (f : XF)
  /-- R297, OP 0x302. -/
  | cpyd (f : XF)
  /-- R299, OP 0x303. -/
  | cpywp (f : XF)
  /-- R300, OP 0x304. -/
  | cpyx (f : XF)
  /-- R301, OP 0x305. -/
  | cpyst (f : XF)
  /-- R325, OP 0x310. -/
  | mxgo (f : XF)
  /-- R329, OP 0x311. -/
  | mxgrd (f : XF)
  /-- R330, OP 0x312. -/
  | mxrd (f : XF)
  /-- R330, OP 0x313. -/
  | mxwr (f : XF)
  /-- R326, OP 0x314. -/
  | mxclr (f : XF)
  /-- R326, OP 0x315. -/
  | mxst (f : XF)
  /-- R331, OP 0x316. -/
  | mxovf (f : XF)
  /-- R332, OP 0x317. -/
  | mxcan (f : XF)
  /-- R407, OP 0x320. -/
  | recld (f : XF)
  /-- R409, OP 0x321. -/
  | emit (f : XF)
  /-- R409, OP 0x322. -/
  | emitn (f : XF)
  /-- R413, OP 0x323. -/
  | nend (f : XF)
  /-- R415, OP 0x324. -/
  | xzopen (f : XF)
  /-- R415, OP 0x325. -/
  | xzwait (f : XF)
  /-- R408, OP 0x326. -/
  | rngld (f : XF)
  /-- R414, OP 0x327. -/
  | edgest (f : XF)
  /-- R263, OP 0x380. -/
  | svdiv (f : XF)
  /-- R264, OP 0x381. -/
  | rsdiv (f : XF)
  /-- R265, OP 0x382. -/
  | qsave (f : XF)
  /-- R265, OP 0x383. -/
  | qrest (f : XF)
  /-- R266, OP 0x384. -/
  | bsave (f : XF)
  /-- R266, OP 0x385. -/
  | brest (f : XF)
  /-- R267, OP 0x386. -/
  | kmov (f : XF)
  /-- R268, OP 0x387. -/
  | hret (f : XF)
  /-- R270, OP 0x388. -/
  | srd (f : XF)
  /-- R270, OP 0x389. -/
  | swr (f : XF)
  /-- R271, OP 0x38A. -/
  | winrd (f : XF)
  /-- R271, OP 0x38B. -/
  | winwr (f : XF)
  /-- R272, OP 0x38C. -/
  | tlbinv (f : XF)
  /-- R272, OP 0x38D. -/
  | l1inv (f : XF)
  /-- R269, OP 0x38E. -/
  | halt (f : XF)
  /-- R273, OP 0x38F. -/
  | mcack (f : XF)
  /-- R364. -/
  | watchCounterTick (die : Nat)
  /-- R82. -/
  | issueTurn (die core quad : Nat)
  /-- R98. -/
  | resultProduce (die core wave : Nat)
  /-- R224. -/
  | loadComplete (die core wave acc : Nat)
  /-- R224. -/
  | storeComplete (die core wave acc : Nat)
  /-- R202. -/
  | queuePush (die core : Nat)
  /-- R216. -/
  | barrierDoneMsg (die core bar : Nat)
  /-- R176. -/
  | sleepExpire (die core wave ctx : Nat)
  /-- R236. -/
  | futureAnswer (die slice : Nat)
  /-- R174. -/
  | waveEnd (die core wave : Nat)
  /-- R174. -/
  | groupRelease (die core gid : Nat)
  /-- R186. -/
  | tailEnd (die core slot : Nat)
  /-- R250. -/
  | asyncStop (die core wave : Nat) (mc : Option McRec)
  /-- R251. -/
  | trapPost (die core wave : Nat)
  /-- R288. -/
  | copyChannelEnter (die core ch : Nat)
  /-- R289. -/
  | copyRecordRead (die core ch : Nat)
  /-- R293. -/
  | copyHeadStart (die core ch : Nat)
  /-- R296. -/
  | copyLineDeliver (die core ch : Nat)
  /-- R304. -/
  | copyStop (die core ch : Nat)
  /-- R320. -/
  | mxQueueEnter (die core : Nat)
  /-- R328. -/
  | mxItemStart (die core : Nat)
  /-- R327. -/
  | mxQueueElement (die core : Nat)
  /-- R325. -/
  | mxJobComplete (die core : Nat)
  /-- R329. -/
  | mxResolution (die core : Nat)
  /-- R335. -/
  | mxItemStop (die core : Nat)
  /-- R339. -/
  | mxnodeRecord (die unit launch node : Nat)
  /-- R390. -/
  | gatherFull (die launch node : Nat)
  /-- R390. -/
  | inflowClose (die launch node : Nat)
  /-- R390. -/
  | gatherLinger (die launch node : Nat)
  /-- R395. -/
  | gatherSteal (die launch node : Nat)
  /-- R77. -/
  | groupPlace (die launch gno : Nat)
  /-- R401. -/
  | launchComplete (launch : Nat)
  /-- R353. -/
  | carveRetire (launch : Nat)
  /-- R427. -/
  | rasterTriangle (die : Nat)
  /-- R431. -/
  | rasterPassEnd (die : Nat)
  /-- R436. -/
  | rayTake (die unit launch node : Nat)
  /-- R448. -/
  | rayResult (die unit ray : Nat)
  /-- R258. -/
  | preemptRedirect (die core wave : Nat)
  /-- R403. -/
  | restorePlace (die launch gno : Nat)
  /-- R83. -/
  | wavePromote (die core wave : Nat)
  /-- R275. -/
  | fbFlush (die : Nat)
  /-- R276. -/
  | fbbaseWrite (die : Nat) (v : Dword)
  /-- R4. -/
  | registerWrite (ag : Agent) (at_ : RegAddr) (v : Dword)
  /-- R461. -/
  | bootVerify (b : BootSet)
  /-- R465. -/
  | halfBringup (half : Bool) (ok : Bool)
  /-- R464. -/
  | stage3Entry (trained : Bool)
  /-- R28. -/
  | gddrRetrain (half ch : Nat) (failed : Bool)
  /-- R28. -/
  | linkReplay (what : LinkErr) (half ch : Nat)
  /-- R33. -/
  | lineFetch (die core wave : Nat)
  /-- R25. -/
  | arbAgeing (pt : Nat)
  /-- R24. -/
  | arbGrant (pt : Nat) (arrivals : List ArbReq)
  /-- R202. -/
  | queueEligible (die core wave : Nat)
  /-- R73. -/
  | splitChange (die core regg l1g : Nat)
  /-- R456. -/
  | lrtailWrite (v : Word)
  /-- R456. -/
  | lrbaseWrite (v : Dword)
  /-- R404. -/
  | launchKill (what : KillReq) (core w : Nat)
  /-- R403. -/
  | preemptRequest (ctxid : Nat)
  /-- R278. -/
  | shadowSwap (ctxid : Nat)
  /-- R278. -/
  | shadowRestore (ctxid : Nat)
  /-- R278. -/
  | redirectTimeout (die core wave : Nat)
  /-- R357. -/
  | migrationOpen (old new size : Nat)
  /-- R357. -/
  | migrationClose (old : Nat)
  /-- R359. -/
  | bankToWarm (die bank : Nat)
  /-- R359. -/
  | bankCleanCold (die bank : Nat)
  /-- R360. -/
  | wakeRequest (die bank : Nat) (who : WakeReq) (background : Bool)
  /-- R360. -/
  | wakeWindow (die : Nat)
  /-- R360. -/
  | bankHot (die bank : Nat)
  /-- R365. -/
  | xdieTimeout (what : XReq)
  /-- R362. -/
  | xtmoWrite (die : Nat) (v : Word)
  /-- R451. -/
  | rayResumeWrite (die unit ray visits : Nat)
  /-- R463. -/
  | quoteGo (ag : Agent)
  /-- R460. -/
  | protectedRootRequest (r : RootReq)
  /-- R467. -/
  | vftWrite (ag : Agent) (rail e : Nat) (v : Word)
  /-- R468. -/
  | vfselWrite (ag : Agent) (rail : Nat) (v : Word)
  /-- R469. -/
  | pmctlWrite (ag : Agent) (v : Dword)
  /-- R468. -/
  | railChangeDone (rail : Nat)
  /-- R469. -/
  | pmStep (dram : Nat)
  /-- R471. -/
  | wearUpdate (rail : Nat)
  /-- R476. -/
  | telemetrySample (t : Telemetry)
  /-- R365. -/
  | stoppedClockEntry (die : Nat)
  /-- R454. -/
  | commandDieMemoryAccess (ag : Agent) (write : Bool) (pa n : Nat) (v : Nat)
  /-- R252. -/
  | managementWaveStart (die m : Nat) (pc : Nat) (regs : Nat)
  /-- R5. -/
  | coldReset
  /-- R457. -/
  | launchEntryConsume
  /-- R399. -/
  | launchArrive
  /-- R463. -/
  | quoteDone
  /-- R471. -/
  | thermalTrip
  /-- R472. -/
  | tripRecovery
  deriving DecidableEq, Repr

end Sys2Proof
end

