-- ==== Sys2Proof/Machine/Codes.lean ====
section
/-!
DEFINITION. Machine/Codes.lean: the numeric codes of operands and modifiers (R45, R46, R51 to R55), each with the
way back, and the named bits of MOD, SUB, FLAGS and ENG.
-/
namespace Sys2Proof

/-- R46: code 448 + i. -/
def Special.code : Special → Nat
  | .zero => 448 | .laneid => 449 | .waveid => 450 | .groupid => 451 | .coreid => 452 | .cluid => 453
  | .dieid => 454 | .nodeid => 455 | .batchn => 456 | .recbase => 457 | .cpwp0 => 458 | .cpwp1 => 459
  | .cpwp2 => 460 | .cpwp3 => 461 | .execmask => 462 | .ltmask => 463 | .livemask => 464 | .depth => 465
  | .bwphase => 466 | .watch => 467 | .launchid => 468 | .fpflags => 469 | .fpctl => 470

def Special.ofCode : Nat → Option Special
  | 448 => some .zero | 449 => some .laneid | 450 => some .waveid | 451 => some .groupid | 452 => some .coreid
  | 453 => some .cluid | 454 => some .dieid | 455 => some .nodeid | 456 => some .batchn | 457 => some .recbase
  | 458 => some .cpwp0 | 459 => some .cpwp1 | 460 => some .cpwp2 | 461 => some .cpwp3 | 462 => some .execmask
  | 463 => some .ltmask | 464 => some .livemask | 465 => some .depth | 466 => some .bwphase | 467 => some .watch
  | 468 => some .launchid | 469 => some .fpflags | 470 => some .fpctl
  | _ => none

/-- R46: a special name that reads the same value in every lane. -/
def Special.uniform : Special → Bool
  | .laneid | .ltmask | .depth => false
  | _ => true

/-- R45. -/
def Opnd.code : Opnd → Nat
  | .v n => n
  | .q n => 384 + n
  | .h n => 416 + n
  | .k n => 420 + n
  | .sp x => x.code
  | .rsv c => c
  | .none => 511

/-- R45. -/
def Opnd.ofCode (c : Nat) : Opnd :=
  if c < 384 then .v c
  else if c < 416 then .q (c - 384)
  else if c < 419 then .h (c - 416)
  else if 420 ≤ c ∧ c < 428 then .k (c - 420)
  else if c = 511 then .none
  else match Special.ofCode c with
    | some x => .sp x
    | Option.none => .rsv c

/-- The operand is written as its code reads (no number outside its class). -/
def Opnd.canon (o : Opnd) : Bool := decide (o.code < 512) && decide (Opnd.ofCode o.code = o)

def Ty.code : Ty → Nat
  | .b32 => 0 | .b64 => 1 | .s8 => 2 | .s16 => 3 | .s32 => 4 | .s64 => 5 | .n8 => 6 | .n16 => 7
  | .n32 => 8 | .n64 => 9 | .f16 => 10 | .bf16 => 11 | .f32 => 12 | .f64 => 13 | .f16x2 => 14 | .bf16x2 => 15

/-- R51: every code of four bits names a type. -/
def Ty.ofCode : Nat → Ty
  | 0 => .b32 | 1 => .b64 | 2 => .s8 | 3 => .s16 | 4 => .s32 | 5 => .s64 | 6 => .n8 | 7 => .n16
  | 8 => .n32 | 9 => .n64 | 10 => .f16 | 11 => .bf16 | 12 => .f32 | 13 => .f64 | 14 => .f16x2 | _ => .bf16x2

def Rnd.code : Rnd → Nat
  | .dflt => 0 | .rn => 1 | .rz => 2 | .rp => 3 | .rm => 4

/-- R52: codes 101 to 111 are no rounding mode. -/
def Rnd.ofCode : Nat → Option Rnd
  | 0 => some .dflt | 1 => some .rn | 2 => some .rz | 3 => some .rp | 4 => some .rm | _ => none

def Cond.code : Cond → Nat
  | .eq => 0 | .ne => 1 | .lt => 2 | .le => 3 | .gt => 4 | .ge => 5 | .equ => 6 | .neu => 7
  | .ltu => 8 | .leu => 9 | .gtu => 10 | .geu => 11 | .num => 12 | .nan => 13

/-- R53: codes 14 and 15 are no condition. -/
def Cond.ofCode : Nat → Option Cond
  | 0 => some .eq | 1 => some .ne | 2 => some .lt | 3 => some .le | 4 => some .gt | 5 => some .ge
  | 6 => some .equ | 7 => some .neu | 8 => some .ltu | 9 => some .leu | 10 => some .gtu | 11 => some .geu
  | 12 => some .num | 13 => some .nan | _ => none

def MSize.code : MSize → Nat
  | .n8 => 0 | .s8 => 1 | .n16 => 2 | .s16 => 3 | .b32 => 4 | .b64 => 5 | .b128 => 6

/-- R54: codes 0x7 to 0xF are no size. -/
def MSize.ofCode : Nat → Option MSize
  | 0 => some .n8 | 1 => some .s8 | 2 => some .n16 | 3 => some .s16 | 4 => some .b32 | 5 => some .b64
  | 6 => some .b128 | _ => none

def Scope.code : Scope → Nat
  | .lane => 0 | .wave => 1 | .grp => 2 | .clu => 3 | .die => 4 | .dev => 5 | .sys => 6 | .obs => 7

def Scope.ofCode : Nat → Scope
  | 0 => .lane | 1 => .wave | 2 => .grp | 3 => .clu | 4 => .die | 5 => .dev | 6 => .sys | _ => .obs

def HoldSel.code : HoldSel → Nat
  | .none => 0 | .A => 1 | .B => 2 | .C => 3

def HoldSel.ofCode : Nat → HoldSel
  | 0 => .none | 1 => .A | 2 => .B | _ => .C

/-- Registers that a value of the type takes (R48, R125). -/
def Ty.regs : Ty → Nat
  | .b64 | .s64 | .n64 | .f64 => 2
  | _ => 1

/-- w of R101: the width of the operation. -/
def Ty.width (t : Ty) : Nat := 32 * t.regs

/-- Width of an element as R148 and R125 give it. -/
def Ty.elem : Ty → Nat
  | .s8 | .n8 => 8
  | .s16 | .n16 | .f16 | .bf16 | .f16x2 | .bf16x2 => 16
  | .b64 | .s64 | .n64 | .f64 => 64
  | _ => 32

def Ty.signed : Ty → Bool
  | .s8 | .s16 | .s32 | .s64 => true
  | _ => false

def Ty.isInt : Ty → Bool
  | .s8 | .s16 | .s32 | .s64 | .n8 | .n16 | .n32 | .n64 => true
  | _ => false

def Ty.isFloat : Ty → Bool
  | .f16 | .bf16 | .f32 | .f64 => true
  | _ => false

/-- R54: bytes of an access, and the registers of its datum. -/
def MSize.bytes : MSize → Nat
  | .n8 | .s8 => 1
  | .n16 | .s16 => 2
  | .b32 => 4
  | .b64 => 8
  | .b128 => 16

def MSize.regs : MSize → Nat
  | .b64 => 2
  | .b128 => 4
  | _ => 1

/-! ## Named bits of the formats -/

def IntR.w (f : IntR) : Nat := f.ty.regs
def IntI.w (f : IntI) : Nat := f.ty.regs
def FltR.w (f : FltR) : Nat := f.ty.regs
def FltI.w (f : FltI) : Nat := f.ty.regs
def CmpR.w (f : CmpR) : Nat := f.ty.regs
def CmpI.w (f : CmpI) : Nat := f.ty.regs

/-- SUB 0 SAT and SUB 1 WIDE (R104). -/
def IntR.sat (f : IntR) : Bool := f.sub.getLsbD 0
def IntI.sat (f : IntI) : Bool := f.sub.getLsbD 0
def IntR.wide (f : IntR) : Bool := f.sub.getLsbD 1
def IntI.wide (f : IntI) : Bool := f.sub.getLsbD 1
/-- Registers of a destination that `.wide` makes 64-bit (R104). -/
def IntR.wideN (f : IntR) : Nat := if f.wide then 2 else f.w
def IntI.wideN (f : IntI) : Nat := if f.wide then 2 else f.w
/-- SHIFT (R104). -/
def IntR.shift (f : IntR) : Nat := f.sub.toNat % 32
def IntI.shift (f : IntI) : Nat := f.sub.toNat % 32

/-- ENG bits hi:lo. -/
def XF.e (f : XF) (hi lo : Nat) : Nat := bits f.eng.toNat hi lo
/-- LABEL, BOUND, JOIN18 and FS of the table instructions (R160). -/
def XF.label (f : XF) : Nat := f.e 44 29
def XF.bound (f : XF) : Nat := f.e 28 18
def XF.join18 (f : XF) : Nat := f.e 17 0
def XF.fs (f : XF) : Nat := f.e 17 9
/-- NCRD, ESZ, NEL and FLAG of the tensor loads (R226). -/
def XF.tnCrd (f : XF) : Nat := f.e 44 42
def XF.tnEsz (f : XF) : Nat := f.e 41 40
def XF.tnN (f : XF) : Nat := 2 ^ f.e 39 38
def XF.tFlag (f : XF) : Opnd := Opnd.ofCode (f.e 35 27)
/-- Bytes of an element: ESZ 00 is 4, 01 is 2, 10 is 1. -/
def XF.tnBytes (f : XF) : Nat := match f.tnEsz with | 0 => 4 | 1 => 2 | _ => 1
def XF.tnReg (f : XF) : Nat := (f.tnN * f.tnBytes + 3) / 4
/-- Bits of qbind and qfree (R198). -/
def XF.qn (f : XF) : Nat := f.e 44 40
def XF.qDepth (f : XF) : Nat := f.e 39 27
def XF.qDir (f : XF) : Nat := f.e 26 25
def XF.qRole (f : XF) : Nat := f.e 24 23
/-- Bits of the barrier instructions (R211). -/
def XF.bidx (f : XF) : Nat := f.e 44 37
def XF.clu (f : XF) : Bool := f.e 36 36 == 1
def XF.arv (f : XF) : Bool := f.e 35 35 == 1
def XF.count (f : XF) : Nat := f.e 34 23
/-- Bits of the copy instructions and `own` (R290). -/
def XF.ch (f : XF) : Nat := f.e 44 43
def XF.nc (f : XF) : Nat := f.e 42 40
def XF.cBar (f : XF) : Nat := f.e 39 32
def XF.barv (f : XF) : Bool := f.e 31 31 == 1
def XF.cClu (f : XF) : Bool := f.e 30 30 == 1
def XF.gv (f : XF) : Bool := f.e 29 29 == 1
def XF.gslot (f : XF) : Nat := f.e 28 26
def XF.toEng (f : XF) : Bool := f.e 44 44 == 1
def XF.ownN (f : XF) : Nat := f.e 9 0
/-- NWM1 and EDGE of the graph instructions (R405). -/
def XF.nw (f : XF) : Nat := f.e 4 0 + 1
def XF.edge (f : XF) : Nat := f.e 7 5
/-- SZ of the window instructions (R261): registers of the datum. -/
def XF.szN (f : XF) : Nat := if f.e 0 0 = 1 then 2 else 1
/-- LEN of sbind (R238). -/
def XF.len (f : XF) : Nat := f.e 44 21

/-- FS of `call` (R160). -/
def BrF.fs (f : BrF) : Nat := bits f.mod.toNat 8 0
/-- NEG of the conditional branches (R160). -/
def BrF.neg (f : BrF) : Bool := f.mod.getLsbD 0

/-- n of `baton` (R179). -/
def PlainI.batonN (f : PlainI) : Nat := bits f.imm.toNat 8 0
/-- Bits 15:0 of the immediate: LABEL, number or ticks (R160). -/
def PlainI.imm16 (f : PlainI) : Nat := bits f.imm.toNat 15 0

/-- XSH, XSG, KIND and AOP of the M format (R218, R219). -/
def MemF.xsh (f : MemF) : Nat := bits f.flags.toNat 2 0
def MemF.xsg (f : MemF) : Bool := f.flags.getLsbD 3
def MemF.kind (f : MemF) : Nat := bits f.flags.toNat 5 4
def MemF.aop (f : MemF) : Nat := bits f.flags.toNat 3 0

end Sys2Proof
end

