-- ==== Sys2Proof/Machine/Map.lean ====
section
/-!
DEFINITION. Machine/Map.lean: sparse storage by number, as plain data in one canonical form: keys strictly rising,
no entry equal to what an unlisted key reads as.
-/
namespace Sys2Proof

/-- Values by number; the value of an unlisted number is named by whoever reads. -/
abbrev FMap (α : Type) := List (Nat × α)

/-- The value at k; d is what an unlisted key reads as. -/
def FMap.get {α : Type} (d : α) : FMap α → Nat → α
  | [], _ => d
  | (k', v) :: r, k => if k' = k then v else FMap.get d r k

/-- The value at k, if it is listed. -/
def FMap.find? {α : Type} : FMap α → Nat → Option α
  | [], _ => none
  | (k', v) :: r, k => if k' = k then some v else FMap.find? r k

/-- Without key k. -/
def FMap.erase {α : Type} (m : FMap α) (k : Nat) : FMap α := m.filter (fun p => p.1 ≠ k)

/-- With v at k, in its place. -/
def FMap.insert {α : Type} : FMap α → Nat → α → FMap α
  | [], k, v => [(k, v)]
  | (k', v') :: r, k, v =>
    if k < k' then (k, v) :: (k', v') :: r
    else if k' = k then (k, v) :: r
    else (k', v') :: FMap.insert r k v

/-- v at k, kept canonical: the value an unlisted key reads as is not listed. -/
def FMap.set {α : Type} [DecidableEq α] (d : α) (m : FMap α) (k : Nat) (v : α) : FMap α :=
  if v = d then m.erase k else m.insert k v

/-- Keys strictly rise. -/
def FMap.sorted {α : Type} : FMap α → Bool
  | [] => true
  | [_] => true
  | a :: b :: r => decide (a.1 < b.1) && FMap.sorted (b :: r)

/-- The canonical form. -/
def FMap.wf {α : Type} [DecidableEq α] (d : α) (m : FMap α) : Bool := m.sorted && m.all (fun p => p.2 ≠ d)

/-- Values at several keys, later ones over earlier ones. -/
def FMap.setMany {α : Type} [DecidableEq α] (d : α) (m : FMap α) (l : List (Nat × α)) : FMap α :=
  l.foldl (fun m p => m.set d p.1 p.2) m

/-- The lowest number below n that the test accepts. -/
def lowest (n : Nat) (p : Nat → Bool) : Option Nat := (List.range n).find? p

end Sys2Proof
end

