-- ==== Sys2Proof/Machine/Types.lean ====
section
/-!
DEFINITION. Machine/Types.lean: the state of a shader core and of its waves (files 03 to 08 and 10).
-/
namespace Sys2Proof.Machine

/-- A divergence entry (R84). KIND: 0 RUN, 1 PEND, 2 JOIN, 3 reserved. -/
structure DivEntry where
  bbc : BitVec 6 := 0
  kind : BitVec 2 := 0
  depth : Half := 0
  mask : Mask := 0
  pc : Addr := 0
  deriving DecidableEq, Repr

/-- A return entry (R169). -/
structure RetEntry where
  rpc : Addr := 0
  fb : BitVec 9 := 0
  fs : BitVec 9 := 0
  deriving DecidableEq, Repr

/-- The return stack of a lane: SPCNT, ONCNT and the entries on chip, the oldest at 0 (R169). -/
structure LaneStack where
  spcnt : Nat := 0
  oncnt : Nat := 0
  ent : FMap RetEntry := []
  deriving DecidableEq, Repr

/-- The part of a wave that a redirect parks (R258): divergence state (the top entry first, entries written through
the window at or above DIVCNT apart), latch entries (key 32 e + lane) with their liveness, return stacks and TMODE.
`redo` holds, in a parked state, the lanes of replays that have not issued, by context (R268, R277); `can` the PC of a `cpyx` or `mxcan` under way and
how many commands it has cancelled (R300, R332), or of a `bar.expect` or `bar.sync` that waits and has done its first part: it goes on from there
where a stop interrupts it. `tsets` holds by lane the LANES
of the slow baton that a lane in tail mode is in (R182). -/
structure Div where
  stack : List DivEntry := []
  above : FMap DivEntry := []
  latch : FMap Word := []
  live : FMap Nat := []
  rets : FMap LaneStack := []
  tmode : Mask := 0
  tsets : FMap Mask := []
  redo : FMap Mask := []
  can : Option (Addr × Nat) := none
  deriving DecidableEq, Repr

/-- A blocked instruction (R203): the tick in which it first blocked, the tick of its last check, and the queue
records it pops and pushes. -/
structure Blk where
  age : Nat
  stamp : Nat
  pops : List Nat
  push : List Nat
  deriving DecidableEq, Repr

/-- What a context has of its own besides its divergence state: counters (R95, R188), order of issue (R187), block,
sleep (R176: the watch value that ends it), and the wait of a `bar.sync` that has arrived (R214: the PHASE in force,
none while its arrival is held) with its barrier, the barrier it is blocked on (256 core + index) with the lanes of the wait, the engine queue it waits to enter
(a copy channel, or 4 for the matrix unit), and the answers so far of a `futld` under way (lane, value, flag word; R236). -/
structure Ctx where
  ld : Nat := 0
  st : Nat := 0
  issued : Nat := 0
  blk : Option Blk := none
  sleep : Option Nat := none
  sync : Option (Option Half) := none
  syncAt : Nat := 0
  onBar : Option Nat := none
  barMask : Mask := 0
  onEng : Option Nat := none
  fut : Option (List (Nat × Nat × Nat)) := none
  deriving DecidableEq, Repr

/-- A tail slot (R183), with the exception flags that only this tail has set so far (R131). -/
structure Tail where
  valid : Bool := false
  wave : Nat := 0
  fb : BitVec 9 := 0
  fs : BitVec 9 := 0
  lanes : Mask := 0
  stack : List DivEntry := []
  above : FMap DivEntry := []
  ctx : Ctx := {}
  flags : Word := 0
  deriving DecidableEq, Repr

/-- An instruction whose completion lowers `ld` or `st` of its context (R95, R224): the register values a load writes
at completion (key 32 code + lane), the registers that an atomic not yet performed will give a value (`due`),
the lanes that cross to the other die, and the watch value (R365) and the tick of its issue. -/
structure Access where
  id : Nat
  ctx : Nat
  load : Bool
  writes : FMap Word
  due : List Nat := []
  xdie : Mask := 0
  born : Nat := 0
  at_ : Nat := 0
  deriving DecidableEq, Repr

/-- Where a store that is not yet performed goes: home, the die's carved copy, or a byte of a core's scratchpad. -/
inductive LatePlace where
  | phys (pa : Nat)
  | copy (va : Nat)
  | sp (ck a : Nat)
  deriving DecidableEq, Repr

/-- A store, or an atomic that crosses to the other die, that is issued and not yet performed (R193, R224, R365): its context (64
for a tail that has ended), its access and lane, its place, bytes and value; the KIND and AOP of an atomic (AOP 9 for `cas`), and
the register that takes the old value. -/
structure Late where
  ctx : Nat
  acc : Nat
  lane : Nat
  place : LatePlace
  n : Nat
  v : Nat
  op : Option (Nat × Nat) := none
  dst : Option Nat := none
  deriving DecidableEq, Repr

/-- A range of the binding table (R239): start, length in bytes, object. -/
structure BindRange where
  start : Nat
  len : Nat
  obj : Nat
  deriving DecidableEq, Repr

/-- A cause detected apart from an instruction and not yet taken (R250): the context that reports it, the cause, its
lanes (none: every live lane), and the faulting address. -/
structure PendCause where
  ctx : Nat
  cause : Nat
  lanes : Option Mask := none
  addr : Nat := 0
  deriving DecidableEq, Repr

/-- The Funel's record of a wave (R407 to R416): its batch (one record that all lanes share in a range or cluster node)
with the self-depths, the count and number of a range batch, USED by 8 lane + edge, NEND, what is left of its reservation
in queue room and in spilled records by edge, and the mark of `xzopen`. `halted` says that its save handler ended it,
while it held `tails` tails, with the lanes of replays that had not issued (of the main context under 63, of the k-th tail under 64 + k), a cancel under way and its binding table (R239). -/
structure FunelWave where
  launch : Option Nat := none
  node : Nat := 0
  gno : Nat := 0
  batchn : Nat := 0
  recs : List (List Word) := []
  depths : List Nat := []
  shared : Bool := false
  range : Option (Nat × Nat) := none
  used : FMap Nat := []
  ended : Mask := 0
  resq : FMap Nat := []
  ress : FMap Nat := []
  xz : Bool := false
  halted : Bool := false
  tails : Nat := 0
  redo : FMap Mask := []
  can : Option (Addr × Nat) := none
  table : List BindRange := []
  deriving DecidableEq, Repr

/-- A wave slot (R80, R255). `heldtok` is the register and lanes that take the token of its held arrival (R213), `engd` the registers that
wait for a copy command's end pointer (R290), `late` the stores not yet performed, in program order.
`gi` is its number in its group (R392). `lastIssue` is its place
in the order of issue: the tick of its last issue, 0 where it has not issued, below 0 where a promotion made it the least recent (R82, R83). `regs` holds v and k registers by operand code, key 32 code + lane. `stale`
holds, by the same key, the context of a load that has arrived and what the register still reads as until the counter shows it (R97). `seen`
are the engine commands whose completion the wave has observed (R16), as engine and issue; `mxNo` numbers its counted matrix items (R333). -/
structure Wave where
  valid : Bool := false
  n : Nat := 0
  row : Nat := 0
  gid : Nat := 0
  gi : Nat := 0
  ctxid : Nat := 0
  root : Option Nat := none
  div : Div := {}
  parked : Option Div := none
  main : Ctx := {}
  cp : Nat := 0
  mx : Nat := 0
  regs : FMap Word := []
  stale : FMap (Nat × Word) := []
  aff32 : FMap Bool := []
  aff64 : FMap Bool := []
  accs : List Access := []
  nextAcc : Nat := 0
  late : List Late := []
  sb : List (Nat × List Nat) := []
  seen : List (Nat × Nat) := []
  mxNo : Nat := 0
  binds : FMap Half := []
  fpctl : Word := 1
  fpflags : Word := 0
  bwphase : Nat := 0
  state : Nat := 0
  cause : Nat := 0
  number : Half := 0
  wctx : Nat := 0
  async : Bool := false
  faultmask : Mask := 0
  effmask : Mask := 0
  faultpc : Addr := 0
  faddr : FMap Addr := []
  heldarr : Half := 0
  heldtok : Option (Nat × Mask) := none
  engd : List Nat := []
  table : List BindRange := []
  recbase : Nat := 0
  funel : FunelWave := {}
  cperr : Word := 0
  mxerr : Bool := false
  mxcode : Nat := 0
  lastIssue : Int := 0
  waited : Nat := 0
  promo : Nat := 0
  actmask : Mask := 0
  redo : FMap Mask := []
  pend : List PendCause := []
  posted : Bool := false
  stopTick : Nat := 0
  stopReq : Bool := false
  deriving DecidableEq, Repr

/-- A queue record (R197) with the group that owns it and the room reserved for pushes under way (R202). -/
structure QRec where
  valid : Bool := false
  dir : Nat := 0
  depth : Nat := 0
  base : Nat := 0
  pcnt : Nat := 0
  ccnt : Nat := 0
  closed : Bool := false
  head : Nat := 0
  tail : Nat := 0
  count : Nat := 0
  gid : Nat := 0
  resv : Nat := 0
  deriving DecidableEq, Repr

/-- A push whose result is not yet produced (R202): record, pushing wave, elements in order, and the tick at which the unit has
produced it (R98, R136). -/
structure Push where
  qr : Nat
  wave : Nat
  elems : List Word
  due : Nat
  deriving DecidableEq, Repr

/-- A barrier record (R210); `dones` counts the messages of the other home not yet used, `sent` its own messages that
have not reached the other home, by the watch value of their sending (R216). -/
structure Bar where
  phase : Half := 0
  bytes : Word := 0
  arr : Nat := 0
  kind : Nat := 0
  rwait : Bool := false
  exparr : Nat := 0
  dones : Nat := 0
  sent : List Nat := []
  deriving DecidableEq, Repr

/-- An arrival held until the phase advances (R213): its barrier, the arriving wave (none for an engine), and a and x. -/
structure Held where
  bar : Nat
  wave : Option Nat
  a : Nat
  x : Word
  deriving DecidableEq, Repr

/-- A group placed on a core (R76, R78): its waves, its scratchpad run in KiB, its barriers, and for a cluster
launch the number of the cluster, the core of its member 0, and for a straddling one that of the other die (R20). A core
of a cluster that holds no group of it holds a group without waves, which reserves the share. -/
structure Group where
  id : Nat := 0
  launch : Option Nat := none
  node : Nat := 0
  gno : Nat := 0
  waves : List Nat := []
  gwaves : Nat := 1
  cspill : Nat := 0
  sbase : Nat := 0
  skib : Nat := 0
  bbase : Nat := 0
  nb : Nat := 0
  nc : Nat := 0
  clu : Bool := false
  cid : Nat := 0
  cbase : Nat := 0
  straddle : Bool := false
  obase : Nat := 0
  deriving DecidableEq, Repr

/-- A line of a carved region that is not ABSENT (R350): its dirty-byte mask, its 64 bytes as a number, byte 0 lowest,
its words whose tag is empty (R235), and the tick of its fill. -/
structure CLine where
  dirty : Nat := 0
  data : Nat := 0
  empty : Nat := 0
  born : Nat := 0
  deriving DecidableEq, Repr

/-- A carved region (R349, R350): one die's copy. Lines by number from VBASE; an unlisted line is ABSENT. -/
structure Region where
  die : Nat
  launch : Nat
  vbase : Nat
  size : Nat
  rd : Bool
  wr : Bool
  fill : Bool
  wbend : Bool
  lines : FMap CLine
  deriving DecidableEq, Repr

/-- An open page migration (R357). -/
structure Migration where
  old : Nat
  new : Nat
  size : Nat
  deriving DecidableEq, Repr

/-- An exact reduction cell (R234): S in units of 2^-149, its sticky states, the unit's die and the launch that declared
it. -/
structure Cell where
  s : Int
  pinf : Bool
  ninf : Bool
  nan : Bool
  die : Nat
  launch : Option Nat
  deriving DecidableEq, Repr

/-- A translation held by a core (R354 to R356): the root it was walked from, page start and size, physical start,
and the leaf's permission bits. -/
structure Tlb where
  root : Nat
  va : Nat
  size : Nat
  pa : Nat
  rd : Bool
  wr : Bool
  xf : Bool
  res : Bool
  deriving DecidableEq, Repr

/-- A line in a quadrant's fetch buffer (R33): its context's root (none where addresses are physical), its line
address, its 64 bytes as a number, byte 0 lowest, and the number of the next launch at its fetch: it serves waves of earlier
launches only (R245). -/
structure FetchLine where
  quad : Nat
  root : Option Nat
  addr : Nat
  data : Nat
  seq : Nat := 0
  deriving DecidableEq, Repr

/-- A trap queue record (R253). -/
structure TrapRec where
  refused : Bool
  cause : Nat
  ctx : Nat
  core : Nat
  wave : Nat
  deriving DecidableEq, Repr

/-- A dimension of a shape record (R291), with its start coordinate in force. -/
structure CopyDim where
  clo : Int
  chi : Int
  str : Int
  start : Int
  box : Nat
  deriving DecidableEq, Repr

/-- A shape record as read at issue (R291 to R295): `e` bytes of an element in global memory, `u` in the tile. -/
structure CopyShape where
  gaddr : Nat := 0
  soff : Nat := 0
  dfmt : Nat := 0
  swz : Nat := 0
  fill : Nat := 0
  epb : Nat := 0
  e : Nat := 1
  u : Nat := 1
  nb : Nat := 0
  dims : List CopyDim := []
  deriving DecidableEq, Repr

/-- A copy command (R289, R290): kind 0 `cpy`, 1 `cpys`, 2 `cpyd`; the issuing wave and its group; the tick of its
issue; the register of its end pointer; its barrier; its guard slot and the resolution since its issue. Its record is
read at issue: `shape`, or the code and the address that stop it, with NB. `snap` holds for each element still to be
delivered the place and the value that it had at issue, where it could be read then (R306), `born` is the watch value at which the accesses of its next line began (R365). `read` says that NB has been added to IP, `e` is the
end pointer, `lines` counts the delivered lines, `carry` holds tile bytes of the last element for the next line. -/
structure CopyCmd where
  kind : Nat
  wave : Nat
  gid : Nat
  at_ : Nat
  dst : Option Nat
  bar : Option (Nat × Nat)
  gslot : Option Nat
  res : Option Bool := none
  shape : CopyShape := {}
  code : Nat := 0
  faddr : Nat := 0
  nb : Nat := 0
  obs : List (Nat × Nat) := []
  snap : List (Option (Nat × Nat)) := []
  born : Nat := 0
  read : Bool := false
  e : Word := 0
  started : Bool := false
  lines : Nat := 0
  carry : List Byte := []
  cancel : Bool := false
  deriving DecidableEq, Repr

/-- A channel of the copy engine: WP, IP, the commands issued and not yet entered, and its queue (R288, R289). -/
structure Chan where
  wp : Word := 0
  ip : Word := 0
  entering : List CopyCmd := []
  queue : List CopyCmd := []
  deriving DecidableEq, Repr

/-- An item of a matrix unit's queue (R320): kind 0 `mxgo`, 1 `mxrd`, 2 `mxwr`, 3 `mxclr`, 4 `mxst`, and 5 a resolution,
which takes no entry (R329: `off` is its slot, `eng` its condition). `blk` is the parameter block as a number, `off` the
scratchpad offset, `eng` the ENG bits. `phase`: 0 queued, 1 started, 2 computed. `got` holds the popped A elements,
latest first, `pushed` counts the output elements pushed; `no` is its number among the counted items of its wave. -/
structure MxItem where
  kind : Nat
  wave : Nat
  gid : Nat
  at_ : Nat
  blk : Nat := 0
  off : Nat := 0
  eng : Nat := 0
  no : Nat := 0
  obs : List (Nat × Nat) := []
  bar : Option (Nat × Nat) := none
  phase : Nat := 0
  code : Nat := 0
  got : List Word := []
  pushed : Nat := 0
  cancel : Bool := false
  deriving DecidableEq, Repr

/-- A matrix unit (R320, R328): the live and the shadow set by element 64 i + j with their OVF, the open slot, the items
issued and not yet entered, the queue, and the guarded jobs whose run has ended and whose arrival waits. -/
structure Mx where
  live : FMap Dword := []
  shad : FMap Dword := []
  ovfl : Bool := false
  ovfs : Bool := false
  slot : Option (Nat × Nat) := none
  entering : List MxItem := []
  queue : List MxItem := []
  done : List MxItem := []
  deriving DecidableEq, Repr

/-- A die (R10, R364): its watch counter and its fault buffer (R270, R274, R276). -/
structure Die where
  watch : Dword := 0
  fbbase : Dword := 0
  fbgen : Byte := 0
  fbovf : Bool := false
  fbhead : Word := 0
  fbtail : Word := 0
  deriving DecidableEq, Repr

/-- A byte that an engine wrote (R16): what stood there before, the engine (a copy channel, or 4 for the matrix unit), the issue of its
command, the wave that issued it and the item's number there (R333), whether it has completed, and the barrier (256 core + index) and the phase in
which its arrival counted. -/
structure Prior where
  old : Byte
  eng : Nat
  cmd : Nat
  wave : Nat := 0
  no : Nat := 0
  done : Bool := false
  mark : Option (Nat × Half) := none
  deriving DecidableEq, Repr

/-- A shader core, or a management core, which has no engines (R72 to R74, R196, R209, R252, R254); `placed` says that a
group was placed on it since the last watch tick (R79), and `prior` tells of scratchpad bytes that engines wrote (R16). -/
structure Core where
  regg : Nat := 16
  scrg : Nat := 12
  l1g : Nat := 4
  fragidle : Dword := 0
  tlFast : Word := 0
  tlSlow : Word := 0
  scratch : FMap Byte := []
  prior : FMap Prior := []
  owner : FMap Bool := []
  queues : FMap QRec := []
  pushes : List Push := []
  bars : FMap Bar := []
  held : List Held := []
  groups : List Group := []
  nextGid : Nat := 1
  placed : Bool := false
  chans : FMap Chan := []
  mx : Mx := {}
  tlb : List Tlb := []
  fbuf : List FetchLine := []
  trapq : List TrapRec := []
  mclog : Dword := 0
  rfault : Dword := 0
  deriving DecidableEq, Repr

end Sys2Proof.Machine
end

