-- ==== Sys2Proof/Machine/GraphTypes.lean ====
section
/-!
DEFINITION. Machine/GraphTypes.lean: the state of launches and record queues (file 20), of the fixed units (files 15, 23,
24), of the Lehr (file 17), of saved contexts (file 10) and of the command die (file 25).
-/
namespace Sys2Proof.Machine

/-! ## Launches (R383 to R388) -/

/-- The effective fields of an RCB (R21, R384). -/
structure Rcb where
  addr : Nat := 0
  cls : Nat := 0
  fdom : Nat := 0
  cores : Nat := 0
  phase : Nat := 0
  gran : Nat := 0
  banks : Nat := 0
  deriving DecidableEq, Repr

/-- A valid out-edge (R387). -/
structure Edge where
  e : Nat
  tgt : Nat
  deriving DecidableEq, Repr

/-- A node descriptor (R386): `rsz` in bytes, `b` in lanes, `clu` 0 none, 1 cluster, 2 straddling, of `clun` groups on
each die, with its DEPTH (R387). -/
structure Node where
  code : Nat := 0
  kind : Nat := 0
  rsz : Nat := 16
  b : Nat := 8
  pre : Nat := 0
  nreg : Nat := 8
  regg : Nat := 16
  l1g : Nat := 4
  scrb : Nat := 0
  nbar : Nat := 0
  cspill : Nat := 0
  gwaves : Nat := 1
  ncbar : Nat := 0
  clu : Nat := 0
  clun : Nat := 1
  mxuse : Bool := false
  ord : Bool := false
  recsp : Bool := false
  linger : Nat := 0
  fpctl : Nat := 1
  qcap : Nat := 8
  sdepth : Nat := 0
  ru : Nat := 0
  edges : List (Option Edge) := []
  rcb : Rcb := {}
  depth : Nat := 0
  deriving DecidableEq, Repr

/-- A carve record (R349). -/
structure Carve where
  vbase : Nat
  size : Nat
  dies : Nat
  rd : Bool
  wr : Bool
  fill : Bool
  wbend : Bool
  deriving DecidableEq, Repr

/-- A record in a sub-queue (R389, R410): its words, self-depth and stamp, the watch value of its append, whether it lies
in the spill area, and how many batches of a range record are taken (R393). -/
structure Rcd where
  words : List Word
  self : Nat := 0
  stamp : Nat := 0
  born : Nat := 0
  spilled : Bool := false
  taken : Nat := 0
  deriving DecidableEq, Repr

/-- A batch (R390, R393, R394): its lanes, its records with their self-depths, and the count and batch number of a range
batch. -/
structure Batch where
  lanes : Nat
  recs : List (List Word)
  depths : List Nat
  range : Option (Nat × Nat) := none
  deriving DecidableEq, Repr

/-- A formed group, or the groups of a formed cluster, waiting for placement (R391, R394): the number of the first. -/
structure Formed where
  die : Nat
  node : Nat
  gno : Nat
  batches : List Batch
  deriving DecidableEq, Repr

/-- An accepted launch that has not completed (R385, R399): its effective RCBs from the device down, its sub-queues by
2 node + die, the batches taken for a group that is not yet formed (`opened`, by the same number), its stamp counters by node, and the counters
that it writes back. `banked` says that its queue banks and
carved regions are taken and its launch record is appended. -/
structure Launch where
  seq : Nat := 0
  lrcb : Nat := 0
  irq : Bool := false
  ctxid : Nat := 0
  root : Nat := 0
  saveh : Nat := 0
  resth : Nat := 0
  savebase : Nat := 0
  savesz : Nat := 0
  path : List Rcb := []
  cmask : Nat := 0
  nodes : List Node := []
  entry : Nat := 0
  first : List Word := []
  pred : Option Nat := none
  spill : Nat := 0
  spillsz : Nat := 0
  carves : List Carve := []
  banked : Bool := false
  retired : Bool := false
  lset : List Nat := []
  queues : FMap (List Rcd) := []
  stamps : FMap Nat := []
  opened : FMap (List Batch) := []
  formed : List Formed := []
  nextGno : Nat := 0
  nwaves : Nat := 0
  underc : Nat := 0
  underl : Nat := 0
  steals : Nat := 0
  spills : Nat := 0
  deriving DecidableEq, Repr

/-- A graph image as the Funel has read it: the context's root and its address, its header, its descriptors. -/
structure KeptImage where
  root : Nat
  addr : Nat
  head : Nat
  descs : List Nat
  deriving DecidableEq, Repr

/-- The checked structures that the Funel of virtual die 0 keeps, the last used first (R399, R400): RCBs by address. -/
structure Kept where
  rcbs : List (Nat × Nat) := []
  images : List KeptImage := []
  deriving DecidableEq, Repr

/-- A launch that the command die has read from its ring (R457): LRCB, IRQ and n of its entry. -/
structure Arrival where
  lrcb : Nat
  irq : Bool
  entry : Nat := 0
  deriving DecidableEq, Repr

/-- How the last launch of a context ended its arrival (R402): accepted under a sequence number, rejected, or killed with a
code. -/
inductive Pred where
  | accepted (seq : Nat)
  | rejected
  | killed (code : Nat)
  deriving DecidableEq, Repr

/-- The units that a kill ends (R22, R404). -/
inductive KillDom where
  | wave (die core w : Nat)
  | launch (seq : Nat)
  | context (ctxid : Nat)
  deriving DecidableEq, Repr

/-! ## Pre-emption (R277 to R281, R403) -/

/-- A pre-empted context: each die's watch counter at the request. -/
structure Preempt where
  ctxid : Nat
  since : List Nat
  deriving DecidableEq, Repr

/-- A wave that software saved (R403), by its group, the first group of its cluster, and its number in its group, with its
save area and its Funel record. -/
structure SavedWave where
  launch : Nat
  die : Nat
  first : Nat
  gno : Nat
  gi : Nat
  area : Nat
  funel : FunelWave
  deriving DecidableEq, Repr

/-- The image of a partition in shadow storage (R278). -/
structure Shadow where
  gen : Nat
  ctxid : Nat
  waves : FMap Wave
  cores : FMap Core
  tails : FMap Tail
  regions : List Region
  deriving DecidableEq, Repr

/-! ## Fixed units -/

/-- A raster pass (R423 to R431): its descriptor as read, the binned triangles (stamp and words) since the last partial
pass, the list lengths by tile, the stored tiles, the counters, and the code of a failed pass. -/
structure Pass where
  addr : Nat
  desc : Nat
  geo : List (Nat × List Word) := []
  lists : FMap Nat := []
  stored : FMap Bool := []
  tris : Nat := 0
  culled : Nat := 0
  partials : Nat := 0
  frags : Nat := 0
  fail : Nat := 0
  unread : Bool := false
  deriving DecidableEq, Repr

/-- A die's raster unit (R422): the node it serves, and its pass; `ended` says that the pass takes no further record. -/
structure Raster where
  serves : Option (Nat × Nat) := none
  pass : Option Pass := none
  ended : Bool := false
  deriving DecidableEq, Repr

/-- A ray in flight (R436, R447): launch and node, its record, the die whose sub-queue keeps its room, its packet,
and its reservations as in a wave. -/
structure Ray where
  id : Nat
  launch : Nat
  node : Nat
  rcd : Rcd
  home : Nat
  packet : Option Nat := none
  resq : FMap Nat := []
  ress : FMap Nat := []
  deriving DecidableEq, Repr

/-- A die's traversal units by number, and the ray counters (R452). -/
structure Rays where
  units : FMap (List Ray) := []
  next : Nat := 0
  rays : Dword := 0
  packets : Dword := 0
  splits : Dword := 0
  resumes : Dword := 0
  errors : Dword := 0
  deriving DecidableEq, Repr

/-! ## The Lehr (R359 to R363) -/

/-- A wake request: when it came and became eligible, in watch ticks, its order of arrival, the counter set it is charged
to, and whether it is a background request. -/
structure Wake where
  born : Nat
  eligible : Nat
  order : Nat
  set : Nat
  background : Bool
  deriving DecidableEq, Repr

/-- A bank (R359, R362): STATE 0 HOT, 1 WARM, 2 COLD, 3 waking, ROLE and OWNER, the watch value of its entry into its
state and of its last use, its request, the state that a waking bank leaves with the start of its wake, the role and owner
that it takes once it is HOT (R348), and whether it is woken to be cleaned and sent COLD. -/
structure Bank where
  state : Nat := 2
  role : Nat := 0
  owner : Nat := 0
  entered : Nat := 0
  used : Nat := 0
  req : Option Wake := none
  wakes : Option (Nat × Nat) := none
  next : Option (Nat × Nat) := none
  clean : Bool := false
  deriving DecidableEq, Repr

/-- A counter set (R362). -/
structure CntSet where
  wakew : Word := 0
  wakec : Word := 0
  holdt : Dword := 0
  queuet : Dword := 0
  aborts : Word := 0
  deriving DecidableEq, Repr

/-- A die's Lehr and the rest of its fabric control block: `window` and `starts` are the window of the last wake and the
wakes started in it; `waits` are the banks with a waiting access and no request yet, by their first access, with the counter set of
its launch (R360, R363). -/
structure Lehr where
  dwellc : Half := 20000
  dwellw : Half := 1000
  tmo : Half := 20
  sets : FMap CntSet := []
  banks : FMap Bank := []
  orders : Nat := 0
  window : Nat := 0
  starts : Nat := 0
  waits : List (Nat × Nat) := []
  stopped : Bool := false
  deriving DecidableEq, Repr

/-! ## Shared arbitration (R24, R25) -/

/-- A waiting request: its number, its class, its requester, its transfers, and the grant cycle of its arrival. -/
structure Waiting where
  id : Nat
  cls : Nat
  who : Nat
  transfers : Nat
  born : Nat
  deriving DecidableEq, Repr

/-- An arbitration point: grant cycles so far, requests so far, waiting requests by arrival, what is left of the burst in progress
(request, transfers), and the last grant (requester, class). -/
structure Arb where
  cycles : Nat := 0
  nextId : Nat := 0
  waiting : List Waiting := []
  burst : Option (Nat × Nat) := none
  granted : Option (Nat × Nat) := none
  deriving DecidableEq, Repr

/-! ## The command die (R454 to R476) -/

/-- A rail (R466 to R471): VFT entries as written, the fields of VFLIM and VFSEL, WACC and WBUD. -/
structure Rail where
  vft : FMap Word := []
  fmax : Half := 2700
  maxe : Nat := 15
  vmax : Nat := 1050
  rej : Bool := false
  cur : Nat := 0
  pmcap : Nat := 15
  ceil : Nat := 15
  target : Nat := 0
  wacc : Dword := 0
  wbud : Dword := 0x0010000000000000
  deriving DecidableEq, Repr

/-- A GDDR-7 channel's counter set (R474). -/
structure Gddr where
  rdcrc : Word := 0
  wredc : Word := 0
  capar : Word := 0
  retrain : Half := 0
  rtfail : Half := 0
  rds : Dword := 0
  wrs : Dword := 0
  deriving DecidableEq, Repr

/-- ECC counters of a slice (R475). -/
structure Ecc where
  ce : Word := 0
  ue : Word := 0
  deriving DecidableEq, Repr

/-- A margin monitor (R475). -/
structure Margin where
  now : Half := 0
  min : Half := 0
  deriving DecidableEq, Repr

/-- What the last sample but one gave (R476): sensors, margins, rail powers and package power. -/
structure Sampled where
  sensors : FMap Half := []
  margins : FMap Margin := []
  pwr : Dword := 0
  pkgpwr : Half := 0
  deriving DecidableEq, Repr

/-- The command die: bring-up (R464, R472), launch path (R456, R457), protected roots and quotes (R460 to R463), power
(R466 to R471) and telemetry (R473 to R476). `msix` are the vectors signalled, latest first; `reports` the causes of
management-core waves told to Gaffer (R252); `down` the microseconds since a trip and `tripped` that stage 3 has not been
reached since it; `off` the unpowered halves; `old` the sample before
the latest; `hostRead` what the last access through the command die returned. -/
structure Cdie where
  stage : Nat := 0
  half : Bool := false
  fail : Nat := 0
  verified : Bool := false
  tripcnt : Word := 0
  down : Nat := 0
  lrbase : Dword := 0
  lrhead : Word := 0
  lrtail : Word := 0
  lrstat : Nat := 0
  lrentry : Word := 0
  lrreason : Nat := 0
  arrived : List Arrival := []
  msix : List Nat := []
  roots : FMap (Option (Nat × Nat)) := []
  meas : List (BitVec 512) := [0, 0, 0, 0]
  idhash : BitVec 256 := 0
  qnonce : BitVec 256 := 0
  qaddr : Dword := 0
  qbusy : Bool := false
  qdone : Bool := false
  qerr : Bool := false
  rails : List Rail := [{}, {}, {}, {}]
  hostpm : Bool := false
  order : Byte := 0xE4
  idram : Byte := 160
  wcode : Nat := 0
  wmaxc : Nat := 12
  gcur : Nat := 4
  gmin : Nat := 1
  pkglim : Half := 4400
  pkgpwr : Half := 0
  pwr : Dword := 0
  ttrip : Half := 1760
  tthr : Half := 1520
  lowPkg : Nat := 0
  lowDram : Nat := 0
  sensors : FMap Half := []
  gddr : FMap Gddr := []
  ecc : FMap Ecc := []
  margins : FMap Margin := []
  links : Nat := 0
  off : List Bool := [true, true]
  reports : List TrapRec := []
  hostRead : Nat := 0
  old : Sampled := {}
  tripped : Bool := false
  deriving DecidableEq, Repr

end Sys2Proof.Machine
end

