-- ==== Sys2Proof/Machine/Uses.lean ====
section
/-!
DEFINITION. Machine/Uses.lean: which operands an instruction names, in which field, how many registers each covers,
how it is aligned, which codes its position accepts (R47, R48 and the entries), and whether it is read or written.
The operand checks, the tail limits (R184), the implicit join (R189), the wait for results (R81), HOLD (R42) and the
unused-field check (R44) all read this one table.
-/
namespace Sys2Proof

/-- An operand field by position. X and the store datum stand at the positions that HOLD.SEL gives them (R42). -/
inductive Fld where
  | D | A | B | C | G | FLAG
  deriving DecidableEq, Repr

/-- Which codes a position accepts. -/
inductive Acc where
  | src    -- R47 source position, R48 when it covers two or four registers
  | dst    -- R47 destination position, R48
  | mdst   -- a `v` register, or a `k` register in handler mode (R219)
  | vreg   -- a `v` register only
  | vsp    -- a `v` register or a special name (R198, R211)
  | vk     -- a `v` or `k` register (R261)
  | guard  -- R47 guard position
  deriving DecidableEq, Repr

/-- One operand of an instruction. -/
structure Use where
  fld : Fld
  o : Opnd
  n : Nat
  al : Nat
  acc : Acc
  rd : Bool
  wr : Bool
  hold : Bool := false
  deriving DecidableEq, Repr

namespace Use
/-- A source value of n registers. -/
def src (f : Fld) (o : Opnd) (n : Nat) : Use := ⟨f, o, n, n, .src, true, false, true⟩
/-- The destination of n registers. -/
def dst (o : Opnd) (n : Nat) : Use := ⟨.D, o, n, n, .dst, false, true, false⟩
/-- The destination of a memory instruction. -/
def mdst (o : Opnd) (n : Nat) : Use := ⟨.D, o, n, n, .mdst, false, true, false⟩
/-- The operand and old value of an atomic. -/
def mrw (o : Opnd) (n al : Nat) : Use := ⟨.D, o, n, al, .mdst, true, true, false⟩
/-- A `v` register or aligned pair. -/
def vrw (f : Fld) (o : Opnd) (n al : Nat) (rd wr : Bool) : Use := ⟨f, o, n, al, .vreg, rd, wr, false⟩
/-- A range of `v` registers. -/
def vrng (f : Fld) (o : Opnd) (n : Nat) (rd wr : Bool) : Use := ⟨f, o, n, 1, .vreg, rd, wr, false⟩
def vsp (f : Fld) (o : Opnd) : Use := ⟨f, o, 1, 1, .vsp, true, false, false⟩
def vk (f : Fld) (o : Opnd) (n : Nat) (rd wr : Bool) : Use := ⟨f, o, n, n, .vk, rd, wr, false⟩
/-- The destination of `wrlane` (R159): a `v` register, or for `.b64` any pair of R48, so a `k` pair in handler mode. -/
def lane1 (o : Opnd) (n : Nat) : Use := if n = 2 then vk .D o 2 false true else vrw .D o n n false true
def flg (o : Opnd) : Use := ⟨.FLAG, o, 1, 1, .vreg, false, true, false⟩
/-- An optional operand: none when the field holds 511. -/
def opt (o : Opnd) (u : Use) : List Use := if o = .none then [] else [u]
/-- The lent frame of a call (R160): it is named, not read. -/
def frame (f : Fld) (o : Opnd) (fs : Nat) : List Use := opt o (vrng f o fs true false)
def idx (o : Opnd) : List Use := opt o (src .B o 1)
/-- The first coordinate register of a copy command (R290). -/
def crd (o : Opnd) (nc : Nat) : List Use := opt o (vrng .B o nc true false)
/-- `kmov` (R261): `.get` writes D, `.put` reads A. -/
def kmv (f : XF) : List Use := if f.e 3 3 = 1 then [vk .A f.a 1 true false] else [vk .D f.d 1 false true]
/-- `tlbinv` and `l1inv` (R261): start and length unless ALL. -/
def inv (f : XF) : List Use := if f.e 0 0 = 1 then [] else [vk .A f.a 2 true false, vk .B f.b 1 true false]
end Use

open Use in
/-- The operands of a slot instruction besides its guard; events name none. `red` reads its D as its operand, and HOLD may select it as
it may select store data (R42, R219; log entry 71). -/
def Instr.operands : Instr → List Use
  | .add f => [dst f.d f.w, src .A f.a f.w, src .B f.b f.w]
  | .addRi f => [dst f.d f.w, src .A f.a f.w]
  | .sub f => [dst f.d f.w, src .A f.a f.w, src .B f.b f.w]
  | .subRi f => [dst f.d f.w, src .A f.a f.w]
  | .mul f => [dst f.d (f.wideN), src .A f.a f.w, src .B f.b f.w]
  | .mulRi f => [dst f.d (f.wideN), src .A f.a f.w]
  | .mulhi f => [dst f.d f.w, src .A f.a f.w, src .B f.b f.w]
  | .mad f => [dst f.d (f.wideN), src .A f.a f.w, src .B f.b f.w, src .C f.c (f.wideN)]
  | .div f => [dst f.d f.w, src .A f.a f.w, src .B f.b f.w]
  | .divRi f => [dst f.d f.w, src .A f.a f.w]
  | .rem f => [dst f.d f.w, src .A f.a f.w, src .B f.b f.w]
  | .remRi f => [dst f.d f.w, src .A f.a f.w]
  | .neg f => [dst f.d f.w, src .A f.a f.w]
  | .abs f => [dst f.d f.w, src .A f.a f.w]
  | .min f => [dst f.d f.w, src .A f.a f.w, src .B f.b f.w]
  | .minRi f => [dst f.d f.w, src .A f.a f.w]
  | .max f => [dst f.d f.w, src .A f.a f.w, src .B f.b f.w]
  | .maxRi f => [dst f.d f.w, src .A f.a f.w]
  | .clamp f => [dst f.d f.w, src .A f.a f.w, src .B f.b f.w, src .C f.c f.w]
  | .addc f => [dst f.d 2, src .A f.a 1, src .B f.b 1, src .C f.c 1]
  | .subb f => [dst f.d 2, src .A f.a 1, src .B f.b 1, src .C f.c 1]
  | .sad f => [dst f.d 1, src .A f.a 1, src .B f.b 1, src .C f.c 1]
  | .dot4 f => [dst f.d 1, src .A f.a 1, src .B f.b 1, src .C f.c 1]
  | .and f => [dst f.d f.w, src .A f.a f.w, src .B f.b f.w]
  | .andRi f => [dst f.d f.w, src .A f.a f.w]
  | .or f => [dst f.d f.w, src .A f.a f.w, src .B f.b f.w]
  | .orRi f => [dst f.d f.w, src .A f.a f.w]
  | .xor f => [dst f.d f.w, src .A f.a f.w, src .B f.b f.w]
  | .xorRi f => [dst f.d f.w, src .A f.a f.w]
  | .not f => [dst f.d f.w, src .A f.a f.w]
  | .andn f => [dst f.d f.w, src .A f.a f.w, src .B f.b f.w]
  | .shl f => [dst f.d f.w, src .A f.a f.w, src .B f.b 1]
  | .shlRi f => [dst f.d f.w, src .A f.a f.w]
  | .shr f => [dst f.d f.w, src .A f.a f.w, src .B f.b 1]
  | .shrRi f => [dst f.d f.w, src .A f.a f.w]
  | .rot f => [dst f.d f.w, src .A f.a f.w, src .B f.b 1]
  | .rotRi f => [dst f.d f.w, src .A f.a f.w]
  | .bfx f => [dst f.d 1, src .A f.a 1, src .B f.b 1]
  | .bfxRi f => [dst f.d 1, src .A f.a 1]
  | .bfi f => [dst f.d 1, src .A f.a 1, src .B f.b 1, src .C f.c 1]
  | .bfiRi f => [vrw .D f.d 1 1 true true, src .A f.a 1]
  | .popc f => [dst f.d 1, src .A f.a f.w]
  | .clz f => [dst f.d 1, src .A f.a f.w]
  | .ctz f => [dst f.d 1, src .A f.a f.w]
  | .brev f => [dst f.d f.w, src .A f.a f.w]
  | .bpick f => [dst f.d 1, src .A f.a 1, src .B f.b 1, src .C f.c 1]
  | .bpickRi f => [dst f.d 1, src .A f.a 1]
  | .bfn f => [dst f.d f.w, src .A f.a f.w, src .B f.b f.w, src .C f.c f.w]
  | .mov f => [dst f.d f.w, src .A f.a f.w]
  | .movRi f => [dst f.d f.w]
  | .sel f => [dst f.d f.w, src .A f.a f.w, src .B f.b f.w, src .C f.c 1]
  | .lea f => [dst f.d 2, src .A f.a 2, src .B f.b 1]
  | .leaRi f => [dst f.d 2, src .A f.a 2]
  | .sadd f => [dst f.d 1, src .A f.a 1, src .B f.b 1]
  | .saddRi f => [dst f.d 1, src .A f.a 1]
  | .afset f => [vrw .D f.d 1 1 false true, src .A f.a 1, src .B f.b 1]
  | .afsetRi f => [vrw .D f.d 1 1 false true, src .A f.a 1]
  | .aftest f => [dst f.d 1, vrw .A f.a f.w f.w true false]
  | .afclr f => [vrw .D f.d f.w f.w false true]
  | .fadd f => [dst f.d f.w, src .A f.a f.w, src .B f.b f.w]
  | .faddRi f => [dst f.d f.w, src .A f.a f.w]
  | .fsub f => [dst f.d f.w, src .A f.a f.w, src .B f.b f.w]
  | .fsubRi f => [dst f.d f.w, src .A f.a f.w]
  | .fmul f => [dst f.d f.w, src .A f.a f.w, src .B f.b f.w]
  | .fmulRi f => [dst f.d f.w, src .A f.a f.w]
  | .ffma f => [dst f.d f.w, src .A f.a f.w, src .B f.b f.w, src .C f.c f.w]
  | .fmin f => [dst f.d f.w, src .A f.a f.w, src .B f.b f.w]
  | .fminRi f => [dst f.d f.w, src .A f.a f.w]
  | .fmax f => [dst f.d f.w, src .A f.a f.w, src .B f.b f.w]
  | .fmaxRi f => [dst f.d f.w, src .A f.a f.w]
  | .fabs f => [dst f.d f.w, src .A f.a f.w]
  | .fneg f => [dst f.d f.w, src .A f.a f.w]
  | .fclamp f => [dst f.d f.w, src .A f.a f.w, src .B f.b f.w, src .C f.c f.w]
  | .fdiv f => [dst f.d f.w, src .A f.a f.w, src .B f.b f.w]
  | .fsqrt f => [dst f.d f.w, src .A f.a f.w]
  | .frcp f => [dst f.d f.w, src .A f.a f.w]
  | .frsq f => [dst f.d f.w, src .A f.a f.w]
  | .fex2 f => [dst f.d f.w, src .A f.a f.w]
  | .flg2 f => [dst f.d f.w, src .A f.a f.w]
  | .fsin f => [dst f.d f.w, src .A f.a f.w]
  | .fcos f => [dst f.d f.w, src .A f.a f.w]
  | .ftanh f => [dst f.d f.w, src .A f.a f.w]
  | .ffloor f => [dst f.d f.w, src .A f.a f.w]
  | .fceil f => [dst f.d f.w, src .A f.a f.w]
  | .ftrunc f => [dst f.d f.w, src .A f.a f.w]
  | .frint f => [dst f.d f.w, src .A f.a f.w]
  | .ffrac f => [dst f.d f.w, src .A f.a f.w]
  | .fcsgn f => [dst f.d f.w, src .A f.a f.w, src .B f.b f.w]
  | .fscale f => [dst f.d f.w, src .A f.a f.w, src .B f.b 1]
  | .fgetexp f => [dst f.d 1, src .A f.a f.w]
  | .fclass f => [dst f.d 1, src .A f.a f.w]
  | .fdot2 f => [dst f.d 1, src .A f.a 1, src .B f.b 1, src .C f.c 1]
  | .cvt f => [dst f.d f.dty.regs, src .A f.a f.sty.regs]
  | .fpack f => [dst f.d 1, src .A f.a 1, src .B f.b 1]
  | .fsplit f => [dst f.d 2, src .A f.a 1]
  | .cmp f => [dst f.d 1, src .A f.a f.w, src .B f.b f.w]
  | .cmpRi f => [dst f.d 1, src .A f.a f.w]
  | .cmpm f => [dst f.d 1, src .A f.a f.w, src .B f.b f.w]
  | .cmpmRi f => [dst f.d 1, src .A f.a f.w]
  | .lxch f => [dst f.d f.w, src .A f.a f.w, src .B f.b 1]
  | .lxchRi f => [dst f.d f.w, src .A f.a f.w]
  | .vote f => [dst f.d 1, src .A f.a 1]
  | .lred f => [dst f.d 1, src .A f.a 1]
  | .lscan f => [dst f.d 1, src .A f.a 1]
  | .lmatch f => [dst f.d 1, src .A f.a f.w]
  | .elect f => [dst f.d 1]
  | .rdlane f => [dst f.d f.w, src .A f.a f.w, src .B f.b 1]
  | .rdlaneRi f => [dst f.d f.w, src .A f.a f.w]
  | .wrlane f => [lane1 f.d f.w, src .A f.a f.w, src .B f.b 1]
  | .nop _ => []
  | .br _ => []
  | .brc f => [src .A f.a 1]
  | .brany f => [src .A f.a 1]
  | .brall f => [src .A f.a 1]
  | .jtab f => [src .A f.a 1, src .B f.b 2]
  | .call f => frame .A f.a f.fs
  | .callt f => [src .A f.a 1, src .B f.b 2] ++ frame .D f.d f.fs
  | .ret _ => []
  | .lpad _ => []
  | .baton f => [vrw .D f.d f.batonN 1 false true, vrng .A f.a f.batonN true false]
  | .fjoin _ => []
  | .exit _ => []
  | .trap _ => []
  | .brk _ => []
  | .sleep _ => []
  | .ld f => [src .A f.base 2] ++ idx f.x ++ [mdst f.d f.size.regs] ++ opt f.flag (flg f.flag)
  | .lds f => [src .A f.base 1] ++ idx f.x ++ [mdst f.d f.size.regs]
  | .ldc f => [src .A f.base 1] ++ idx f.x ++ [mdst f.d f.size.regs]
  | .st f => [src .A f.base 2] ++ idx f.x ++ [src .C f.d f.size.regs] ++ opt f.flag (flg f.flag)
  | .sts f => [src .A f.base 1] ++ idx f.x ++ [src .C f.d f.size.regs]
  | .stc f => [src .A f.base 1] ++ idx f.x ++ [src .C f.d f.size.regs]
  | .pf f => [src .A f.base 2] ++ idx f.x
  | .ldt f => [vrng .D f.d f.tnReg false true, vrng .A f.a f.tnCrd true false, vrw .B f.b 2 2 true false] ++ opt f.tFlag (flg f.tFlag)
  | .stt f => [vrng .D f.d f.tnReg true false, vrng .A f.a f.tnCrd true false, vrw .B f.b 2 2 true false] ++ opt f.tFlag (flg f.tFlag)
  | .atom f => [src .A f.base 2] ++ idx f.x ++ [mrw f.d f.size.regs f.size.regs]
  | .atoms f => [src .A f.base 1] ++ idx f.x ++ [mrw f.d f.size.regs f.size.regs]
  | .atomc f => [src .A f.base 1] ++ idx f.x ++ [mrw f.d f.size.regs f.size.regs]
  | .cas f => [src .A f.base 2] ++ idx f.x ++ [mrw f.d (2 * f.size.regs) (2 * f.size.regs)]
  | .cass f => [src .A f.base 1] ++ idx f.x ++ [mrw f.d (2 * f.size.regs) (2 * f.size.regs)]
  | .red f => [src .A f.base 2] ++ idx f.x ++ [src .C f.d f.size.regs]
  | .futld f => [src .A f.base 2] ++ idx f.x ++ [mdst f.d 2, flg f.flag]
  | .futst f => [src .A f.base 2] ++ idx f.x ++ [src .C f.d 2]
  | .futtry f => [src .A f.base 2] ++ idx f.x ++ [mdst f.d 2, flg f.flag]
  | .futclr f => [src .A f.base 2] ++ idx f.x
  | .sbind f => [dst f.d 1, src .A f.a 2, src .B f.b 2]
  | .sfree f => [src .B f.b 2]
  | .acq f => [src .A f.base 2] ++ opt f.d (mdst f.d 2)
  | .rel f => [src .A f.base 2] ++ opt f.d (src .C f.d 2)
  | .fence _ => []
  | .rcell f => [vrw .D f.d 1 1 false true, src .A f.a 2]
  | .rcfree f => [src .A f.a 2]
  | .rwb f => [src .A f.a 2, src .B f.b 1]
  | .rinv f => [src .A f.a 2, src .B f.b 1]
  | .resreq f => [src .A f.base 2] ++ idx f.x ++ [mdst f.d 1]
  | .icinv f => [src .A f.a 2, src .B f.b 1]
  | .phase _ => []
  | .qbind f => [vsp .A f.a]
  | .qfree _ => []
  | .qstat f => [vrw .D f.d 1 1 false true]
  | .barInit _ => []
  | .barArrive f => opt f.d (vrw .D f.d 1 1 false true)
  | .barWait f => [vsp .A f.a]
  | .barSync _ => []
  | .barExpect f => opt f.d (vrw .D f.d 1 1 false true) ++ [vsp .A f.a]
  | .barTest f => [vrw .D f.d 1 1 false true, vsp .A f.a]
  | .own f => [src .A f.a 1]
  | .waitc _ => []
  | .cpy f => opt f.d (vrw .D f.d 1 1 false true) ++ [vrw .A f.a 2 2 true false] ++ crd f.b f.nc
  | .cpys f => opt f.d (vrw .D f.d 1 1 false true) ++ [vrw .A f.a 2 2 true false] ++ crd f.b f.nc
  | .cpyd f => opt f.d (vrw .D f.d 1 1 false true) ++ [vrw .A f.a 2 2 true false] ++ crd f.b f.nc
  | .cpywp f => [src .A f.a 1]
  | .cpyx f => opt f.d (vrw .D f.d 1 1 false true)
  | .cpyst f => [vrw .D f.d 1 1 false true]
  | .mxgo f => [vrng .A f.a 16 true false]
  | .mxgrd f => [src .A f.a 1]
  | .mxrd f => [src .A f.a 1]
  | .mxwr f => [src .A f.a 1]
  | .mxclr _ => []
  | .mxst f => [vrng .A f.a 16 true false]
  | .mxovf f => [vrw .D f.d 1 1 false true]
  | .mxcan f => opt f.d (vrw .D f.d 1 1 false true)
  | .recld f => [vrng .D f.d f.nw false true] ++ opt f.a (vrw .A f.a 1 1 true false)
  | .emit f => [vrng .A f.a f.nw true false]
  | .emitn f => [vrng .A f.a f.nw true false, vrw .B f.b 1 1 true false]
  | .nend _ => []
  | .xzopen _ => []
  | .xzwait _ => []
  | .rngld f => [vrw .D f.d 2 2 false true]
  | .edgest f => [vrw .D f.d 1 1 false true]
  | .svdiv f => [vk .D f.d 1 false true, vk .A f.a 2 true false] ++ opt f.b (vk .B f.b 1 true false)
  | .rsdiv f => [vk .D f.d 1 false true, vk .A f.a 2 true false] ++ opt f.b (vk .B f.b 1 true false)
  | .qsave f => [vk .D f.d 1 false true, vk .A f.a 2 true false] ++ opt f.b (vk .B f.b 1 true false)
  | .qrest f => [vk .D f.d 1 false true, vk .A f.a 2 true false] ++ opt f.b (vk .B f.b 1 true false)
  | .bsave f => [vk .D f.d 1 false true, vk .A f.a 2 true false] ++ opt f.b (vk .B f.b 1 true false)
  | .brest f => [vk .D f.d 1 false true, vk .A f.a 2 true false] ++ opt f.b (vk .B f.b 1 true false)
  | .kmov f => kmv f ++ [vk .B f.b 1 true false]
  | .hret f => opt f.b (vk .B f.b 1 true false)
  | .srd f => [vk .D f.d 2 false true]
  | .swr f => [vk .A f.a 2 true false]
  | .winrd f => [vk .D f.d f.szN false true, vk .A f.a 1 true false] ++ opt f.b (vk .B f.b 1 true false)
  | .winwr f => [vk .D f.d f.szN true false, vk .A f.a 1 true false] ++ opt f.b (vk .B f.b 1 true false)
  | .tlbinv f => inv f
  | .l1inv f => inv f
  | .halt _ => []
  | .mcack _ => []
  | .watchCounterTick _ => []
  | .issueTurn _ _ _ => []
  | .resultProduce _ _ _ => []
  | .loadComplete _ _ _ _ => []
  | .storeComplete _ _ _ _ => []
  | .queuePush _ _ => []
  | .barrierDoneMsg _ _ _ => []
  | .sleepExpire _ _ _ _ => []
  | .futureAnswer _ _ => []
  | .waveEnd _ _ _ => []
  | .groupRelease _ _ _ => []
  | .tailEnd _ _ _ => []
  | .asyncStop _ _ _ _ => []
  | .trapPost _ _ _ => []
  | .copyChannelEnter _ _ _ => []
  | .copyRecordRead _ _ _ => []
  | .copyHeadStart _ _ _ => []
  | .copyLineDeliver _ _ _ => []
  | .copyStop _ _ _ => []
  | .mxQueueEnter _ _ => []
  | .mxItemStart _ _ => []
  | .mxQueueElement _ _ => []
  | .mxJobComplete _ _ => []
  | .mxResolution _ _ => []
  | .mxItemStop _ _ => []
  | .mxnodeRecord _ _ _ _ => []
  | .gatherFull _ _ _ => []
  | .inflowClose _ _ _ => []
  | .gatherLinger _ _ _ => []
  | .gatherSteal _ _ _ => []
  | .groupPlace _ _ _ => []
  | .launchComplete _ => []
  | .carveRetire _ => []
  | .rasterTriangle _ => []
  | .rasterPassEnd _ => []
  | .rayTake _ _ _ _ => []
  | .rayResult _ _ _ => []
  | .preemptRedirect _ _ _ => []
  | .restorePlace _ _ _ => []
  | .wavePromote _ _ _ => []
  | .fbFlush _ => []
  | .fbbaseWrite _ _ => []
  | .registerWrite _ _ _ => []
  | .bootVerify _ => []
  | .halfBringup _ _ => []
  | .stage3Entry _ => []
  | .gddrRetrain _ _ _ => []
  | .linkReplay _ _ _ => []
  | .lineFetch _ _ _ => []
  | .arbAgeing _ => []
  | .arbGrant _ _ => []
  | .queueEligible _ _ _ => []
  | .splitChange _ _ _ _ => []
  | .lrtailWrite _ => []
  | .lrbaseWrite _ => []
  | .launchKill _ _ _ => []
  | .preemptRequest _ => []
  | .shadowSwap _ => []
  | .shadowRestore _ => []
  | .redirectTimeout _ _ _ => []
  | .migrationOpen _ _ _ => []
  | .migrationClose _ => []
  | .bankToWarm _ _ => []
  | .bankCleanCold _ _ => []
  | .wakeRequest _ _ _ _ => []
  | .wakeWindow _ => []
  | .bankHot _ _ => []
  | .xdieTimeout _ => []
  | .xtmoWrite _ _ => []
  | .rayResumeWrite _ _ _ _ => []
  | .quoteGo _ => []
  | .protectedRootRequest _ => []
  | .vftWrite _ _ _ _ => []
  | .vfselWrite _ _ _ => []
  | .pmctlWrite _ _ => []
  | .railChangeDone _ => []
  | .pmStep _ => []
  | .wearUpdate _ => []
  | .telemetrySample _ => []
  | .stoppedClockEntry _ => []
  | .commandDieMemoryAccess _ _ _ _ _ => []
  | .managementWaveStart _ _ _ _ => []
  | .coldReset => []
  | .launchEntryConsume => []
  | .launchArrive => []
  | .quoteDone => []
  | .thermalTrip => []
  | .tripRecovery => []

/-- The fields of a slot instruction by format; `ev` for an event. -/
inductive View where
  | intR (f : IntR) | intI (f : IntI) | fltR (f : FltR) | fltI (f : FltI) | cvtR (f : CvtR) | cmpR (f : CmpR)
  | cmpI (f : CmpI) | plainR (f : PlainR) | plainI (f : PlainI) | mem (f : MemF) | br (f : BrF) | x (f : XF) | ev
  deriving DecidableEq, Repr

/-- The fields of an instruction. -/
def Instr.view : Instr → View
  | .add f => .intR f
  | .addRi f => .intI f
  | .sub f => .intR f
  | .subRi f => .intI f
  | .mul f => .intR f
  | .mulRi f => .intI f
  | .mulhi f => .intR f
  | .mad f => .intR f
  | .div f => .intR f
  | .divRi f => .intI f
  | .rem f => .intR f
  | .remRi f => .intI f
  | .neg f => .intR f
  | .abs f => .intR f
  | .min f => .intR f
  | .minRi f => .intI f
  | .max f => .intR f
  | .maxRi f => .intI f
  | .clamp f => .intR f
  | .addc f => .intR f
  | .subb f => .intR f
  | .sad f => .intR f
  | .dot4 f => .intR f
  | .and f => .intR f
  | .andRi f => .intI f
  | .or f => .intR f
  | .orRi f => .intI f
  | .xor f => .intR f
  | .xorRi f => .intI f
  | .not f => .intR f
  | .andn f => .intR f
  | .shl f => .intR f
  | .shlRi f => .intI f
  | .shr f => .intR f
  | .shrRi f => .intI f
  | .rot f => .intR f
  | .rotRi f => .intI f
  | .bfx f => .intR f
  | .bfxRi f => .intI f
  | .bfi f => .intR f
  | .bfiRi f => .intI f
  | .popc f => .intR f
  | .clz f => .intR f
  | .ctz f => .intR f
  | .brev f => .intR f
  | .bpick f => .intR f
  | .bpickRi f => .intI f
  | .bfn f => .intR f
  | .mov f => .intR f
  | .movRi f => .intI f
  | .sel f => .intR f
  | .lea f => .intR f
  | .leaRi f => .intI f
  | .sadd f => .intR f
  | .saddRi f => .intI f
  | .afset f => .intR f
  | .afsetRi f => .intI f
  | .aftest f => .intR f
  | .afclr f => .intR f
  | .fadd f => .fltR f
  | .faddRi f => .fltI f
  | .fsub f => .fltR f
  | .fsubRi f => .fltI f
  | .fmul f => .fltR f
  | .fmulRi f => .fltI f
  | .ffma f => .fltR f
  | .fmin f => .fltR f
  | .fminRi f => .fltI f
  | .fmax f => .fltR f
  | .fmaxRi f => .fltI f
  | .fabs f => .fltR f
  | .fneg f => .fltR f
  | .fclamp f => .fltR f
  | .fdiv f => .fltR f
  | .fsqrt f => .fltR f
  | .frcp f => .fltR f
  | .frsq f => .fltR f
  | .fex2 f => .fltR f
  | .flg2 f => .fltR f
  | .fsin f => .fltR f
  | .fcos f => .fltR f
  | .ftanh f => .fltR f
  | .ffloor f => .fltR f
  | .fceil f => .fltR f
  | .ftrunc f => .fltR f
  | .frint f => .fltR f
  | .ffrac f => .fltR f
  | .fcsgn f => .fltR f
  | .fscale f => .fltR f
  | .fgetexp f => .fltR f
  | .fclass f => .fltR f
  | .fdot2 f => .fltR f
  | .cvt f => .cvtR f
  | .fpack f => .cvtR f
  | .fsplit f => .cvtR f
  | .cmp f => .cmpR f
  | .cmpRi f => .cmpI f
  | .cmpm f => .cmpR f
  | .cmpmRi f => .cmpI f
  | .lxch f => .intR f
  | .lxchRi f => .intI f
  | .vote f => .intR f
  | .lred f => .intR f
  | .lscan f => .intR f
  | .lmatch f => .intR f
  | .elect f => .intR f
  | .rdlane f => .intR f
  | .rdlaneRi f => .intI f
  | .wrlane f => .intR f
  | .nop f => .plainR f
  | .br f => .br f
  | .brc f => .br f
  | .brany f => .br f
  | .brall f => .br f
  | .jtab f => .x f
  | .call f => .br f
  | .callt f => .x f
  | .ret f => .plainR f
  | .lpad f => .plainI f
  | .baton f => .plainI f
  | .fjoin f => .plainR f
  | .exit f => .plainR f
  | .trap f => .plainI f
  | .brk f => .plainI f
  | .sleep f => .plainI f
  | .ld f => .mem f
  | .lds f => .mem f
  | .ldc f => .mem f
  | .st f => .mem f
  | .sts f => .mem f
  | .stc f => .mem f
  | .pf f => .mem f
  | .ldt f => .x f
  | .stt f => .x f
  | .atom f => .mem f
  | .atoms f => .mem f
  | .atomc f => .mem f
  | .cas f => .mem f
  | .cass f => .mem f
  | .red f => .mem f
  | .futld f => .mem f
  | .futst f => .mem f
  | .futtry f => .mem f
  | .futclr f => .mem f
  | .sbind f => .x f
  | .sfree f => .x f
  | .acq f => .mem f
  | .rel f => .mem f
  | .fence f => .mem f
  | .rcell f => .x f
  | .rcfree f => .x f
  | .rwb f => .x f
  | .rinv f => .x f
  | .resreq f => .mem f
  | .icinv f => .x f
  | .phase f => .plainI f
  | .qbind f => .x f
  | .qfree f => .x f
  | .qstat f => .plainR f
  | .barInit f => .x f
  | .barArrive f => .x f
  | .barWait f => .x f
  | .barSync f => .x f
  | .barExpect f => .x f
  | .barTest f => .x f
  | .own f => .x f
  | .waitc f => .plainI f
  | .cpy f => .x f
  | .cpys f => .x f
  | .cpyd f => .x f
  | .cpywp f => .x f
  | .cpyx f => .x f
  | .cpyst f => .x f
  | .mxgo f => .x f
  | .mxgrd f => .x f
  | .mxrd f => .x f
  | .mxwr f => .x f
  | .mxclr f => .x f
  | .mxst f => .x f
  | .mxovf f => .x f
  | .mxcan f => .x f
  | .recld f => .x f
  | .emit f => .x f
  | .emitn f => .x f
  | .nend f => .x f
  | .xzopen f => .x f
  | .xzwait f => .x f
  | .rngld f => .x f
  | .edgest f => .x f
  | .svdiv f => .x f
  | .rsdiv f => .x f
  | .qsave f => .x f
  | .qrest f => .x f
  | .bsave f => .x f
  | .brest f => .x f
  | .kmov f => .x f
  | .hret f => .x f
  | .srd f => .x f
  | .swr f => .x f
  | .winrd f => .x f
  | .winwr f => .x f
  | .tlbinv f => .x f
  | .l1inv f => .x f
  | .halt f => .x f
  | .mcack f => .x f
  | .watchCounterTick _ => .ev
  | .issueTurn _ _ _ => .ev
  | .resultProduce _ _ _ => .ev
  | .loadComplete _ _ _ _ => .ev
  | .storeComplete _ _ _ _ => .ev
  | .queuePush _ _ => .ev
  | .barrierDoneMsg _ _ _ => .ev
  | .sleepExpire _ _ _ _ => .ev
  | .futureAnswer _ _ => .ev
  | .waveEnd _ _ _ => .ev
  | .groupRelease _ _ _ => .ev
  | .tailEnd _ _ _ => .ev
  | .asyncStop _ _ _ _ => .ev
  | .trapPost _ _ _ => .ev
  | .copyChannelEnter _ _ _ => .ev
  | .copyRecordRead _ _ _ => .ev
  | .copyHeadStart _ _ _ => .ev
  | .copyLineDeliver _ _ _ => .ev
  | .copyStop _ _ _ => .ev
  | .mxQueueEnter _ _ => .ev
  | .mxItemStart _ _ => .ev
  | .mxQueueElement _ _ => .ev
  | .mxJobComplete _ _ => .ev
  | .mxResolution _ _ => .ev
  | .mxItemStop _ _ => .ev
  | .mxnodeRecord _ _ _ _ => .ev
  | .gatherFull _ _ _ => .ev
  | .inflowClose _ _ _ => .ev
  | .gatherLinger _ _ _ => .ev
  | .gatherSteal _ _ _ => .ev
  | .groupPlace _ _ _ => .ev
  | .launchComplete _ => .ev
  | .carveRetire _ => .ev
  | .rasterTriangle _ => .ev
  | .rasterPassEnd _ => .ev
  | .rayTake _ _ _ _ => .ev
  | .rayResult _ _ _ => .ev
  | .preemptRedirect _ _ _ => .ev
  | .restorePlace _ _ _ => .ev
  | .wavePromote _ _ _ => .ev
  | .fbFlush _ => .ev
  | .fbbaseWrite _ _ => .ev
  | .registerWrite _ _ _ => .ev
  | .bootVerify _ => .ev
  | .halfBringup _ _ => .ev
  | .stage3Entry _ => .ev
  | .gddrRetrain _ _ _ => .ev
  | .linkReplay _ _ _ => .ev
  | .lineFetch _ _ _ => .ev
  | .arbAgeing _ => .ev
  | .arbGrant _ _ => .ev
  | .queueEligible _ _ _ => .ev
  | .splitChange _ _ _ _ => .ev
  | .lrtailWrite _ => .ev
  | .lrbaseWrite _ => .ev
  | .launchKill _ _ _ => .ev
  | .preemptRequest _ => .ev
  | .shadowSwap _ => .ev
  | .shadowRestore _ => .ev
  | .redirectTimeout _ _ _ => .ev
  | .migrationOpen _ _ _ => .ev
  | .migrationClose _ => .ev
  | .bankToWarm _ _ => .ev
  | .bankCleanCold _ _ => .ev
  | .wakeRequest _ _ _ _ => .ev
  | .wakeWindow _ => .ev
  | .bankHot _ _ => .ev
  | .xdieTimeout _ => .ev
  | .xtmoWrite _ _ => .ev
  | .rayResumeWrite _ _ _ _ => .ev
  | .quoteGo _ => .ev
  | .protectedRootRequest _ => .ev
  | .vftWrite _ _ _ _ => .ev
  | .vfselWrite _ _ _ => .ev
  | .pmctlWrite _ _ => .ev
  | .railChangeDone _ => .ev
  | .pmStep _ => .ev
  | .wearUpdate _ => .ev
  | .telemetrySample _ => .ev
  | .stoppedClockEntry _ => .ev
  | .commandDieMemoryAccess _ _ _ _ _ => .ev
  | .managementWaveStart _ _ _ _ => .ev
  | .coldReset => .ev
  | .launchEntryConsume => .ev
  | .launchArrive => .ev
  | .quoteDone => .ev
  | .thermalTrip => .ev
  | .tripRecovery => .ev

/-- The header of a slot instruction; an event has none. -/
def View.hdr? : View → Option Hdr
  | .intR f => some f.h | .intI f => some f.h | .fltR f => some f.h | .fltI f => some f.h | .cvtR f => some f.h
  | .cmpR f => some f.h | .cmpI f => some f.h | .plainR f => some f.h | .plainI f => some f.h | .mem f => some f.h
  | .br f => some f.h | .x f => some f.h | .ev => none

def Instr.hdr? (i : Instr) : Option Hdr := i.view.hdr?

/-- The operand fields of the format, each with the positions of `Use` that it serves. -/
def View.fields : View → List (List Fld × Opnd)
  | .intR f => [([.D], f.d), ([.A], f.a), ([.B], f.b), ([.C], f.c)]
  | .intI f => [([.D], f.d), ([.A], f.a)]
  | .fltR f => [([.D], f.d), ([.A], f.a), ([.B], f.b), ([.C], f.c)]
  | .fltI f => [([.D], f.d), ([.A], f.a)]
  | .cvtR f => [([.D], f.d), ([.A], f.a), ([.B], f.b), ([.C], f.c)]
  | .cmpR f => [([.D], f.d), ([.A], f.a), ([.B], f.b), ([.C], f.c)]
  | .cmpI f => [([.D], f.d), ([.A], f.a)]
  | .plainR f => [([.D], f.d), ([.A], f.a), ([.B], f.b), ([.C], f.c)]
  | .plainI f => [([.D], f.d), ([.A], f.a)]
  | .mem f => [([.D, .C], f.d), ([.A], f.base), ([.B], f.x), ([.FLAG], f.flag)]
  | .br f => [([.A], f.a)]
  | .x f => [([.D], f.d), ([.A], f.a), ([.B], f.b)]
  | .ev => []

/-- OP, bits 95:86 of a slot instruction (R58 to R65); an event has none. -/
def Instr.op? : Instr → Option Nat
  | .add _ => some 0x000
  | .addRi _ => some 0x040
  | .sub _ => some 0x001
  | .subRi _ => some 0x041
  | .mul _ => some 0x002
  | .mulRi _ => some 0x042
  | .mulhi _ => some 0x003
  | .mad _ => some 0x004
  | .div _ => some 0x005
  | .divRi _ => some 0x045
  | .rem _ => some 0x006
  | .remRi _ => some 0x046
  | .neg _ => some 0x007
  | .abs _ => some 0x008
  | .min _ => some 0x009
  | .minRi _ => some 0x049
  | .max _ => some 0x00A
  | .maxRi _ => some 0x04A
  | .clamp _ => some 0x00B
  | .addc _ => some 0x00C
  | .subb _ => some 0x00D
  | .sad _ => some 0x00E
  | .dot4 _ => some 0x00F
  | .and _ => some 0x010
  | .andRi _ => some 0x050
  | .or _ => some 0x011
  | .orRi _ => some 0x051
  | .xor _ => some 0x012
  | .xorRi _ => some 0x052
  | .not _ => some 0x013
  | .andn _ => some 0x014
  | .shl _ => some 0x015
  | .shlRi _ => some 0x055
  | .shr _ => some 0x016
  | .shrRi _ => some 0x056
  | .rot _ => some 0x017
  | .rotRi _ => some 0x057
  | .bfx _ => some 0x018
  | .bfxRi _ => some 0x058
  | .bfi _ => some 0x019
  | .bfiRi _ => some 0x059
  | .popc _ => some 0x01A
  | .clz _ => some 0x01B
  | .ctz _ => some 0x01C
  | .brev _ => some 0x01D
  | .bpick _ => some 0x01E
  | .bpickRi _ => some 0x05E
  | .bfn _ => some 0x01F
  | .mov _ => some 0x020
  | .movRi _ => some 0x060
  | .sel _ => some 0x021
  | .lea _ => some 0x022
  | .leaRi _ => some 0x062
  | .sadd _ => some 0x023
  | .saddRi _ => some 0x063
  | .afset _ => some 0x028
  | .afsetRi _ => some 0x068
  | .aftest _ => some 0x029
  | .afclr _ => some 0x02A
  | .fadd _ => some 0x080
  | .faddRi _ => some 0x0C0
  | .fsub _ => some 0x081
  | .fsubRi _ => some 0x0C1
  | .fmul _ => some 0x082
  | .fmulRi _ => some 0x0C2
  | .ffma _ => some 0x083
  | .fmin _ => some 0x084
  | .fminRi _ => some 0x0C4
  | .fmax _ => some 0x085
  | .fmaxRi _ => some 0x0C5
  | .fabs _ => some 0x086
  | .fneg _ => some 0x087
  | .fclamp _ => some 0x088
  | .fdiv _ => some 0x089
  | .fsqrt _ => some 0x08A
  | .frcp _ => some 0x08B
  | .frsq _ => some 0x08C
  | .fex2 _ => some 0x08D
  | .flg2 _ => some 0x08E
  | .fsin _ => some 0x08F
  | .fcos _ => some 0x090
  | .ftanh _ => some 0x091
  | .ffloor _ => some 0x092
  | .fceil _ => some 0x093
  | .ftrunc _ => some 0x094
  | .frint _ => some 0x095
  | .ffrac _ => some 0x096
  | .fcsgn _ => some 0x097
  | .fscale _ => some 0x098
  | .fgetexp _ => some 0x099
  | .fclass _ => some 0x09A
  | .fdot2 _ => some 0x09B
  | .cvt _ => some 0x100
  | .fpack _ => some 0x101
  | .fsplit _ => some 0x102
  | .cmp _ => some 0x110
  | .cmpRi _ => some 0x150
  | .cmpm _ => some 0x111
  | .cmpmRi _ => some 0x151
  | .lxch _ => some 0x120
  | .lxchRi _ => some 0x160
  | .vote _ => some 0x121
  | .lred _ => some 0x122
  | .lscan _ => some 0x123
  | .lmatch _ => some 0x124
  | .elect _ => some 0x125
  | .rdlane _ => some 0x126
  | .rdlaneRi _ => some 0x166
  | .wrlane _ => some 0x127
  | .nop _ => some 0x180
  | .br _ => some 0x181
  | .brc _ => some 0x182
  | .brany _ => some 0x183
  | .brall _ => some 0x184
  | .jtab _ => some 0x185
  | .call _ => some 0x186
  | .callt _ => some 0x187
  | .ret _ => some 0x188
  | .lpad _ => some 0x189
  | .baton _ => some 0x18A
  | .fjoin _ => some 0x18B
  | .exit _ => some 0x18C
  | .trap _ => some 0x18D
  | .brk _ => some 0x18E
  | .sleep _ => some 0x18F
  | .ld _ => some 0x200
  | .lds _ => some 0x202
  | .ldc _ => some 0x204
  | .st _ => some 0x201
  | .sts _ => some 0x203
  | .stc _ => some 0x205
  | .pf _ => some 0x206
  | .ldt _ => some 0x207
  | .stt _ => some 0x208
  | .atom _ => some 0x210
  | .atoms _ => some 0x213
  | .atomc _ => some 0x215
  | .cas _ => some 0x211
  | .cass _ => some 0x214
  | .red _ => some 0x212
  | .futld _ => some 0x218
  | .futst _ => some 0x219
  | .futtry _ => some 0x21A
  | .futclr _ => some 0x21B
  | .sbind _ => some 0x220
  | .sfree _ => some 0x221
  | .acq _ => some 0x222
  | .rel _ => some 0x223
  | .fence _ => some 0x224
  | .rcell _ => some 0x228
  | .rcfree _ => some 0x229
  | .rwb _ => some 0x230
  | .rinv _ => some 0x231
  | .resreq _ => some 0x232
  | .icinv _ => some 0x233
  | .phase _ => some 0x234
  | .qbind _ => some 0x280
  | .qfree _ => some 0x281
  | .qstat _ => some 0x282
  | .barInit _ => some 0x288
  | .barArrive _ => some 0x289
  | .barWait _ => some 0x28A
  | .barSync _ => some 0x28B
  | .barExpect _ => some 0x28C
  | .barTest _ => some 0x28D
  | .own _ => some 0x290
  | .waitc _ => some 0x291
  | .cpy _ => some 0x300
  | .cpys _ => some 0x301
  | .cpyd _ => some 0x302
  | .cpywp _ => some 0x303
  | .cpyx _ => some 0x304
  | .cpyst _ => some 0x305
  | .mxgo _ => some 0x310
  | .mxgrd _ => some 0x311
  | .mxrd _ => some 0x312
  | .mxwr _ => some 0x313
  | .mxclr _ => some 0x314
  | .mxst _ => some 0x315
  | .mxovf _ => some 0x316
  | .mxcan _ => some 0x317
  | .recld _ => some 0x320
  | .emit _ => some 0x321
  | .emitn _ => some 0x322
  | .nend _ => some 0x323
  | .xzopen _ => some 0x324
  | .xzwait _ => some 0x325
  | .rngld _ => some 0x326
  | .edgest _ => some 0x327
  | .svdiv _ => some 0x380
  | .rsdiv _ => some 0x381
  | .qsave _ => some 0x382
  | .qrest _ => some 0x383
  | .bsave _ => some 0x384
  | .brest _ => some 0x385
  | .kmov _ => some 0x386
  | .hret _ => some 0x387
  | .srd _ => some 0x388
  | .swr _ => some 0x389
  | .winrd _ => some 0x38A
  | .winwr _ => some 0x38B
  | .tlbinv _ => some 0x38C
  | .l1inv _ => some 0x38D
  | .halt _ => some 0x38E
  | .mcack _ => some 0x38F
  | .watchCounterTick _ => none
  | .issueTurn _ _ _ => none
  | .resultProduce _ _ _ => none
  | .loadComplete _ _ _ _ => none
  | .storeComplete _ _ _ _ => none
  | .queuePush _ _ => none
  | .barrierDoneMsg _ _ _ => none
  | .sleepExpire _ _ _ _ => none
  | .futureAnswer _ _ => none
  | .waveEnd _ _ _ => none
  | .groupRelease _ _ _ => none
  | .tailEnd _ _ _ => none
  | .asyncStop _ _ _ _ => none
  | .trapPost _ _ _ => none
  | .copyChannelEnter _ _ _ => none
  | .copyRecordRead _ _ _ => none
  | .copyHeadStart _ _ _ => none
  | .copyLineDeliver _ _ _ => none
  | .copyStop _ _ _ => none
  | .mxQueueEnter _ _ => none
  | .mxItemStart _ _ => none
  | .mxQueueElement _ _ => none
  | .mxJobComplete _ _ => none
  | .mxResolution _ _ => none
  | .mxItemStop _ _ => none
  | .mxnodeRecord _ _ _ _ => none
  | .gatherFull _ _ _ => none
  | .inflowClose _ _ _ => none
  | .gatherLinger _ _ _ => none
  | .gatherSteal _ _ _ => none
  | .groupPlace _ _ _ => none
  | .launchComplete _ => none
  | .carveRetire _ => none
  | .rasterTriangle _ => none
  | .rasterPassEnd _ => none
  | .rayTake _ _ _ _ => none
  | .rayResult _ _ _ => none
  | .preemptRedirect _ _ _ => none
  | .restorePlace _ _ _ => none
  | .wavePromote _ _ _ => none
  | .fbFlush _ => none
  | .fbbaseWrite _ _ => none
  | .registerWrite _ _ _ => none
  | .bootVerify _ => none
  | .halfBringup _ _ => none
  | .stage3Entry _ => none
  | .gddrRetrain _ _ _ => none
  | .linkReplay _ _ _ => none
  | .lineFetch _ _ _ => none
  | .arbAgeing _ => none
  | .arbGrant _ _ => none
  | .queueEligible _ _ _ => none
  | .splitChange _ _ _ _ => none
  | .lrtailWrite _ => none
  | .lrbaseWrite _ => none
  | .launchKill _ _ _ => none
  | .preemptRequest _ => none
  | .shadowSwap _ => none
  | .shadowRestore _ => none
  | .redirectTimeout _ _ _ => none
  | .migrationOpen _ _ _ => none
  | .migrationClose _ => none
  | .bankToWarm _ _ => none
  | .bankCleanCold _ _ => none
  | .wakeRequest _ _ _ _ => none
  | .wakeWindow _ => none
  | .bankHot _ _ => none
  | .xdieTimeout _ => none
  | .xtmoWrite _ _ => none
  | .rayResumeWrite _ _ _ _ => none
  | .quoteGo _ => none
  | .protectedRootRequest _ => none
  | .vftWrite _ _ _ _ => none
  | .vfselWrite _ _ _ => none
  | .pmctlWrite _ _ => none
  | .railChangeDone _ => none
  | .pmStep _ => none
  | .wearUpdate _ => none
  | .telemetrySample _ => none
  | .stoppedClockEntry _ => none
  | .commandDieMemoryAccess _ _ _ _ _ => none
  | .managementWaveStart _ _ _ _ => none
  | .coldReset => none
  | .launchEntryConsume => none
  | .launchArrive => none
  | .quoteDone => none
  | .thermalTrip => none
  | .tripRecovery => none

/-- The operands of an instruction, its guard first (R41). -/
def Instr.uses (i : Instr) : List Use :=
  match i.hdr? with
  | some h => Use.opt h.g ⟨.G, h.g, 1, 1, .guard, true, false, false⟩ ++ i.operands
  | none => []

end Sys2Proof
end

