-- ==== Sys2Proof/WellFormed.lean ====
section
/-!
DEFINITION. WellFormed.lean: which terms are instructions. A slot whose fields break one of these checks raises
`ILL_OP` (R41, R42, R44, R51 to R56 and the entries of the instructions). For an event, the unit it names exists.
-/
namespace Sys2Proof

/-- R44: every field in use holds an operand code other than 511, every other operand field holds 511. -/
def Instr.fieldsOk (i : Instr) : Bool :=
  i.uses.all (fun u => u.o ≠ .none && u.o.canon) &&
  i.view.fields.all (fun p => p.2.canon && (p.2 = .none || i.uses.any (fun u => p.1.contains u.fld)))

/-- R41: GN is 0 when G is 511. -/
def Hdr.guardOk (h : Hdr) : Bool := h.g ≠ .none || !h.gn

/-- R42. -/
def Instr.holdOk (i : Instr) : Bool :=
  match i.hdr? with
  | none => true
  | some h =>
    match h.sel with
    | .none => h.ent = 0
    | .A => holdField h .A
    | .B => holdField h .B
    | .C => holdField h .C
where
  holdField (h : Hdr) (f : Fld) : Bool :=
    decide (h.ent < 3) && i.operands.any (fun u => u.fld = f && u.hold &&
      (match u.o with | .h _ => false | .none => false | _ => true))

/-- HOLD must be 0 where the entry requires it. -/
def Hdr.noHold (h : Hdr) : Bool := h.sel = .none && h.ent = 0

/-! ## MOD, ENG, SIZE, SCOPE, FLAGS and IMM32 -/

/-- The value has no bit outside the n low bits. -/
def lowBits (x n : Nat) : Bool := x < 2 ^ n

def tyAny : List Ty := [.b32, .s32, .n32, .b64, .s64, .n64]
def tySN : List Ty := [.s32, .n32, .s64, .n64]
def tyB : List Ty := [.b32, .b64]
def tyAll : List Ty := [.f32, .f64, .f16, .bf16, .f16x2, .bf16x2]
def tyF4 : List Ty := [.f32, .f64, .f16, .bf16]
def tyTr : List Ty := [.f32, .f16, .f16x2]

def Ty.isB : Ty → Bool
  | .b32 | .b64 => true
  | _ => false

/-- R104: SAT and WIDE of the integer arithmetic. -/
def satWide (ty : Ty) (sub : BitVec 8) (sat wide : Bool) : Bool :=
  lowBits sub.toNat 2 && (sat || !sub.getLsbD 0) && (wide || !sub.getLsbD 1) &&
  !(sub.getLsbD 0 && ty.isB) && !(sub.getLsbD 1 && ty.regs == 2) && !(sub.getLsbD 0 && sub.getLsbD 1)

def IntR.plain (f : IntR) (ts : List Ty) : Bool := ts.contains f.ty && f.sub == 0
def IntI.plain (f : IntI) (ts : List Ty) : Bool := ts.contains f.ty && f.sub == 0

/-- R153: OPN and its type. -/
def opnOk (ty : Ty) (opn : Nat) (flt : Bool) : Bool :=
  if opn ≤ 2 then ty = .s32 || ty = .n32 || (flt && ty = .f32) else decide (opn ≤ 5) && ty = .b32

/-- R133: which of RND, FTZ and SAT a float instruction takes. -/
def FltR.mods (f : FltR) (ts : List Ty) (r z s : Bool) : Bool :=
  ts.contains f.ty && (r || f.rnd = .dflt) && (z || !f.ftz) && (s || !f.sat)

def FltI.mods (f : FltI) (ts : List Ty) (r z s : Bool) : Bool :=
  ts.contains f.ty && (r || f.rnd = .dflt) && (z || !f.ftz) && (s || !f.sat) &&
  ((f.ty ≠ .f16 && f.ty ≠ .bf16) || lowBits f.imm.toNat 16)

/-- R118, R147. -/
def cmpOk (ty : Ty) (c : Cond) (ftz : Bool) : Bool :=
  if ty.isFloat then true
  else !ftz && (if tySN.contains ty then decide (c.code ≤ 5) else ty.isB && decide (c.code ≤ 1))

/-- R148: the conversion is exact, so RND must be 000. -/
def cvtExact (s d : Ty) : Bool :=
  match s, d with
  | .f16, .f32 | .f16, .f64 | .bf16, .f32 | .bf16, .f64 | .f32, .f64 => true
  | _, _ => false

/-- R148. -/
def cvtOk (f : CvtR) : Bool :=
  let sI := f.sty.isInt; let dI := f.dty.isInt; let sF := f.sty.isFloat; let dF := f.dty.isFloat
  f.sty ≠ f.dty && (sI || sF) && (dI || dF) &&
  (if sI && dI then f.rnd = .dflt else if sF && dF && cvtExact f.sty f.dty then f.rnd = .dflt else true)

/-- R229: KIND and AOP that name an operation. -/
def aopOk (kind aop : Nat) (red : Bool) : Bool :=
  match kind with
  | 0 => (decide (3 ≤ aop) && decide (aop ≤ 5)) || (aop == 6 && !red)
  | 1 => decide (aop ≤ 2)
  | 2 => decide (aop ≤ 2) || aop == 7 || aop == 8
  | _ => decide (aop ≤ 2)

def MSize.storable : MSize → Bool
  | .s8 | .s16 => false
  | _ => true

/-- R219: FLAGS 5:0 hold XSH and XSG alone. -/
def MemF.plainAddr (f : MemF) : Bool := f.scope = .lane && bits f.flags.toNat 5 4 == 0
/-- R219, R229: an atomic of the given scopes. -/
def MemF.atomOk (f : MemF) (hi : Nat) (red : Bool) : Bool :=
  (f.size = .b32 || f.size = .b64) && decide (1 ≤ f.scope.code) && decide (f.scope.code ≤ hi) && aopOk f.kind f.aop red
def MemF.casOk (f : MemF) (hi : Nat) : Bool :=
  (f.size = .b32 || f.size = .b64) && decide (1 ≤ f.scope.code) && decide (f.scope.code ≤ hi) && bits f.flags.toNat 5 0 == 0
/-- R219: a future instruction. -/
def MemF.futOk (f : MemF) : Bool :=
  f.size = .b64 && decide (4 ≤ f.scope.code) && decide (f.scope.code ≤ 6) && bits f.flags.toNat 5 0 == 0
/-- R55: scopes 1 to 6 with no FLAGS, or the observer mask. -/
def MemF.orderOk (f : MemF) : Bool :=
  f.scope ≠ .lane && (if f.scope = .obs then bits f.flags.toNat 5 0 ≠ 0 else bits f.flags.toNat 5 0 == 0)

def PlainR.bare (f : PlainR) : Bool := f.mod == 0
def PlainI.bare (f : PlainI) (n : Nat) : Bool := f.mod == 0 && lowBits f.imm.toNat n
def XF.engLow (f : XF) (n : Nat) : Bool := lowBits f.eng.toNat n
/-- ENG bits below lo are 0. -/
def XF.engHigh (f : XF) (lo : Nat) : Bool := f.eng.toNat % 2 ^ lo == 0
/-- R211. -/
def XF.barOk (f : XF) (init expect : Bool) : Bool :=
  f.h.noHold && f.engHigh 23 && (if init then f.count ≠ 0 else f.count == 0) && (expect || !f.arv)
/-- R290. -/
def XF.cpyOk (f : XF) : Bool :=
  f.h.noHold && f.engHigh 26 && ((f.nc == 0) == (f.b = .none)) && (!f.cClu || f.barv) && (f.gslot == 0 || f.gv)
/-- R261. -/
def XF.sysOk (f : XF) (n : Nat) : Bool := f.h.noHold && f.engLow n

/-- The limits of the entry on the fields that are not operand codes. -/
def Instr.modOk : Instr → Bool
  | .add f | .sub f => tyAny.contains f.ty && satWide f.ty f.sub true false
  | .addRi f | .subRi f => tyAny.contains f.ty && satWide f.ty f.sub true false
  | .mul f | .mad f => tyAny.contains f.ty && satWide f.ty f.sub true true
  | .mulRi f => tyAny.contains f.ty && satWide f.ty f.sub true true
  | .div f => tySN.contains f.ty && satWide f.ty f.sub f.ty.signed false
  | .divRi f => tySN.contains f.ty && satWide f.ty f.sub f.ty.signed false
  | .mulhi f | .rem f | .min f | .max f | .clamp f => f.plain tySN
  | .remRi f | .minRi f | .maxRi f => f.plain tySN
  | .neg f | .abs f => [.s32, .s64].contains f.ty && satWide f.ty f.sub true false
  | .addc f | .subb f => f.plain [.n32]
  | .sad f => f.plain [.n8, .s8, .n16, .s16]
  | .dot4 f => [.s8, .n8].contains f.ty && lowBits f.sub.toNat 1
  | .and f | .or f | .xor f | .not f | .andn f | .shl f | .rot f | .popc f | .clz f | .ctz f | .brev f => f.plain tyB
  | .andRi f | .orRi f | .xorRi f => f.plain tyB
  | .shlRi f | .rotRi f => f.plain tyB && lowBits f.imm.toNat 8
  | .shr f => f.plain tySN
  | .shrRi f => f.plain tySN && lowBits f.imm.toNat 8
  | .bfx f => f.plain [.n32, .s32]
  | .bfxRi f => f.plain [.n32, .s32] && lowBits f.imm.toNat 16
  | .bfi f | .bpick f => f.plain [.b32]
  | .bfiRi f => f.plain [.b32] && lowBits f.imm.toNat 16
  | .bpickRi f => f.plain [.b32] && lowBits f.imm.toNat 20
  | .bfn f => tyB.contains f.ty
  | .mov f | .sel f => f.plain tyB
  | .movRi f => tyB.contains f.ty && decide (f.sub.toNat ≤ 2) && (f.sub == 0 || f.ty = .b64)
  | .lea f => [.n32, .s32].contains f.ty && lowBits f.sub.toNat 5
  | .leaRi f => [.n32, .s32].contains f.ty && lowBits f.sub.toNat 5
  | .sadd f => [.n32, .b32].contains f.ty && lowBits f.sub.toNat 5
  | .saddRi f => [.n32, .b32].contains f.ty && lowBits f.sub.toNat 5
  | .afset f => f.plain [.n32, .b32]
  | .afsetRi f => f.plain [.n32, .b32]
  | .aftest f | .afclr f => f.plain tyB
  | .fadd f | .fsub f | .fmul f | .ffma f => f.mods tyAll true true true
  | .faddRi f | .fsubRi f | .fmulRi f => f.mods tyAll true true true
  | .fmin f | .fmax f | .fclamp f => f.mods tyAll false true false
  | .fminRi f | .fmaxRi f => f.mods tyAll false true false
  | .fabs f | .fneg f | .fcsgn f => f.mods tyAll false false false
  | .fdiv f | .frcp f => f.mods [.f32, .f64] true true true
  | .fsqrt f => f.mods [.f32, .f64, .f16, .f16x2] true true true
  | .frsq f => f.mods [.f32, .f64] false true false
  | .fex2 f => f.mods tyTr true true true
  | .flg2 f => f.mods tyTr true true false
  | .fsin f | .fcos f => f.mods tyTr false true false
  | .ftanh f => f.mods [.f32, .f16, .bf16, .f16x2, .bf16x2] false true true
  | .ffloor f | .fceil f | .ftrunc f => f.mods tyAll false true false
  | .frint f => f.mods tyAll true true false
  | .ffrac f => f.mods tyF4 false true false
  | .fscale f => f.mods tyF4 true true true
  | .fgetexp f => f.mods tyF4 false true false
  | .fclass f => f.mods tyF4 false false false
  | .fdot2 f => f.mods [.f16x2, .bf16x2] true true true
  | .cvt f => cvtOk f
  | .fpack f => f.sty = .f32 && (f.dty = .f16x2 || f.dty = .bf16x2)
  | .fsplit f => (f.sty = .f16x2 || f.sty = .bf16x2) && f.dty = .f32 && f.rnd = .dflt && !f.sat
  | .cmp f | .cmpm f => cmpOk f.ty f.cond f.ftz
  | .cmpRi f | .cmpmRi f => cmpOk f.ty f.cond f.ftz && ((f.ty ≠ .f16 && f.ty ≠ .bf16) || lowBits f.imm.toNat 16)
  | .lxch f => tyB.contains f.ty && lowBits f.sub.toNat 2
  | .lxchRi f => tyB.contains f.ty && lowBits f.sub.toNat 2 &&
      (if f.sub.toNat = 1 then decide (-31 ≤ f.imm.toInt) && decide (f.imm.toInt ≤ 31) else lowBits f.imm.toNat 5)
  | .vote f => f.ty = .b32 && lowBits f.sub.toNat 2
  | .lred f => lowBits f.sub.toNat 3 && opnOk f.ty f.sub.toNat true
  | .lscan f => lowBits f.sub.toNat 4 && opnOk f.ty (f.sub.toNat % 8) false
  | .lmatch f | .rdlane f | .wrlane f => f.plain tyB
  | .elect f => f.plain [.b32]
  | .rdlaneRi f => f.plain tyB && lowBits f.imm.toNat 5
  | .nop f | .ret f | .fjoin f | .exit f => f.bare
  | .br f => f.join == 0 && f.mod == 0
  | .brc f => lowBits f.mod.toNat 1
  | .brany f | .brall f => f.join == 0 && lowBits f.mod.toNat 1
  | .jtab f => f.bound ≠ 0
  | .call f => f.join == 0 && lowBits f.mod.toNat 9 && decide (f.fs ≤ 384) && ((f.fs == 0) == (f.a = .none))
  | .callt f => f.engHigh 9 && f.bound ≠ 0 && decide (f.fs ≤ 384) && ((f.fs == 0) == (f.d = .none))
  | .lpad f | .trap f | .brk f | .sleep f => f.bare 16
  | .baton f => f.bare 9 && f.imm ≠ 0
  | .ld f | .lds f | .ldc f => f.plainAddr
  | .st f | .sts f | .stc f => f.plainAddr && f.size.storable
  | .pf f | .resreq f => f.plainAddr && f.size = .n8
  | .ldt f | .stt f => f.h.noHold && f.tnCrd ≠ 0 && f.tnEsz ≠ 3 && f.engHigh 27
  | .atom f => f.atomOk 6 false
  | .red f => f.atomOk 6 true
  | .atoms f => f.atomOk 2 false
  | .atomc f => f.atomOk 3 false
  | .cas f => f.casOk 6
  | .cass f => f.casOk 2
  | .futld f | .futst f | .futtry f | .futclr f => f.futOk
  | .acq f | .rel f => f.size = .b64 && f.orderOk
  | .fence f => f.size = .n8 && f.orderOk && decide (1 ≤ f.off.toNat) && decide (f.off.toNat ≤ 3)
  | .sbind f => f.engHigh 21 && f.len ≠ 0
  | .sfree f | .rcell f | .rcfree f | .rwb f | .rinv f | .icinv f => f.eng == 0
  | .phase f => f.bare 3
  | .waitc f => f.bare 24
  | .qbind f => f.h.noHold && f.engHigh 23 && decide (32 ≤ f.qDepth) && decide (f.qDepth ≤ 4096) && f.qDir ≠ 3 &&
      f.qRole ≠ 0 && (f.qDir ≠ 1 || f.qRole == 1) && (f.qDir ≠ 2 || f.qRole == 2)
  | .qfree f => f.h.noHold && f.engHigh 40
  | .qstat f => f.h.noHold && lowBits f.mod.toNat 5
  | .barInit f => f.barOk true false
  | .barArrive f | .barWait f | .barSync f | .barTest f => f.barOk false false
  | .barExpect f => f.barOk false true && (f.arv || f.d = .none)
  | .own f => f.h.noHold && f.e 43 10 == 0 && decide (1 ≤ f.ownN) && decide (f.ownN ≤ 832)
  | .cpy f | .cpys f | .cpyd f => f.cpyOk
  | .cpywp f | .cpyx f => f.h.noHold && f.engHigh 43
  | .cpyst f => f.h.noHold && f.e 42 1 == 0
  | .mxgo f | .mxst f | .mxcan f => f.sysOk 0
  | .mxgrd f => f.sysOk 3
  | .mxrd f | .mxclr f | .mxovf f => f.sysOk 1
  | .mxwr f => f.sysOk 6 && (f.e 1 1 == 0 || f.e 0 0 == 1) && (f.e 4 2 == 0 || f.e 1 1 == 1)
  | .recld f | .emitn f => f.sysOk 5
  | .emit f => f.sysOk 8
  | .nend f | .xzopen f | .xzwait f | .rngld f => f.sysOk 0
  | .edgest f => f.sysOk 3
  | .svdiv f | .rsdiv f => f.sysOk 0
  | .qsave f | .qrest f => f.sysOk 5
  | .bsave f | .brest f => f.sysOk 8
  | .kmov f => f.sysOk 4
  | .hret f | .winrd f | .winwr f | .tlbinv f | .l1inv f => f.sysOk 1
  | .srd f | .swr f => f.sysOk 16
  | .halt f | .mcack f => f.sysOk 0
  | .fbFlush die | .fbbaseWrite die _ | .xtmoWrite die _ | .rasterTriangle die | .rasterPassEnd die
  | .watchCounterTick die | .stoppedClockEntry die | .wakeWindow die => decide (die < 2)
  | .futureAnswer die sl => decide (die < 2) && decide (sl < 32)
  | .bankToWarm die b | .bankCleanCold die b | .bankHot die b => decide (die < 2) && decide (b < 512)
  | .wakeRequest die b _ _ => decide (die < 2) && decide (b < 512)
  | .issueTurn die core q => unitOk die core && decide (q < 4)
  | .lineFetch die core w | .wavePromote die core w | .resultProduce die core w | .queueEligible die core w
  | .waveEnd die core w | .asyncStop die core w _ | .trapPost die core w | .preemptRedirect die core w
  | .redirectTimeout die core w => unitOk die core && decide (w < 64)
  | .loadComplete die core w _ | .storeComplete die core w _ => unitOk die core && decide (w < 64)
  | .sleepExpire die core w c => unitOk die core && decide (w < 64) && (decide (c < 32) || c == 63)
  | .queuePush die core | .mxQueueEnter die core | .mxItemStart die core | .mxQueueElement die core
  | .mxJobComplete die core | .mxResolution die core | .mxItemStop die core => unitOk die core
  | .barrierDoneMsg die core b => unitOk die core && decide (b < 256)
  | .groupRelease die core _ => unitOk die core
  | .tailEnd die core t => unitOk die core && decide (t < 32)
  | .splitChange die core _ _ => unitOk die core
  | .copyChannelEnter die core ch | .copyRecordRead die core ch | .copyHeadStart die core ch
  | .copyLineDeliver die core ch | .copyStop die core ch => unitOk die core && decide (ch < 4)
  | .mxnodeRecord die u _ _ => decide (die < 2) && decide (u < 96)
  | .gatherFull die _ _ | .inflowClose die _ _ | .gatherLinger die _ _ | .gatherSteal die _ _ | .groupPlace die _ _
  | .restorePlace die _ _ => decide (die < 2)
  | .rayTake die u _ _ | .rayResult die u _ | .rayResumeWrite die u _ _ => decide (die < 2) && decide (u < 12)
  | .vftWrite _ r e _ => decide (r < 4) && decide (e < 16)
  | .vfselWrite _ r _ | .railChangeDone r | .wearUpdate r => decide (r < 4)
  | .gddrRetrain half ch _ => decide (half < 2) && decide (ch < 32)
  | .linkReplay _ half ch => decide (half < 2) && decide (ch < 32)
  | .managementWaveStart die m pc regs => decide (die < 2) && decide (m < 3) && decide (pc < 2 ^ 57) && decide (regs ≤ 384)
  | .registerWrite _ _ _ | .coldReset | .bootVerify _ | .halfBringup _ _ | .stage3Entry _ | .arbAgeing _ | .arbGrant _ _
  | .launchEntryConsume | .lrtailWrite _ | .lrbaseWrite _ | .launchArrive | .launchComplete _ | .launchKill _ _ _
  | .preemptRequest _ | .shadowSwap _ | .shadowRestore _ | .carveRetire _ | .migrationOpen _ _ _ | .migrationClose _
  | .xdieTimeout _ | .quoteGo _ | .quoteDone | .protectedRootRequest _ | .pmctlWrite _ _ | .pmStep _ | .thermalTrip
  | .tripRecovery | .telemetrySample _ | .commandDieMemoryAccess _ _ _ _ _ => true
where
  /-- Cores 0 to 95 of a die, then its management cores as 96 to 98. -/
  unitOk (die core : Nat) : Bool := decide (die < 2) && decide (core < 99)

/-- The term is an instruction: no check of R68 step 4 fails. -/
def Instr.wf (i : Instr) : Bool :=
  i.fieldsOk && (match i.hdr? with | some h => h.guardOk && h.g.canon | none => true) && i.holdOk && i.modOk

end Sys2Proof
end

