-- ==== Sys2Proof/Machine/State.lean ====
section
/-!
DEFINITION. Machine/State.lean: the state of the BX7260 as plain data, the reasons a step can stop, and the state
after reset. Waves, cores, tails and dies are held by number; an unlisted one holds its reset value.
-/
namespace Sys2Proof.Machine

/-- Why the machine stops with a fault. -/
inductive Fault where
  /-- `exec` of a slot instruction while no running wave context is chosen. Raised by the issue of every slot
  instruction; `step` never meets it, because it executes a slot only for a chosen running context. Safe. -/
  | noContext
  deriving DecidableEq, Repr

/-- Why the machine gives no meaning. -/
inductive Refusal where
  /-- An instruction that has no meaning in this model yet. Safe. -/
  | notModelled (mnemonic : String)
  deriving DecidableEq, Repr

/-- A wave context: die, core (0 to 95 the shader cores, 96 to 98 the management cores), wave slot, and 63 for the
main context or a tail slot (R253). -/
structure Sel where
  die : Nat
  core : Nat
  wave : Nat
  ctx : Nat
  deriving DecidableEq, Repr

/-- A request in a deferral buffer (R236, R358): the slice as 32 die + slice of the home or of the carving die, the
waiting context and lane, the word's address, the die whose copy holds the word (none: its home), and the answer. -/
structure Defer where
  slice : Nat
  who : Sel
  lane : Nat
  addr : Nat
  copy : Option (Nat × Nat)
  got : Option Dword
  deriving DecidableEq, Repr

/-- Place of a core, wave and tail slot in the state. -/
def coreKey (die core : Nat) : Nat := die * 99 + core
def waveKey (die core w : Nat) : Nat := coreKey die core * 64 + w
def tailKey (die core t : Nat) : Nat := coreKey die core * 32 + t

/-- The machine. -/
structure State where
  /-- physical memory by byte address (R345); an unlisted byte reads 0 (log entry 2) -/
  mem : List Host.Cell := []
  /-- words of global memory whose tag is empty, by address / 8 (R235) -/
  empties : FMap Bool := []
  /-- pages that were found not resident since a core last held their translation: root, page number (R235) -/
  absent : List (Nat × Nat) := []
  /-- exact reduction cells by word, address / 4 (R233) -/
  cells : FMap (Option Cell) := []
  regions : List Region := []
  migs : List Migration := []
  waves : FMap Wave := []
  cores : FMap Core := []
  tails : FMap Tail := []
  dies : FMap Die := []
  /-- deferral buffers, oldest request first -/
  defer : List Defer := []
  /-- accepted launches, oldest first (R399), and the next sequence number -/
  launches : List Launch := []
  nextSeq : Nat := 0
  /-- the last launch of a context, by CTXID (R402) -/
  preds : FMap (Option Pred) := []
  /-- what the Funel keeps of checked launches (R400) -/
  kept : Kept := {}
  preempts : List Preempt := []
  saved : List SavedWave := []
  shadows : List Shadow := []
  rasters : FMap Raster := []
  rays : FMap Rays := []
  lehrs : FMap Lehr := []
  arbs : FMap Arb := []
  cdie : Cdie := {}
  cur : Option Sel := none
  agenda : List Instr := []
  tick : Nat := 0
  deriving DecidableEq, Repr

/-- The machine right after cold reset. -/
def State.reset : State := {}

end Sys2Proof.Machine
end

