-- ==== Sys2Proof/Machine/Ops.lean ====
section
/-!
DEFINITION. Machine/Ops.lean: the named operations over waves, contexts and registers, the settling of the divergence
state, taking a trap and returning from one.
-/
namespace Sys2Proof.Machine

/-! ## Places -/

def State.wave (s : State) (k : Nat) : Wave := FMap.get {} s.waves k
def State.core (s : State) (k : Nat) : Core := FMap.get {} s.cores k
def State.tail (s : State) (k : Nat) : Tail := FMap.get {} s.tails k
def State.die (s : State) (k : Nat) : Die := FMap.get {} s.dies k
def State.setWave (s : State) (k : Nat) (w : Wave) : State := { s with waves := FMap.set {} s.waves k w }
def State.setCore (s : State) (k : Nat) (c : Core) : State := { s with cores := FMap.set {} s.cores k c }
def State.setTail (s : State) (k : Nat) (t : Tail) : State := { s with tails := FMap.set {} s.tails k t }
def State.setDie (s : State) (k : Nat) (d : Die) : State := { s with dies := FMap.set {} s.dies k d }
def State.modWave (s : State) (k : Nat) (f : Wave → Wave) : State := s.setWave k (f (s.wave k))
def State.modCore (s : State) (k : Nat) (f : Core → Core) : State := s.setCore k (f (s.core k))
def State.modTail (s : State) (k : Nat) (f : Tail → Tail) : State := s.setTail k (f (s.tail k))
def State.modDie (s : State) (k : Nat) (f : Die → Die) : State := s.setDie k (f (s.die k))

def Sel.ck (x : Sel) : Nat := coreKey x.die x.core
def Sel.wk (x : Sel) : Nat := waveKey x.die x.core x.wave
def Sel.tk (x : Sel) : Nat := tailKey x.die x.core x.ctx
/-- The context is the main context of its wave (R253). -/
def Sel.main (x : Sel) : Bool := x.ctx == 63
/-- A wave of a management core (R252). -/
def Sel.mgmt (x : Sel) : Bool := decide (96 ≤ x.core)

/-- A tail that is no more: VALID is cleared (R183, R186). -/
def Tail.freed (t : Tail) : Tail := { t with valid := false, ctx := {}, flags := 0 }

/-- The live tail slots of a wave, ascending. -/
def State.tailsOf (s : State) (ck w : Nat) : List Nat :=
  (List.range 32).filter (fun t => (s.tail (ck * 32 + t)).valid && (s.tail (ck * 32 + t)).wave == w)

/-- The divergence state of a context, its top entry first. -/
def State.stack (s : State) (x : Sel) : List DivEntry :=
  if x.main then (s.wave x.wk).div.stack else (s.tail x.tk).stack

def State.setStack (s : State) (x : Sel) (l : List DivEntry) : State :=
  if x.main then s.modWave x.wk (fun w => { w with div := { w.div with stack := l } })
  else s.modTail x.tk (fun t => { t with stack := l })

def State.ctx (s : State) (x : Sel) : Ctx := if x.main then (s.wave x.wk).main else (s.tail x.tk).ctx

def State.modCtx (s : State) (x : Sel) (f : Ctx → Ctx) : State :=
  if x.main then s.modWave x.wk (fun w => { w with main := f w.main })
  else s.modTail x.tk (fun t => { t with ctx := f t.ctx })

/-- The RUN entry: the top (R85). -/
def State.run (s : State) (x : Sel) : DivEntry := (s.stack x).headD {}

/-- A group by its number. -/
def Core.group (c : Core) (gid : Nat) : Group := (c.groups.find? (fun g => g.id = gid)).getD {}
/-- A management-core wave has the whole 64 KiB scratchpad of its core (R252). -/
def State.groupOf (s : State) (x : Sel) : Group :=
  if x.mgmt then { skib := 64 } else (s.core x.ck).group (s.wave x.wk).gid

/-! ## Lanes -/

def lanesOf (m : Mask) : List Nat := (List.range 32).filter (fun i => m.getLsbD i)
def maskOf (l : List Nat) : Mask := l.foldl (fun m i => m ||| ((1 : Mask) <<< i)) 0

/-! ## Registers (R97, R98, R121)

The register of operand code c in lane L has key 32 c + L. -/

def regKey (code lane : Nat) : Nat := 32 * code + lane

/-- A register as it stands, whatever loads are in flight. -/
def Wave.raw (w : Wave) (code lane : Nat) : Word := FMap.get 0 w.regs (regKey code lane)

/-- A load in flight reads as arrived at this key: one free choice for every read of that lane and register (R97, R284). -/
def Access.seen (a : Access) (key : Nat) : Bool := a.load && Config.choice a.at_ (key + 16384 * a.id)

/-- A register as it reads if no load in flight has arrived: the value before a load that the counter has not shown, where it still reads so. -/
def Wave.base (w : Wave) (code lane : Nat) : Word :=
  match w.stale.find? (regKey code lane) with
  | some p => p.2
  | none => w.raw code lane

/-- A register as an instruction reads it: each load in flight to it may already have arrived, for every read of that
lane and register alike (R97, R284). -/
def Wave.reg (w : Wave) (code lane : Nat) : Word :=
  w.accs.foldl (fun v a =>
    match a.writes.find? (regKey code lane) with
    | some u => if a.seen (regKey code lane) then u else v
    | none => v) (w.base code lane)

/-- A lane of the register may still change or still reads as before a load: its words are not in any form for sure (R97, R121). -/
def Wave.unsettled (w : Wave) (code : Nat) : Bool :=
  w.stale.any (fun p => p.1 / 32 == code) ||
  w.accs.any (fun a => a.writes.any (fun p => p.1 / 32 == code) || a.due.any (fun k => k / 32 == code))

/-- The register is in 32-bit form (R119) as it stands: its own, or half of a pair in 64-bit form of stride 0. -/
def Wave.formed32 (w : Wave) (code : Nat) : Bool :=
  FMap.get false w.aff32 code ||
  (FMap.get false w.aff64 (code - code % 2) && w.raw code 0 == w.raw code 1
    && w.raw (code - code % 2) 0 == w.raw (code - code % 2) 1
    && w.raw (code - code % 2 + 1) 0 == w.raw (code - code % 2 + 1) 1)

/-- The register is in 32-bit form, and no load in flight may change it (log entry 4). -/
def Wave.isAff32 (w : Wave) (code : Nat) : Bool := !w.unsettled code && w.formed32 code

/-- The pair that starts at an even register is in 64-bit form (R119), and no load in flight may change it. -/
def Wave.isAff64 (w : Wave) (code : Nat) : Bool := !w.unsettled code && !w.unsettled (code + 1) && FMap.get false w.aff64 code

/-- What `aftest` finds of n registers (R123): where a load in flight may change one that stands in the form, either answer is free. -/
def Wave.tested (w : Wave) (tick code n : Nat) : Bool :=
  if n = 2 then w.isAff64 code || (FMap.get false w.aff64 code && (w.unsettled code || w.unsettled (code + 1)) && Config.choice tick 8193)
  else w.isAff32 code || (w.formed32 code && w.unsettled code && Config.choice tick 8193)

/-- The other register of a pair. -/
def pairMate (code : Nat) : Nat := code - code % 2 + (1 - code % 2)

/-- The register is in no affine form any more, nor its pair in 64-bit form; a mate that was in 32-bit form stays in it
(R119, R121). -/
def Wave.plain (w : Wave) (code : Nat) : Wave :=
  { w with
    aff32 := (w.aff32.set false (pairMate code) (w.formed32 (pairMate code))).set false code false
    aff64 := w.aff64.set false (code - code % 2) false }

/-- A write to a register that an access in flight will also write: for a load either value remains, for the flag of a
store, which is interlocked, the later write (R97). -/
def Access.overwritten (tick key : Nat) (a : Access) : Access :=
  if a.load && Config.choice tick (key + 16384 * a.id) then a
  else { a with writes := a.writes.erase key, due := a.due.filter (fun k => k ≠ key) }

/-- A lane of the register that waits for a token has been written since: the token no longer goes there (R97). -/
def tokenLess (code lane : Nat) (t : Option (Nat × Mask)) : Option (Nat × Mask) :=
  t.map (fun p => if p.1 = code then (p.1, p.2 &&& ~~~((1 : Mask) <<< lane)) else p)

/-- A register write, plain (R121). -/
def Wave.put (w : Wave) (tick code lane : Nat) (v : Word) : Wave :=
  { w.plain code with
    regs := w.regs.set 0 (regKey code lane) v
    stale := w.stale.erase (regKey code lane)
    accs := w.accs.map (Access.overwritten tick (regKey code lane))
    heldtok := tokenLess code lane w.heldtok }

/-- An interlocked result that was due arrives in one lane of a register (R97): it is plain, and what was issued after it stands. -/
def Wave.putDue (w : Wave) (code lane : Nat) (v : Word) : Wave :=
  { w.plain code with regs := w.regs.set 0 (regKey code lane) v, stale := w.stale.erase (regKey code lane) }

/-- A wait has shown that every load of a context has completed (R97). -/
def Wave.shown (w : Wave) (ctx : Nat) : Wave := { w with stale := w.stale.filter (fun p => p.2.1 ≠ ctx) }

/-- n registers from code on in one lane, lowest word first. -/
def Wave.putN (w : Wave) (tick code lane n v : Nat) : Wave :=
  (List.range n).foldl (fun w i => w.put tick (code + i) lane (.ofNat 32 (v / 2 ^ (32 * i)))) w

/-- n registers from code on in one lane as one number. -/
def Wave.regN (w : Wave) (code lane n : Nat) : Nat :=
  (List.range n).foldl (fun v i => v + 2 ^ (32 * i) * (w.reg (code + i) lane).toNat) 0

/-! ## Program counters (R35 to R37) -/

/-- The slot after a PC, or none after the last slot of the address space (R36). -/
def nextPc (pc : Addr) : Option Addr :=
  if pc.toNat % 8 < 4 then some (pc + 1)
  else if pc.toNat / 64 + 1 < 2 ^ 51 then some (.ofNat 57 ((pc.toNat / 64 + 1) * 64))
  else none

/-- The form of a PC is right (R35). -/
def pcForm (pc : Addr) : Bool := pc.toNat / 8 % 8 == 0 && decide (pc.toNat % 8 < 5)

/-- The slot index of a PC (R37). -/
def slotIndex (pc : Addr) : Nat := pc.toNat / 64 * 5 + pc.toNat % 8

/-- The PC a displacement names, or none outside the range (R37). -/
def target (pc : Addr) (disp : Int) : Option Addr :=
  let t := (slotIndex pc : Int) + disp
  if t < 0 ∨ t.toNat / 5 ≥ 2 ^ 51 then none else some (.ofNat 57 (t.toNat / 5 * 64 + t.toNat % 5))

/-! ## The divergence state (R84 to R89) -/

def runE (pc : Addr) (depth : Half) (mask : Mask) : DivEntry := { kind := 0, pc := pc, depth := depth, mask := mask }
def pendE (pc : Addr) (depth : Half) (mask : Mask) : DivEntry := { kind := 1, pc := pc, depth := depth, mask := mask }
def joinE (pc : Addr) (depth : Half) (mask : Mask) : DivEntry := { kind := 2, pc := pc, depth := depth, mask := mask }

/-- R192: the lanes agree in TMODE. -/
def agree (tm m : Mask) : Bool := m &&& tm == 0 || m &&& ~~~tm == 0

/-- One pass of the loop of R87; none when it is settled. -/
def settleStep (tm : Mask) : List DivEntry → Option (List DivEntry)
  | [] => none
  | t :: r =>
    if t.mask == 0 then some r
    else if t.kind ≠ 0 then some ({ t with kind := 0, bbc := 0 } :: r)
    else
      let meets := match r.find? (fun j => j.kind == 2 && t.mask &&& ~~~j.mask == 0) with
        | some j => t.pc == j.pc && t.depth == j.depth && agree tm (t.mask ||| j.mask)
        | none => false
      if meets then some r
      else match r with
        | [] => none
        | b :: r' =>
          if b.kind == 1 && b.pc == t.pc && b.depth == t.depth && agree tm (b.mask ||| t.mask) then
            some ({ b with mask := b.mask ||| t.mask } :: r')
          else none

/-- The settled stack (R87); every pass removes an entry or makes one RUN, so twice the length is enough. -/
def settleN (tm : Mask) : Nat → List DivEntry → List DivEntry
  | 0, l => l
  | n + 1, l => match settleStep tm l with
    | none => l
    | some l' => settleN tm n l'

def settle (tm : Mask) (l : List DivEntry) : List DivEntry := settleN tm (2 * l.length + 1) l

/-- R89: the topmost PEND entry changes places with the RUN entry. -/
def rotate : List DivEntry → List DivEntry
  | [] => []
  | t :: r =>
    match r.find? (fun e => e.kind == 1) with
    | none => t :: r
    | some p => { p with kind := 0, bbc := 0 } :: { t with kind := 1, bbc := 0 } :: r.eraseP (fun e => e.kind == 1)

/-- The lanes of m leave every entry (R87, R174). -/
def dropLanes (m : Mask) (l : List DivEntry) : List DivEntry :=
  l.map (fun e => { e with mask := e.mask &&& ~~~m })

/-- Split of R161: the RUN entry gives way to a JOIN and the groups with lanes, the first on top. -/
def split (p : DivEntry) (join : Option Addr) (groups : List (Addr × Half × Mask)) (rest : List DivEntry) :
    List DivEntry :=
  (groups.filter (fun g => g.2.2 ≠ 0)).map (fun g => pendE g.1 g.2.1 g.2.2)
    ++ (match join with | some j => [joinE j p.depth p.mask] | none => []) ++ rest

/-- The lanes that have not exited (R46 `livemask`): the union of the main context's entries. -/
def liveMask (l : List DivEntry) : Mask := l.foldl (fun m e => m ||| e.mask) 0

/-! ## Wait counters (R95, R96) -/

inductive Cnt where
  | ld | st | cp | mx
  deriving DecidableEq, Repr

def State.count (s : State) (x : Sel) : Cnt → Nat
  | .ld => (s.ctx x).ld
  | .st => (s.ctx x).st
  | .cp => (s.wave x.wk).cp
  | .mx => (s.wave x.wk).mx

def State.bump (s : State) (x : Sel) (c : Cnt) (f : Nat → Nat) : State :=
  match c with
  | .ld => s.modCtx x (fun k => { k with ld := f k.ld })
  | .st => s.modCtx x (fun k => { k with st := f k.st })
  | .cp => s.modWave x.wk (fun w => { w with cp := f w.cp })
  | .mx => s.modWave x.wk (fun w => { w with mx := f w.mx })

/-! ## Taking a trap (R249, R250, R194) -/

/-- What a stop records (R255, R256). -/
structure Trap where
  cause : Nat
  number : Half := 0
  pc : Addr
  mask : Mask
  eff : Mask := 0
  act : Mask := 0
  faddr : FMap Addr := []
  async : Bool := false
  deriving DecidableEq, Repr

/-- A context leaves the queue order and its blocks (R203). -/
def Ctx.unblock (c : Ctx) : Ctx := { c with blk := none, onBar := none, onEng := none, fut := none }

/-- As `unblock`, at a stop: a `futld` that waited has counted (R95) and counts no more. -/
def Ctx.leave (c : Ctx) : Ctx := { c.unblock with ld := if c.fut.isSome then c.ld - 1 else c.ld }

/-- The contexts of a wave leave the queue order. -/
def State.unblockAll (s : State) (ck w : Nat) : State :=
  (s.tailsOf ck w).foldl (fun s t => s.modTail (ck * 32 + t) (fun t => { t with ctx := t.ctx.leave }))
    (s.modWave (ck * 64 + w) (fun w => { w with main := w.main.leave }))

/-- The wave's requests leave the deferral buffers (R236). -/
def State.withdraw (s : State) (ck w : Nat) : State :=
  { s with defer := s.defer.filter (fun d => !(d.who.ck == ck && d.who.wave == w)) }

/-- The wave stops for a trap: the cause is recorded, every context stops, and the record is posted later (R251). A replay that the
reporting context has not issued stays due only where the cause is apart from its instruction (R268). A context that sleeps sleeps on, and
serves the rest of its time after the resume (R176; log entry 56). -/
def State.stop (s : State) (x : Sel) (t : Trap) : State :=
  ((s.unblockAll x.ck x.wave).withdraw x.ck x.wave).modWave x.wk (fun w =>
    { w with
      state := 1, cause := t.cause, number := t.number, wctx := x.ctx, async := t.async
      faultmask := t.mask, effmask := t.eff, faultpc := t.pc, faddr := t.faddr, actmask := t.act, posted := false
      stopTick := s.tick, stale := [], redo := if t.async then w.redo else w.redo.set (~~~0) x.ctx (~~~0) })

/-- The wave resumes (R268): it runs again, in handler mode if it was redirected, and its stop record is gone, posted or not (log entry 84); the reporting context may have
lanes to replay. -/
def State.resume (s : State) (wk : Nat) (redo : Option Mask) : State :=
  s.modWave wk (fun w =>
    { w with
      state := if w.parked.isSome then 3 else 0, cause := 0, number := 0, async := false, posted := false
      redo := match redo with | some m => w.redo.set (~~~0) w.wctx m | none => w.redo })

end Sys2Proof.Machine
end

