-- ==== Sys2Proof/Machine/Operands.lean ====
section
/-!
DEFINITION. Machine/Operands.lean: every operand form. Which codes a position accepts (R47, R48), the window of a tail
(R184), what a source reads and what a destination receives (R46, R49, R97, R98, R101), queue bindings (R196, R202)
and the operand latch (R93, R94).
-/
namespace Sys2Proof.Machine

/-! ## Modes -/

/-- The restrictions of R184 apply: a tail, or lanes in tail mode. -/
def State.tailish (s : State) (x : Sel) : Bool :=
  !x.main || (s.run x).mask &&& (s.wave x.wk).div.tmode ≠ 0

/-- Handler mode (R258): the main context of a management-core wave or of a redirected wave, but for lanes in tail mode
(R184). -/
def State.handler (s : State) (x : Sel) : Bool := (x.mgmt || (s.wave x.wk).state == 3) && !s.tailish x

/-! ## Queue bindings (R197) -/

def bnd (b : Half) : Bool := b.getLsbD 15
def bRole (b : Half) : Nat := bits b.toNat 14 13
def bRec (b : Half) : Nat := bits b.toNat 12 7
def mkBind (role qr : Nat) : Half := .ofNat 16 (32768 + role * 8192 + qr * 128)

def Wave.bind (w : Wave) (q : Nat) : Half := FMap.get 0 w.binds q
/-- Role prod or both: it may push (R196). -/
def roleProd (r : Nat) : Bool := r == 1 || r == 3
/-- Role cons or both: it may pop. -/
def roleCons (r : Nat) : Bool := r == 2 || r == 3

/-! ## Which codes a position accepts -/

/-- The latch entry is live (R94). -/
def Wave.hLive (w : Wave) (e : Nat) : Bool := decide (0 < FMap.get 0 w.div.live e)

/-- R47, R48 and the entries of the instructions: the operand is accepted in its position. -/
def accepts (hm tl : Bool) (w : Wave) (u : Use) : Bool :=
  match u.o with
  | .none => true
  | .rsv _ => false
  | .v r => decide (r + u.n ≤ w.n) && r % u.al == 0
  | .q n => !tl && u.n == 1 && (u.acc == .src || u.acc == .dst) && bnd (w.bind n)
  | .h e => !tl && u.n == 1 && (u.acc == .src || u.acc == .guard) && w.hLive e
  | .k j => hm && decide (j + u.n ≤ 8) && j % u.al == 0 &&
      (match u.acc with
        | .src | .dst => decide (u.n ≤ 2)
        | .mdst => decide (u.n ≤ 2) || u.rd
        | .vk | .guard => true
        | .vreg | .vsp => false)
  | .sp z =>
    match u.acc with
    | .src => u.n == 1 || (u.n == 2 && (z == .zero || z == .watch))
    | .guard | .vsp => true
    | _ => false

/-- R184: a `v` register outside the window. -/
def outside (fb fs : Nat) (u : Use) : Bool :=
  match u.o with
  | .v r => decide (r < fb) || decide (fb + fs < r + u.n)
  | _ => false

/-! ## Return entries (R169 to R171) -/

def Wave.ret (w : Wave) (lane : Nat) : LaneStack := FMap.get {} w.div.rets lane

def LaneStack.depth (l : LaneStack) : Nat := l.spcnt + l.oncnt

def RetEntry.toNat (e : RetEntry) : Nat := e.rpc.toNat + 2 ^ 64 * e.fb.toNat + 2 ^ 73 * e.fs.toNat
def RetEntry.ofNat (n : Nat) : RetEntry := ⟨.ofNat 57 n, .ofNat 9 (bits n 72 64), .ofNat 9 (bits n 81 73)⟩

/-- Spill slot k of a lane, as a byte of the core's scratchpad (R170, R392). -/
def State.spillAt (s : State) (x : Sel) (k lane : Nat) : Nat :=
  let g := s.groupOf x
  (g.sbase + g.skib) * 1024 - (g.gwaves - (s.wave x.wk).gi) * g.cspill + k * 512 + lane * 16

/-- The return entry on top of a lane's stack, on chip or in the spill area; its frame is the window of a lane in tail
mode (R182). -/
def State.topRet (s : State) (x : Sel) (lane : Nat) : RetEntry :=
  let l := (s.wave x.wk).ret lane
  if 0 < l.oncnt then FMap.get {} l.ent (l.oncnt - 1)
  else .ofNat ((List.range 16).foldr (fun i v =>
    (FMap.get 0 (s.core x.ck).scratch (s.spillAt x (l.spcnt - 1) lane + i)).toNat + 256 * v) 0)

/-- The windows of the lanes of m: the tail's, or each lane's lent frame (R182, R184). -/
def State.windows (s : State) (x : Sel) (m : Mask) : List (Nat × Nat) :=
  if x.main then
    (lanesOf (m &&& (s.wave x.wk).div.tmode)).map (fun l =>
      ((s.topRet x l).fb.toNat, (s.topRet x l).fs.toNat))
  else [((s.tail x.tk).fb.toNat, (s.tail x.tk).fs.toNat)]

/-- A register that an instruction names lies outside the window of the lane (R184). -/
def State.strays (s : State) (x : Sel) (us : List Use) (lane : Nat) : Bool :=
  us.any (fun u => (s.windows x ((1 : Mask) <<< lane)).any (fun f => outside f.1 f.2 u))

/-- Instructions that a tail cannot execute (R184): `call callt exit fjoin`, group 101 but `waitc`, group 110. -/
def tailForbids : Instr → Bool
  | .call _ | .callt _ | .exit _ | .fjoin _ => true
  | .waitc _ => false
  | i => match i.op? with
    | some op => op / 128 == 5 || op / 128 == 6
    | none => false

/-! ## Special names (R46, R185) -/

/-- `fpflags` as a context reads it: of the flags that only a running tail has set, another context may see each or
not (R131). -/
def State.readFlags (s : State) (x : Sel) : Word :=
  (s.tailsOf x.ck x.wave).foldl (fun v t =>
    let f := (s.tail (x.ck * 32 + t)).flags
    v ||| (if t = x.ctx then f
      else (List.range 5).foldl (fun u i =>
        if f.getLsbD i && Config.choice s.tick (8 * t + i) then u ||| ((1 : Word) <<< i) else u) 0))
    (s.wave x.wk).fpflags

/-- The call depth is the lane's own in the main context (R169), and the RUN entry's DEPTH in a tail (R185). -/
def State.special (s : State) (x : Sel) (z : Special) (lane : Nat) : Nat :=
  let w := s.wave x.wk
  let g := s.groupOf x
  match z with
  | .zero => 0
  | .laneid => lane
  | .waveid => x.wave
  | .groupid => g.gno % 2 ^ 32
  | .coreid => x.core
  | .cluid => x.core / 8
  | .dieid => x.die
  | .nodeid => g.node
  | .batchn => w.funel.batchn
  | .recbase => w.recbase
  | .cpwp0 => (FMap.get {} (s.core x.ck).chans 0).wp.toNat
  | .cpwp1 => (FMap.get {} (s.core x.ck).chans 1).wp.toNat
  | .cpwp2 => (FMap.get {} (s.core x.ck).chans 2).wp.toNat
  | .cpwp3 => (FMap.get {} (s.core x.ck).chans 3).wp.toNat
  | .execmask => (s.run x).mask.toNat
  | .ltmask => 2 ^ lane - 1
  | .livemask => (liveMask w.div.stack).toNat
  | .depth => if x.main then (w.ret lane).depth else (s.run x).depth.toNat
  | .bwphase => w.bwphase
  | .watch => (s.die x.die).watch.toNat
  | .launchid => match w.funel.launch with | some q => q % 2 ^ 32 | none => 0
  | .fpflags => (s.readFlags x).toNat
  | .fpctl => w.fpctl.toNat

/-! ## Sources -/

/-- A context about to execute, with its active lanes, and the elements its source fields pop (key 32 field + lane) with
the lanes that pop, and the cycles until its result is produced. -/
structure Cx where
  sel : Sel
  h : Hdr
  run : DivEntry
  act : List Nat
  pops : FMap Word
  popl : List Nat
  lat : Nat
  deriving DecidableEq, Repr

/-- Number of a field among the popped values. -/
def Fld.idx : Fld → Nat
  | .A => 0 | .B => 1 | .C => 2 | .D => 3 | .G => 4 | .FLAG => 5

/-- n registers' worth of a source in one lane. -/
def Cx.src (cx : Cx) (s : State) (f : Fld) (o : Opnd) (n lane : Nat) : Nat :=
  match o with
  | .v r => (s.wave cx.sel.wk).regN r lane n
  | .k j => (s.wave cx.sel.wk).regN (420 + j) lane n
  | .h e => (FMap.get 0 (s.wave cx.sel.wk).div.latch (32 * e + lane)).toNat
  | .q _ => (FMap.get 0 cx.pops (32 * Fld.idx f + lane)).toNat
  | .sp z => s.special cx.sel z lane % 2 ^ (32 * n)
  | .rsv _ | .none => 0

def Cx.mask (cx : Cx) : Mask := maskOf cx.act
/-- The lowest active lane F. -/
def Cx.F (cx : Cx) : Nat := cx.act.headD 0

/-- The guard in one lane (R41). -/
def State.guard (s : State) (x : Sel) (h : Hdr) (lane : Nat) : Bool :=
  let cx : Cx := ⟨x, h, s.run x, [], [], [], 0⟩
  match h.g with
  | .none => true
  | o => bitN (cx.src s .G o 1 lane) 0 != h.gn

/-- The active lanes of the RUN entry (R41), less those that a replay leaves out (R268). -/
def State.active (s : State) (x : Sel) (h : Hdr) : List Nat :=
  (lanesOf ((s.run x).mask &&& FMap.get (~~~0) (s.wave x.wk).redo x.ctx)).filter (fun l => s.guard x h l)

/-! ## Queue fields (R49, R202) -/

/-- Source fields that name a queue, in the order of R49, each with its record. -/
def popFields (w : Wave) (us : List Use) : List (Fld × Nat) :=
  us.filterMap (fun u => match u.o with
    | .q n => if u.acc == .src then some (u.fld, bRec (w.bind n)) else none
    | _ => none)

/-- The record that D pushes. -/
def pushField (w : Wave) (us : List Use) : Option Nat :=
  us.findSome? (fun u => match u.o with
    | .q n => if u.acc == .dst then some (bRec (w.bind n)) else none
    | _ => none)

/-- The binding misuse of R205, for fields that pop or push. -/
def queueMisuse (w : Wave) (c : Core) (us : List Use) (k : Nat) : Bool :=
  us.any (fun u => match u.o with
    | .q n =>
      let b := w.bind n
      let r := FMap.get {} c.queues (bRec b)
      (u.acc == .src && (!roleCons (bRole b) || r.dir == 1)) || (u.acc == .dst && (!roleProd (bRole b) || r.dir == 2))
    | _ => false) ||
  (popFields w us).any (fun p =>
    decide ((FMap.get {} c.queues p.2).depth < k * ((popFields w us).filter (fun p' => p'.2 == p.2)).length))

/-- One element of the ring at index i (R196), as the four bytes at BASE + 4 i of the group's scratchpad. -/
def Core.scratchWord (c : Core) (a : Nat) : Word :=
  (List.range 4).foldl (fun v i => v ||| ((FMap.get 0 c.scratch (a + i)).setWidth 32 <<< (8 * i))) 0

def Core.setScratchWord (c : Core) (a : Nat) (v : Word) : Core :=
  { c with scratch := c.scratch.setMany 0 ((List.range 4).map (fun i => (a + i, (v >>> (8 * i)).setWidth 8))) }

/-- Byte offset of element i of a record in the core's scratchpad. -/
def Core.ringAt (c : Core) (r : QRec) (i : Nat) : Nat := (c.group r.gid).sbase * 1024 + r.base + 4 * i

/-- One pop (R202, R204). -/
def Core.pop (c : Core) (qi : Nat) : Word × Core :=
  let r := FMap.get {} c.queues qi
  if 0 < r.count then
    (c.scratchWord (c.ringAt r r.head),
      { c with queues := c.queues.set {} qi { r with head := (r.head + 1) % r.depth, count := r.count - 1 } })
  else (0, { c with queues := c.queues.set {} qi { r with closed := true } })

/-- One push (R202). -/
def Core.push (c : Core) (qi : Nat) (v : Word) : Core :=
  let r := FMap.get {} c.queues qi
  let c1 := c.setScratchWord (c.ringAt r r.tail) v
  { c1 with queues := c1.queues.set {} qi { r with tail := (r.tail + 1) % r.depth, count := r.count + 1 } }

/-- All pops of the instruction, field by field, lanes ascending: the values by field and lane, and the core after. -/
def Core.popAll (c : Core) (fs : List (Fld × Nat)) (act : List Nat) : FMap Word × Core :=
  fs.foldl (fun acc p =>
    act.foldl (fun acc l =>
      let r := Core.pop acc.2 p.2
      (acc.1 ++ [(32 * Fld.idx p.1 + l, r.1)], r.2)) acc) ([], c)

/-! ## Destinations -/

/-- Registers an operand names, by code. -/
def useRegs (u : Use) : List Nat :=
  match u.o with
  | .v r => (List.range u.n).map (r + ·)
  | .k j => (List.range u.n).map (420 + j + ·)
  | .sp .fpflags => [469]
  | .sp .fpctl => [470]
  | _ => []

/-- A result that is not yet produced: the wave waits before it reads these registers (R81, R97). -/
def State.pending (s : State) (x : Sel) (codes : List Nat) : State :=
  s.modWave x.wk (fun w => { w with sb := w.sb ++ [(x.ctx, codes)] })

/-- The result of n registers in the given lanes goes to D: a register range, plain and interlocked, or one queue
element per lane, pushed when the result is produced (R97, R98, R202). -/
def Cx.putD (cx : Cx) (o : Opnd) (n : Nat) (lanes : List Nat) (val : Nat → Nat) (s : State) : State :=
  match o with
  | .v r => (s.modWave cx.sel.wk (fun w =>
      lanes.foldl (fun w l => w.putN s.tick r l n (val l)) w)).pending cx.sel ((List.range n).map (r + ·))
  | .k j => (s.modWave cx.sel.wk (fun w =>
      lanes.foldl (fun w l => w.putN s.tick (420 + j) l n (val l)) w)).pending cx.sel ((List.range n).map (420 + j + ·))
  | .q m =>
    let qi := bRec ((s.wave cx.sel.wk).bind m)
    s.modCore cx.sel.ck (fun c =>
      let r := FMap.get {} c.queues qi
      { c with
        pushes := c.pushes ++ [⟨qi, cx.sel.wave, lanes.map (fun l => .ofNat 32 (val l)), s.tick + cx.lat⟩]
        queues := c.queues.set {} qi { r with resv := r.resv + lanes.length } })
  | _ => s

/-! ## HOLD (R42, R93) -/

/-- The operand that HOLD selects, with its field. -/
def heldOperand (us : List Use) (h : Hdr) : Option Use :=
  match h.sel with
  | .none => none
  | .A => us.find? (fun u => u.fld == .A && u.hold)
  | .B => us.find? (fun u => u.fld == .B && u.hold)
  | .C => us.find? (fun u => u.fld == .C && u.hold)

/-- The word a latch takes from the selected operand; from an operand of several registers it takes a word that the
spec does not name (log entry 8). -/
def Cx.heldWord (cx : Cx) (s : State) (u : Use) (lane : Nat) : Word :=
  if u.n = 1 then .ofNat 32 (cx.src s u.fld u.o 1 lane)
  else Config.word s.tick (32 * cx.h.ent + lane)

/-- A lane that a replay leaves out read its queue element before; the spec does not say what the replay reads there
(log entry 8). -/
def Cx.replayWord (cx : Cx) (s : State) (u : Use) (lane : Nat) : Word :=
  match u.o with
  | .q _ => Config.word s.tick (32 * cx.h.ent + lane)
  | _ => cx.heldWord s u lane

/-- The latch write of R93: in each lane of the RUN entry the value read, 0 where the guard leaves the lane out. -/
def Cx.latch (cx : Cx) (s : State) (us : List Use) (w : Wave) : Wave :=
  match heldOperand us cx.h with
  | none => w
  | some u =>
    { w with div := { w.div with
        latch := w.div.latch.setMany 0 ((lanesOf cx.run.mask).map (fun l =>
          (32 * cx.h.ent + l, if cx.act.contains l then cx.heldWord s u l
            else if s.guard cx.sel cx.h l then cx.replayWord s u l else 0)))
        live := w.div.live.set 0 cx.h.ent 3 } }

/-- The live entries age by one executed instruction; an entry just written (3) becomes live for two (R94). -/
def Wave.ageLatch (w : Wave) : Wave :=
  { w with div := { w.div with live := (w.div.live.map (fun p => (p.1, p.2 - 1))).filter (fun p => p.2 ≠ 0) } }

/-- No entry is live. -/
def Wave.killLatch (w : Wave) : Wave := { w with div := { w.div with live := [] } }

end Sys2Proof.Machine
end

