-- ==== Sys2Proof/Machine/Issue.lean ====
section
/-!
DEFINITION. Machine/Issue.lean: what every slot instruction passes before and after its own effect: the checks of R68
from step 4 on, the tail limits (R184), the guard (R41), the conditions that keep it waiting (R81, R96, R189, R202),
the pops (R49), the report of causes (R69, R249), the latch (R93, R94), the next PC (R36) and the settling (R87).
-/
namespace Sys2Proof.Machine

/-! ## Causes (R70) -/

def cILL_OP : Nat := 1
def cILL_LINE : Nat := 2
def cILL_OPERAND : Nat := 3
def cPRIV : Nat := 4
def cALIGN : Nat := 5
def cPROTECT : Nat := 6
def cNOTRES : Nat := 7
def cBOUND : Nat := 8
def cLANDING : Nat := 9
def cSTACK : Nat := 10
def cFRAME : Nat := 11
def cOWNER : Nat := 12
def cQUEUE : Nat := 13
def cBARRIER : Nat := 14
def cENGINE : Nat := 15
def cRECORD : Nat := 16
def cWATCH : Nat := 17
def cBRK : Nat := 18
def cTRAP : Nat := 19
def cFPX : Nat := 20
def cMC_PARITY : Nat := 32
def cMC_ECC : Nat := 33

/-- A type of the instruction is 64-bit. -/
def longType (i : Instr) : Bool :=
  match i.view with
  | .intR f => f.ty.regs == 2
  | .intI f => f.ty.regs == 2
  | .fltR f => f.ty.regs == 2
  | .fltI f => f.ty.regs == 2
  | .cvtR f => f.dty.regs == 2 || f.sty.regs == 2
  | .cmpR f => f.ty.regs == 2
  | .cmpI f => f.ty.regs == 2
  | _ => false

/-- The instruction's type is `.f64`. -/
def f64Type (i : Instr) : Bool :=
  match i.view with
  | .cmpR f => f.ty == .f64
  | .cmpI f => f.ty == .f64
  | _ => false

/-- Cycles from issue until a result is produced, by the tables of R98, R136 and R152; a result in affine form, which no queue takes,
apart. -/
def latency (i : Instr) : Nat :=
  let pick := fun a b : Nat => if longType i then b else a
  match i with
  | .mul f => if f.wide then 8 else pick 6 12
  | .mad f => if f.wide then 8 else pick 6 12
  | .mulRi f => if f.wide then 8 else pick 6 12
  | .mulhi _ | .sad _ | .dot4 _ => pick 6 12
  | .div _ | .divRi _ | .rem _ | .remRi _ => pick 24 48
  | .fdiv _ | .fsqrt _ | .frcp _ => pick 20 64
  | .frsq _ | .fex2 _ | .flg2 _ | .fsin _ | .fcos _ | .ftanh _ => pick 12 40
  | .fabs _ | .fneg _ | .fcsgn _ | .fgetexp _ | .fclass _ => pick 4 6
  | .cvt _ | .fpack _ | .fsplit _ => pick 4 8
  | .cmp _ | .cmpRi _ | .cmpm _ | .cmpmRi _ => if f64Type i then 8 else pick 4 6
  | .lxch _ | .lxchRi _ | .vote _ | .lred _ | .lscan _ | .lmatch _ | .elect _ | .rdlane _ | .rdlaneRi _ | .wrlane _ => pick 8 12
  | .recld _ | .rngld _ | .edgest _ => 8
  | i => match i.op? with
    | some op => if op / 128 = 1 then pick 4 8 else pick 4 6
    | none => 0

/-- The counter an instruction moves at issue (R95). -/
def counterOf : Instr → Option Cnt
  | .ld _ | .lds _ | .ldc _ | .ldt _ | .atom _ | .cas _ | .atoms _ | .cass _ | .atomc _ | .futld _ | .futtry _ => some .ld
  | .st _ | .sts _ | .stc _ | .stt _ | .red _ | .futst _ | .futclr _ => some .st
  | .cpy _ | .cpys _ | .cpyd _ => some .cp
  | .mxgo _ | .mxrd _ | .mxwr _ => some .mx
  | _ => none

/-- Privileged forms: group 111 (R67) and SCOPE 7 (R55). -/
def privForm (i : Instr) : Bool :=
  (match i.op? with | some op => op / 128 == 7 | none => false) ||
  (match i.view with | .mem f => f.scope == .obs | _ => false)

/-- The graph instructions (R405). -/
def graphForm (i : Instr) : Bool := match i.op? with | some op => decide (0x320 ≤ op) && decide (op ≤ 0x327) | none => false

/-! ## Waiting (R81) -/

/-- The ranges of `v` registers an operand names overlap a window. -/
def overlaps (fb fs : Nat) (u : Use) : Bool :=
  match u.o with
  | .v r => decide (r < fb + fs) && decide (fb < r + u.n)
  | _ => false

/-- The implicit join of R189. A redirected wave's handler, whose tails stay stopped, does not wait for them (R258,
log entry 69). -/
def State.joinBlocked (s : State) (x : Sel) (us : List Use) : Bool :=
  x.main && (s.wave x.wk).state != 3 && (s.tailsOf x.ck x.wave).any (fun t =>
    let tl := s.tail (x.ck * 32 + t)
    tl.lanes &&& (s.run x).mask ≠ 0 && us.any (overlaps tl.fb.toNat tl.fs.toNat))

/-- A register it reads holds a result not yet produced (R81): of an instruction, of a copy command, of a held arrival,
or the flag of a store under way (R97). -/
def Wave.resultBlocked (w : Wave) (us : List Use) : Bool :=
  us.any (fun u => u.rd && (useRegs u).any (fun r =>
    w.sb.any (fun l => l.2.contains r) || w.engd.contains r
      || (match w.heldtok with | some (c, m) => c == r && m != 0 | none => false)
      || w.accs.any (fun a => !a.load && a.writes.any (fun p => p.1 / 32 == r))))

/-- It would raise its counter to 64 (R96); a `futld` that waits has counted already. -/
def State.counterBlocked (s : State) (x : Sel) (i : Instr) : Bool :=
  match counterOf i with
  | some c => decide (63 ≤ s.count x c) && (s.ctx x).fut.isNone
  | none => false

/-- Blocked contexts of a core that have a place in the queue order, by age and waveid (R203). -/
def State.queueOrder (s : State) (ck : Nat) : List (Nat × Nat × Blk) :=
  (List.range 64).filterMap (fun w =>
    match (s.wave (ck * 64 + w)).main.blk with
    | some b => if b.pops.isEmpty && b.push.isEmpty then none else some (b.age, w, b)
    | none => none)

/-- The block is one on queue records. -/
def Blk.onQueue (b : Blk) : Bool := !(b.pops.isEmpty && b.push.isEmpty)

/-- A blocked instruction ahead touches a record that this one pops or pushes (R202, R203); an instruction that has not blocked on a
queue before stands behind all of them. -/
def State.behind (s : State) (x : Sel) (pops push : List Nat) : Bool :=
  (s.queueOrder x.ck).any (fun e =>
    e.2.1 ≠ x.wave &&
    (match (s.ctx x).blk with
      | some b => !b.onQueue || decide (e.1 < b.age) || (e.1 == b.age && decide (e.2.1 < x.wave))
      | none => true) &&
    (e.2.2.pops.any pops.contains || e.2.2.push.any push.contains))

/-- A queue instruction of K active lanes may take effect (R202, R204). `mxp` says of a record whether the matrix unit
still pushes to it (R197). -/
def State.queueEligible (s : State) (x : Sel) (mxp : Nat → Bool) (pops : List Nat) (push : Option Nat) (k : Nat) : Bool :=
  let c := s.core x.ck
  let need := fun q => k * (pops.filter (· == q)).length
  pops.all (fun q => let r := FMap.get {} c.queues q; decide (need q ≤ r.count) || (r.pcnt == 0 && !mxp q)) &&
  (match push with
    | none => true
    | some p => let r := FMap.get {} c.queues p; decide (k + r.count + r.resv ≤ r.depth + Nat.min (need p) r.count)) &&
  !s.behind x pops push.toList

/-- The context blocks, and is checked again when something has changed (R81). It keeps its age while what it waits for
stays the same: queue records, the engine queue that it waits to enter, or neither (R203, R288). -/
def State.blockCtx (s : State) (x : Sel) (pops push : List Nat) (eng : Option Nat := none) : State :=
  s.modCtx x (fun c => { c with
    onEng := eng
    blk := some {
      age := match c.blk with | some b => if b.pops == pops && b.push == push && c.onEng == eng then b.age else s.tick | none => s.tick
      stamp := s.tick, pops := pops, push := push } })

/-! ## The gate -/

/-- What an instruction raises by its operands alone, whatever it does (R69): FRAME in the lanes whose window leaves a
register out (R184), QUEUE for the whole wave (R205). -/
structure Misuse where
  frame : List Nat := []
  queue : Bool := false
  deriving DecidableEq, Repr

/-- What happens to an instruction before its own effect. -/
inductive Gate where
  | trap (t : Trap)
  | skip (cx : Cx)
  | block (pops push : List Nat)
  | go (cx : Cx) (m : Misuse)
  deriving DecidableEq, Repr

/-- Parameter-block bytes of an item (R322): AQ, OQ. -/
def MxItem.aq (m : MxItem) : Bool := m.kind == 0 && bitN m.blk (8 * 22 + 7)
def MxItem.oq (m : MxItem) : Bool := (m.kind == 0 || m.kind == 4) && bitN m.blk (8 * 28 + 7)

/-- The accepted items of a matrix unit. -/
def Mx.items (m : Mx) : List MxItem := m.queue ++ m.entering

/-- The paired matrix unit holds an accepted job that pushes to the record (R197 MXP). -/
def State.mxp (s : State) (ck q : Nat) : Bool :=
  (FMap.get {} (s.core ck).queues q).valid && (FMap.get {} (s.core ck).queues q).dir == 2 && (s.core ck).mx.items.any (fun i => i.oq && !i.cancel)

/-- The paired matrix unit holds an accepted job that names the record (R200). -/
def State.mxNames (s : State) (ck q : Nat) : Bool :=
  s.mxp ck q || ((FMap.get {} (s.core ck).queues q).valid && (FMap.get {} (s.core ck).queues q).dir == 1 && (s.core ck).mx.items.any (fun i => i.aq && !i.cancel))

/-- R161: the condition of a branch pops in every lane of the RUN entry. -/
def popsWhole : Instr → Bool
  | .brc _ | .brany _ | .brall _ => true
  | _ => false

/-- A trap of the whole wave at the RUN entry's instruction. -/
def State.waveTrap (s : State) (x : Sel) (cause : Nat) (m : Mask) : Trap :=
  { cause := cause, pc := (s.run x).pc, mask := m, act := m }

/-- The registers that an instruction names are lent to a tail, or wait for a result (R81, R189). -/
def State.regsBlocked (s : State) (x : Sel) (us : List Use) : Bool :=
  s.joinBlocked x us || (s.wave x.wk).resultBlocked us

/-- A misused queue gives no value: where an operand other than the data of a store is popped, no lane cause is known. -/
def queueHides (pf : List (Fld × Nat)) : Bool := pf.any (fun p => p.1 != .C)

/-- R68 steps 4 to 6, R406, R184, R41, R205, R81. A form that a tail cannot execute raises FRAME before anything that its
execution would raise (log entry 69). -/
def gate (i : Instr) (h : Hdr) (s : State) (x : Sel) : Gate :=
  let w := s.wave x.wk
  let us := i.uses
  let gs := us.filter (fun u => u.fld == .G)
  let run := s.run x
  let hm := s.handler x
  let tl := s.tailish x
  let gok := gs.all (accepts hm tl w)
  let act := if gok then s.active x h else lanesOf run.mask
  let pf := popFields w us
  let push := pushField w us
  let pl := if popsWhole i then lanesOf run.mask else act
  let cx : Cx := ⟨x, h, run, act, ((s.core x.ck).popAll pf pl).1, pl, latency i⟩
  let misuse := queueMisuse w (s.core x.ck) us pl.length
  if !i.wf || (tl && h.sel ≠ .none) || (graphForm i && x.mgmt) then .trap (s.waveTrap x cILL_OP run.mask)
  else if gok && s.regsBlocked x gs then .block [] []
  else if privForm i && !hm then .trap (s.waveTrap x cPRIV (maskOf act))
  else if !us.all (accepts hm tl w) then .trap (s.waveTrap x cILL_OPERAND (maskOf act))
  else if tl && (lanesOf run.mask).any (s.strays x gs) then .trap (s.waveTrap x cFRAME run.mask)
  else if s.regsBlocked x us then .block [] []
  else if act.isEmpty then .skip cx
  else if tl && tailForbids i then .trap (s.waveTrap x cFRAME (maskOf act))
  else if misuse && queueHides pf then .trap (s.waveTrap x cQUEUE (maskOf act))
  else if s.counterBlocked x i then .block [] []
  else if !misuse && !(pf.isEmpty && push.isNone) &&
      !s.queueEligible x (s.mxp x.ck) (pf.map Prod.snd) push pl.length then .block (pf.map Prod.snd) push.toList
  else .go cx { frame := if tl then act.filter (s.strays x us) else [], queue := misuse }

/-! ## After the effect -/

/-- The next PC of the RUN entry; none where no slot follows (R36). -/
def State.advance (s : State) (x : Sel) : Option State :=
  match s.stack x with
  | [] => some s
  | t :: r => (nextPc t.pc).map (fun p => s.setStack x ({ t with pc := p } :: r))

/-- Settling, which asks for agreement in the wave's TMODE in every context (R87, R192), and the life of the latch
entries (R94). An instruction without an active lane counts as executed (log entry 68). -/
def State.settled (s : State) (x : Sel) (before : DivEntry) (moved : Bool) : State :=
  let l := settle (s.wave x.wk).div.tmode (s.stack x)
  let same := !moved && (match l, s.stack x with
    | a :: l', b :: l'' => a.mask == before.mask && a.kind == b.kind && l'.length == l''.length
    | _, _ => false)
  let s1 := s.setStack x l
  if x.main then s1.modWave x.wk (fun w => if same then w.ageLatch else w.killLatch) else s1

/-- The context goes on: its block, its replay and a cancel under way are over. -/
def State.unheld (s : State) (x : Sel) : State :=
  (s.modCtx x Ctx.unblock).modWave x.wk (fun w =>
    let w1 := { w with redo := w.redo.set (~~~0) x.ctx (~~~0) }
    if x.main then { w1 with div := { w1.div with can := none } } else w1)

/-- What this instruction, which is under way and waits, has done before: the commands that a cancel has counted (R300, R332); a count of
0 says that a `bar.expect` has performed its Expect, or that a `bar.sync` has an arrival held (R213, R214). -/
def State.cancelled (s : State) (cx : Cx) : Option Nat :=
  match (s.wave cx.sel.wk).div.can with
  | some (pc, n) => if pc = cx.run.pc then some n else none
  | none => none

/-- The instruction is under way. -/
def State.underWay (s : State) (cx : Cx) (n : Nat) : State :=
  s.modWave cx.sel.wk (fun w => { w with div := { w.div with can := some (cx.run.pc, n) } })

/-- A wave runs past the last slot of the address space (R36). -/
def State.pastEnd (s : State) (cx : Cx) (eff : Mask) : State :=
  s.stop cx.sel { cause := cILL_LINE, pc := cx.run.pc, mask := maskOf cx.act, eff := eff, act := maskOf cx.act }

/-- The end of an instruction that took effect in the lanes `eff`. A control instruction has written the stack
itself (`moved`), with lanes that go on at the next slot (`stays`); any other goes on at the next slot. -/
def State.complete (s : State) (cx : Cx) (moved stays : Bool) (eff : Mask) : State :=
  if moved then
    let s' := (s.unheld cx.sel).settled cx.sel cx.run true
    if stays && (nextPc cx.run.pc).isNone then s'.pastEnd cx eff else s'
  else match (s.unheld cx.sel).advance cx.sel with
    | some s' => s'.settled cx.sel cx.run false
    | none => ((s.unheld cx.sel).settled cx.sel cx.run false).pastEnd cx eff

/-- What an instruction does once it may take effect: the cause of the whole wave and the lane causes that it raises,
each with the faulting address (R69, R255), whether a lane cause stops it in every lane (R161), whether it still has
to wait (for an engine queue, `eng`) and what the wait leaves behind, what it does in the lanes that execute even where they raise a cause
(R132), and its effect in the
lanes that complete. `fresh` says that it has put another divergence state in place, which goes on as it stands. -/
structure Plan where
  wave : Option Nat := none
  number : Half := 0
  lane : Nat → Option (Nat × Option Addr) := fun _ => none
  whole : Bool := false
  wait : Option State := none
  eng : Option Nat := none
  always : List Nat → State → State := fun _ s => s
  moved : Bool := false
  stays : Bool := false
  fresh : Bool := false
  run : List Nat → State → State

/-- Causes that belong to the whole wave (R70), of those that an execution raises. -/
def waveCause (c : Nat) : Bool :=
  c == cQUEUE || c == cBARRIER || c == cENGINE || c == cBRK || c == cTRAP || c == cMC_PARITY || c == cMC_ECC

/-- The lowest cause raised (R69). -/
def Plan.lowest (p : Plan) (act : List Nat) : Option Nat :=
  (p.wave.toList ++ act.filterMap (fun l => (p.lane l).map Prod.fst)).min?

/-- The pops of the instruction take place together (R49). -/
def State.commitPops (s : State) (cx : Cx) (us : List Use) : State :=
  let pf := popFields (s.wave cx.sel.wk) us
  if pf.isEmpty then s else s.modCore cx.sel.ck (fun c => (c.popAll pf cx.popl).2)

/-- The latch write of an instruction that holds an operand (R93). -/
def State.latched (s : State) (cx : Cx) (us : List Use) : State :=
  if (heldOperand us cx.h).isNone then s else s.modWave cx.sel.wk (cx.latch s us)

/-- The effect in the given lanes, with the pops before it. Where lanes raise a lane cause and others complete, the pops of
every active lane take place, in the order of R49 (log entry 68). -/
def Plan.effect (p : Plan) (cx : Cx) (us : List Use) (lanes : List Nat) (s : State) : State :=
  if lanes.isEmpty then s else p.run lanes (s.commitPops cx us)

/-- What the instruction comes to: a cause of the whole wave, lane causes with the lanes that complete, a wait, or
its effect in every active lane. -/
def Plan.exec (p : Plan) (i : Instr) (cx : Cx) (s : State) : State :=
  let us := i.uses
  match p.lowest cx.act with
  | some m =>
    if p.wave == some m || waveCause m then
      (p.always cx.act s).stop cx.sel { s.waveTrap cx.sel m cx.mask with number := p.number }
    else
      let ok := if p.whole || p.wave.isSome then [] else cx.act.filter (fun l => (p.lane l).isNone)
      (p.always cx.act (p.effect cx us ok s)).stop cx.sel (laneTrap m ok)
  | none =>
    match p.wait with
    | some s' => s'.blockCtx cx.sel [] [] p.eng
    | none =>
      let s1 := s.latched cx us
      let s2 := p.always cx.act (p.effect cx us cx.act (if p.fresh then s1.unheld cx.sel else s1))
      if p.fresh then s2 else s2.complete cx p.moved p.stays cx.mask
where
  laneTrap (m : Nat) (ok : List Nat) : Trap :=
    let ls := cx.act.filter (fun l => (p.lane l).map Prod.fst == some m)
    { cause := m, pc := cx.run.pc, mask := maskOf ls, eff := maskOf ok, act := cx.mask
      faddr := ls.filterMap (fun l => (p.lane l).bind (fun c => c.2.map (fun a => (l, a)))) }

/-- A plan whose instruction also raises FRAME or QUEUE by its operands (R69): a lower lane cause is reported before them,
and no lane completes that raises one of them. The lanes inside their window execute (R132). -/
def Plan.execWith (p : Plan) (m : Misuse) (i : Instr) (cx : Cx) (s : State) : State :=
  let own := if m.frame.isEmpty then cQUEUE else cFRAME
  let ok := if p.whole || p.wave.isSome || m.queue then []
    else cx.act.filter (fun l => (p.lane l).isNone && !m.frame.contains l)
  let low := match p.lowest cx.act with
    | some c => if c < own then some c else none
    | none => none
  if m = {} then p.exec i cx s
  else match low with
    | some c => (p.always cx.act (p.effect cx i.uses ok s)).stop cx.sel (Plan.exec.laneTrap p cx c ok)
    | none =>
      if m.frame.isEmpty then s.stop cx.sel (s.waveTrap cx.sel cQUEUE cx.mask)
      else (p.always (cx.act.filter (fun l => !m.frame.contains l)) (p.effect cx i.uses ok s)).stop cx.sel
        { cause := cFRAME, pc := cx.run.pc, mask := maskOf m.frame, eff := maskOf ok, act := cx.mask }

/-- A context may execute: its wave runs, or is redirected and this is its main context (R81, R258), and it has
lanes (R87). -/
def State.running (s : State) (x : Sel) : Bool :=
  let w := s.wave x.wk
  w.valid && (w.state == 0 || (w.state == 3 && x.main)) && !(s.stack x).isEmpty &&
    (x.main || ((s.tail x.tk).valid && (s.tail x.tk).wave == x.wave))

/-- One slot instruction of the chosen context. -/
def issue (i : Instr) (h : Hdr) (s : State) (body : Cx → State → Plan) : Host.Outcome State Fault Refusal :=
  match s.cur with
  | none => .fault .noContext
  | some x =>
    if s.running x then
      match gate i h s x with
      | .trap t => .next (s.stop x t)
      | .skip cx => .next (s.complete cx false false 0)
      | .block pops push => .next (s.blockCtx x pops push)
      | .go cx m => .next ((body cx s).execWith m i cx s)
    else .fault .noContext

end Sys2Proof.Machine
end

