-- ==== Sys2Proof/Machine/Flags.lean ====
section
/-!
DEFINITION. Machine/Flags.lean: the float control word and the exception flags (R129 to R132).
-/
namespace Sys2Proof.Machine

/-! ## Flag bits (R130), as numbers -/

def fNV : Nat := 1
def fDZ : Nat := 2
def fOF : Nat := 4
def fUF : Nat := 8
def fNX : Nat := 16

/-- DRND of `fpctl`; a code that is no mode reads as nearest even (R129). -/
def drnd (fpctl : Word) : Rnd :=
  match Rnd.ofCode (bits fpctl.toNat 2 0) with
  | some .dflt | none => .rn
  | some r => r

/-- The mode of an instruction (R128). -/
def modeOf (fpctl : Word) (r : Rnd) : Rnd := if r = .dflt then drnd fpctl else r

/-- What a write to `fpctl` stores: the enables and DRND, a mode that is none becoming 001 (R129). -/
def fpctlWrite (v : Word) : Word :=
  let d := bits v.toNat 2 0
  .ofNat 32 (bits v.toNat 12 8 * 256 + (if 1 ≤ d ∧ d ≤ 4 then d else 1))

/-- A raised flag whose enable is 1 (R132): enables 12:8 stand over flags 4:0. -/
def fpx (fpctl : Word) (flags : Nat) : Bool := Nat.land (bits fpctl.toNat 12 8) flags != 0

/-- The wave's sticky flags take these; a tail's own are told apart until it ends (R131). -/
def State.setFlags (s : State) (x : Sel) (flags : Nat) : State :=
  if x.main then s.modWave x.wk (fun w => { w with fpflags := w.fpflags ||| .ofNat 32 flags })
  else s.modTail x.tk (fun t => { t with flags := t.flags ||| .ofNat 32 flags })

/-- The flags of all lanes together. -/
def flagsOf (act : List Nat) (fl : Nat → Nat) : Nat := act.foldl (fun a l => Nat.lor a (fl l)) 0

/-- A plan whose lanes give a value and flags each (R132): a lane with an enabled flag raises `FPX` and keeps D, every
lane's flags are set, and a later read of the flags waits for it (R131). -/
def planF (cx : Cx) (s : State) (d : Opnd) (n : Nat) (res : Nat → Nat × Nat) : Plan :=
  { lane := fun l => if fpx (s.wave cx.sel.wk).fpctl (res l).2 then some (cFPX, none) else none
    always := fun ls s' => (s'.setFlags cx.sel (flagsOf ls (fun l => (res l).2))).pending cx.sel [469, 470]
    run := fun ls s' => cx.putD d n ls (fun l => (res l).1) s' }

end Sys2Proof.Machine
end

