-- ==== Sys2Proof/Machine/FloatNum.lean ====
section
/-!
DEFINITION. Machine/FloatNum.lean: the float formats, exact values and rounding (R124 to R128, R135), and the
elementary functions of R141 and R142 in fixed point with far more bits than any format resolves.
-/
namespace Sys2Proof.Machine

/-! ## Formats (R124) -/

/-- Exponent bits and fraction bits. -/
structure Fmt where
  eb : Nat
  fb : Nat
  deriving DecidableEq, Repr

def F64 : Fmt := ⟨11, 52⟩
def F32 : Fmt := ⟨8, 23⟩
def F16 : Fmt := ⟨5, 10⟩
def BF16 : Fmt := ⟨8, 7⟩

def Fmt.bias (f : Fmt) : Nat := 2 ^ (f.eb - 1) - 1
def Fmt.width (f : Fmt) : Nat := 1 + f.eb + f.fb
def Fmt.emin (f : Fmt) : Int := 1 - f.bias
def Fmt.signBit (f : Fmt) : Nat := 2 ^ (f.eb + f.fb)
def Fmt.infBits (f : Fmt) : Nat := (2 ^ f.eb - 1) * 2 ^ f.fb
def Fmt.maxBits (f : Fmt) : Nat := f.infBits - 1
def Fmt.nanBits (f : Fmt) : Nat := f.infBits + 2 ^ (f.fb - 1)
def Fmt.oneBits (f : Fmt) : Nat := f.bias * 2 ^ f.fb
def Fmt.withSign (f : Fmt) (neg : Bool) (x : Nat) : Nat := x + (if neg then f.signBit else 0)

/-- The format of an element of a type (R125). -/
def fmtOf : Ty → Fmt
  | .f64 => F64
  | .f16 | .f16x2 => F16
  | .bf16 | .bf16x2 => BF16
  | _ => F32

/-- A value: a finite one is (-1)^neg × m × 2^e. -/
inductive FV where
  | nan
  | inf (neg : Bool)
  | fin (neg : Bool) (m : Nat) (e : Int)
  deriving DecidableEq, Repr

def FV.neg : FV → Bool
  | .nan => false
  | .inf n | .fin n _ _ => n
def FV.isNan : FV → Bool
  | .nan => true
  | _ => false
def FV.isInf : FV → Bool
  | .inf _ => true
  | _ => false
def FV.isZero : FV → Bool
  | .fin _ m _ => m == 0
  | _ => false
def FV.flip : FV → FV
  | .nan => .nan
  | .inf n => .inf !n
  | .fin n m e => .fin (!n) m e

/-- The value of a bit pattern; with FTZ a denormal reads as a zero of its sign (R124, R127). -/
def Fmt.val (f : Fmt) (ftz : Bool) (x : Nat) : FV :=
  let neg := bitN x (f.eb + f.fb)
  let ex := x / 2 ^ f.fb % 2 ^ f.eb
  let fr := x % 2 ^ f.fb
  if ex = 2 ^ f.eb - 1 then (if fr = 0 then .inf neg else .nan)
  else if ex = 0 then .fin neg (if ftz then 0 else fr) (f.emin - f.fb)
  else .fin neg (2 ^ f.fb + fr) ((ex : Int) - f.bias - f.fb)

/-! ## Rounding (R128) -/

/-- m × 2^e, plus something less than one unit where `st`, cut at 2^q by the mode: the multiple of 2^q and whether it
is inexact. -/
def cut (mode : Rnd) (neg : Bool) (m : Nat) (e : Int) (st : Bool) (q : Int) : Nat × Bool :=
  let sh := (q - e).toNat
  let k := if q ≤ e then m * 2 ^ (e - q).toNat else m / 2 ^ sh
  let rem := if q ≤ e then 0 else m % 2 ^ sh
  let half := if q ≤ e then 1 else 2 ^ (sh - 1)
  let inex := rem ≠ 0 || st
  let up := match mode with
    | .rz => false
    | .rp => inex && !neg
    | .rm => inex && neg
    | _ => decide (q > e) && (decide (half < rem) || (rem == half && (st || k % 2 == 1)))
  (k + up.toNat, inex)

/-- Overflow (R128). -/
def Fmt.overflow (f : Fmt) (mode : Rnd) (neg : Bool) : Nat :=
  f.withSign neg (match mode with
    | .rz => f.maxBits
    | .rp => if neg then f.maxBits else f.infBits
    | .rm => if neg then f.infBits else f.maxBits
    | _ => f.infBits)

/-- The rounded bits and flags of a nonzero magnitude. Tininess is detected after rounding. -/
def Fmt.round (f : Fmt) (mode : Rnd) (ftz : Bool) (neg : Bool) (m : Nat) (e : Int) (st : Bool) : Nat × Nat :=
  if m = 0 ∧ !st then (f.withSign neg 0, 0)
  else
    let top := e + Nat.size m - 1
    let q := max (top - f.fb) (f.emin - f.fb)
    let (k, inex) := cut mode neg m e st q
    let free := cut mode neg m e st (top - f.fb)
    let tiny := decide (top < f.emin) && !(decide (top = f.emin - 1) && free.1 == 2 ^ (f.fb + 1))
    let (k, q) := if k = 2 ^ (f.fb + 1) then (2 ^ f.fb, q + 1) else (k, q)
    if 2 ^ f.fb ≤ k ∧ (f.bias : Int) < q + f.fb then (f.overflow mode neg, fOF + fNX)
    else
      let small := decide (k < 2 ^ f.fb)
      let x := if small then k else (q + f.fb + f.bias).toNat * 2 ^ f.fb + (k - 2 ^ f.fb)
      if ftz && small && k ≠ 0 then (f.withSign neg 0, fUF + fNX)
      else (f.withSign neg x, if inex then fNX + (if tiny then fUF else 0) else 0)

/-- R135: the rounded result clamped to +0.0 … 1.0. -/
def Fmt.clamp01 (f : Fmt) (x : Nat) : Nat :=
  match f.val false x with
  | .nan => 0
  | v => if v.neg then 0 else min x f.oneBits

/-- The bits of a value that needs no rounding, or is an infinity or a NaN. -/
def Fmt.enc (f : Fmt) (mode : Rnd) (ftz : Bool) : FV → Nat × Nat
  | .nan => (f.nanBits, 0)
  | .inf n => (f.withSign n f.infBits, 0)
  | .fin n m e => f.round mode ftz n m e false

/-! ## Sums and products (R137, R146, R156) -/

/-- The sum of finite terms: exact, with the sign of a zero sum by the mode (R128). -/
def sumFin (mode : Rnd) (l : List (Bool × Nat × Int)) : FV :=
  let e := (l.map (fun t => t.2.2)).foldl min 0
  let t : Int := l.foldl (fun a t =>
    let v : Int := t.2.1 * 2 ^ (t.2.2 - e).toNat
    if t.1 then a - v else a + v) 0
  if t = 0 then
    let negz := l.all (fun t => t.1 && t.2.1 == 0)
    let posz := l.all (fun t => !t.1 && t.2.1 == 0)
    .fin (if posz then false else if negz then true else mode == .rm) 0 e
  else .fin (decide (t < 0)) t.natAbs e

/-- The exact sum of values; a NaN that no NaN operand explains raises NV. -/
def sumFV (mode : Rnd) (l : List FV) : FV × Nat :=
  if l.any FV.isNan then (.nan, 0)
  else
    let p := l.any (fun v => v.isInf && !v.neg)
    let n := l.any (fun v => v.isInf && v.neg)
    if p && n then (.nan, fNV)
    else if p then (.inf false, 0)
    else if n then (.inf true, 0)
    else (sumFin mode (l.filterMap (fun v => match v with | .fin n m e => some (n, m, e) | _ => none)), 0)

/-- The exact product; 0 × ∞ raises NV. -/
def mulFV (a b : FV) : FV × Nat :=
  match a, b with
  | .nan, _ | _, .nan => (.nan, 0)
  | .inf n, v | v, .inf n => if v.isZero then (.nan, fNV) else (.inf (n != v.neg), 0)
  | .fin n m e, .fin n' m' e' => (.fin (n != n') (m * m') (e + e'), 0)

/-- 0 × ∞ among the operands, a NaN elsewhere notwithstanding (R137, R146). -/
def zeroInf (a b : FV) : Bool := (a.isZero && b.isInf) || (a.isInf && b.isZero)

/-- A rounded result with the flags that its computation raised before. -/
def Fmt.fin (f : Fmt) (mode : Rnd) (ftz sat : Bool) (r : FV × Nat) : Nat × Nat :=
  let x := f.enc mode ftz r.1
  (if sat then f.clamp01 x.1 else x.1, Nat.lor x.2 r.2)

/-! ## Quotients and roots (R140) -/

/-- Floor of the square root, bit by bit from the highest. -/
def isqrt (n : Nat) : Nat :=
  (List.range (Nat.size n / 2 + 1)).foldr (fun i r =>
    if (r + 2 ^ i) * (r + 2 ^ i) ≤ n then r + 2 ^ i else r) 0

/-- m × 2^e ⁄ (m' × 2^e'), m' ≠ 0, rounded once. -/
def Fmt.quot (f : Fmt) (mode : Rnd) (ftz neg : Bool) (m : Nat) (e : Int) (m' : Nat) (e' : Int) : Nat × Nat :=
  let k := f.fb + 4 + Nat.size m' - Nat.size m
  f.round mode ftz neg (m * 2 ^ k / m') (e - e' - k) (m * 2 ^ k % m' != 0)

/-- The root of m × 2^e as a number of many bits, its exponent, and whether something is left over. -/
def rootOf (f : Fmt) (m : Nat) (e : Int) : Nat × Int × Bool :=
  let k := 2 * (f.fb + 4) + (if e % 2 = 0 then 0 else 1)
  let r := isqrt (m * 2 ^ k)
  (r, (e - k) / 2, r * r != m * 2 ^ k)

/-- 1 ⁄ √(m × 2^e), m ≠ 0, in the same form: the root of 2^(2 K) ⁄ m, whose remainder is left over unless m is a
power of two that divides it with an even power. -/
def rsqOf (f : Fmt) (m : Nat) (e : Int) : Nat × Int × Bool :=
  let odd := if e % 2 = 0 then 0 else 1
  let k := 2 * (f.fb + 4 + Nat.size m)
  let n := 2 ^ (k + odd)
  let r := isqrt (n / m)
  (r, -((e + k + odd) / 2), !(n % m == 0 && r * r == n / m))

/-- A faithful result: either neighbour of an inexact value (R140, R142). -/
def Fmt.faithful (f : Fmt) (pickUp ftz neg : Bool) (m : Nat) (e : Int) (st : Bool) : Nat × Nat :=
  f.round (if pickUp then (if neg then .rm else .rp) else .rz) ftz neg m e st

/-! ## Elementary functions (R141, R142)

Fixed point with P bits after the point: a number x stands for x ⁄ 2^P. Every series is cut where its terms vanish, so
the error stays below 2^-400, and every result but the exact ones that the callers take out is inexact. -/

def P : Nat := 512
def fone : Nat := 2 ^ P
def fmul (a b : Nat) : Nat := a * b / 2 ^ P

/-- Sum of the terms of a series from the first on; `next` makes term k + 1 of term k. -/
def series (n : Nat) (next : Nat → Nat → Nat) (t0 : Nat) : Nat :=
  ((List.range n).foldl (fun (a : Nat × Nat) k => (a.1 + a.2, next k a.2)) (0, t0)).1

/-- The same with alternating signs. -/
def altSeries (n : Nat) (next : Nat → Nat → Nat) (t0 : Nat) : Nat :=
  let r := (List.range n).foldl (fun (a : Int × Nat) k =>
    (if k % 2 = 0 then a.1 + a.2 else a.1 - a.2, next k a.2)) ((0 : Int), t0)
  r.1.toNat

/-- ln 2 as Σ 1 ⁄ (k 2^k). -/
def ln2 : Nat := (List.range (P + 8)).foldl (fun a k => a + fone / ((k + 1) * 2 ^ (k + 1))) 0

/-- arctan (1 ⁄ n). -/
def atanInv (n : Nat) : Nat :=
  ((List.range 130).foldl (fun (a : Int × Nat) k =>
    (if k % 2 = 0 then a.1 + a.2 / (2 * k + 1) else a.1 - a.2 / (2 * k + 1), a.2 / (n * n))) ((0 : Int), fone / n)).1.toNat

/-- π by Machin's formula. -/
def piF : Nat := 4 * (4 * atanInv 5 - atanInv 239)

/-- e^x for 0 ≤ x < 1. -/
def expF (x : Nat) : Nat := series 110 (fun k t => fmul t x / (k + 1)) fone

/-- ln x for 1 ≤ x < 2, by 2 artanh ((x − 1) ⁄ (x + 1)). -/
def lnF (x : Nat) : Nat :=
  let z := (x - fone) * fone / (x + fone)
  let z2 := fmul z z
  2 * ((List.range 170).foldl (fun (a : Nat × Nat) k => (a.1 + a.2 / (2 * k + 1), fmul a.2 z2)) (0, z)).1

/-- sin x and cos x for 0 ≤ x ≤ π ⁄ 2. -/
def sinF (x : Nat) : Nat := altSeries 60 (fun k t => fmul (fmul t x) x / ((2 * k + 2) * (2 * k + 3))) x
def cosF (x : Nat) : Nat := altSeries 60 (fun k t => fmul (fmul t x) x / ((2 * k + 1) * (2 * k + 2))) fone

/-- m × 2^e in fixed point, its fraction below 2^-P cut off. -/
def toFix (m : Nat) (e : Int) : Nat := if -(P : Int) ≤ e then m * 2 ^ (e + P).toNat else m / 2 ^ (-(P : Int) - e).toNat

/-- 2^a for finite a: correctly rounded, exact only for integers (R141). -/
def Fmt.exp2 (f : Fmt) (mode : Rnd) (ftz neg : Bool) (m : Nat) (e : Int) : Nat × Nat :=
  if m = 0 then (f.oneBits, 0)
  else if 20 < e + Nat.size m then
    -- far outside every format: one unit at an exponent beyond overflow, or below the smallest denormal
    if neg then f.round mode ftz false 1 (f.emin - f.fb - 8) true else f.round mode ftz false 1 (f.bias + 8) true
  else
    let x : Int := if neg then -(toFix m e : Int) else toFix m e
    let n := x / fone
    let fr := (x % fone).toNat
    if fr = 0 then f.round mode ftz false 1 n false
    else f.round mode ftz false (expF (fmul fr ln2)) (n - P) true

/-- log2 a for finite a > 0: exact only for powers of two (R141). -/
def Fmt.log2 (f : Fmt) (mode : Rnd) (ftz : Bool) (m : Nat) (e : Int) : Nat × Nat :=
  let k := Nat.size m - 1
  let x := m * 2 ^ P / 2 ^ k
  let n : Int := e + k
  if x = fone then (if n = 0 then (0, 0) else f.round mode ftz (decide (n < 0)) n.natAbs 0 false)
  else
    let v : Int := n * fone + (lnF x * fone / ln2 : Nat)
    f.round mode ftz (decide (v < 0)) v.natAbs (-P) true

/-- The reduced argument and the quadrant of |a| (R142): |a| = q π ⁄ 2 + r. -/
def reduce (m : Nat) (e : Int) : Nat × Nat :=
  let x := toFix m e
  let h := piF / 2
  (x / h % 4, x % h)

/-- sin a and cos a for finite nonzero a: sign and magnitude in fixed point. -/
def sinMag (neg : Bool) (m : Nat) (e : Int) : Bool × Nat :=
  let (q, r) := reduce m e
  (neg != decide (2 ≤ q), if q % 2 = 0 then sinF r else cosF r)
def cosMag (m : Nat) (e : Int) : Bool × Nat :=
  let (q, r) := reduce m e
  (q == 1 || q == 2, if q % 2 = 0 then cosF r else sinF r)

/-- tanh |a| for finite nonzero a: (1 − t) ⁄ (1 + t) with t = e^(−2 |a|); just below 1 where t vanishes. -/
def tanhMag (m : Nat) (e : Int) : Nat :=
  if 9 < e + Nat.size m then fone - 1
  else
    let y := 2 * toFix m e
    let t := (fone * fone / expF (y % ln2)) / 2 ^ (y / ln2)
    min ((fone - t) * fone / (fone + t)) (fone - 1)

end Sys2Proof.Machine
end

