-- ==== Sys2Proof/Machine/Integer.lean ====
section
/-!
DEFINITION. Machine/Integer.lean: the integer, bit-field, move, address and affine instructions (file 04, R98 to R123)
and the compares of integer types (R118).
-/
namespace Sys2Proof.Machine

/-! ## Numbers (R101, R102) -/

/-- I(x) of R101: a w-bit word under the type. -/
def ival (t : Ty) (x : Nat) : Int :=
  if t.signed && decide (2 ^ (t.width - 1) ≤ x) then (x : Int) - 2 ^ t.width else x

/-- Wrapped to w bits. -/
def wrapTo (w : Nat) (x : Int) : Nat := (x % 2 ^ w).toNat

/-- Lo(T) and Hi(T) of R101. -/
def tyLo (t : Ty) : Int := if t.signed then -(2 ^ (t.width - 1)) else 0
def tyHi (t : Ty) : Int := if t.signed then 2 ^ (t.width - 1) - 1 else 2 ^ t.width - 1
def satTo (t : Ty) (x : Int) : Int := min (max x (tyLo t)) (tyHi t)

/-- The result of R105 to R107: saturated or wrapped to the width. -/
def narrow (t : Ty) (sat : Bool) (x : Int) : Nat := wrapTo t.width (if sat then satTo t x else x)

/-- R102: the immediate as the last source of a type. -/
def immVal (t : Ty) (imm : Word) : Nat :=
  if t.regs = 2 then (if t = .n64 then imm.toNat else wrapTo 64 imm.toInt) else imm.toNat

/-- Signed value of a 32-bit word. -/
def sint32 (x : Nat) : Int := if 2 ^ 31 ≤ x then (x : Int) - 2 ^ 32 else x

/-- The 64-bit type of the same kind (R105 `.wide`). -/
def wideOf (t : Ty) : Ty := if t = .s32 then .s64 else .n64

/-! ## Plans without a cause -/

/-- Each lane's value goes to D (R98). -/
def planD (cx : Cx) (d : Opnd) (n : Nat) (val : Nat → Nat) : Plan :=
  { run := fun ls s => cx.putD d n ls val s }

/-! ## Affine form (R119 to R121) -/

/-- A 32-bit source counts as affine (R120). -/
def Cx.aff32 (cx : Cx) (s : State) : Opnd → Bool
  | .v r => (s.wave cx.sel.wk).isAff32 r
  | .sp z => z.uniform || z == .laneid
  | _ => false

/-- A 64-bit source counts as affine. -/
def Cx.aff64 (cx : Cx) (s : State) : Opnd → Bool
  | .v r => (s.wave cx.sel.wk).isAff64 r
  | .sp z => z == .zero || z == .watch
  | _ => false

/-- An affine source of stride 0: lanes 0 and 1 read alike. -/
def Cx.flat (cx : Cx) (s : State) (f : Fld) (o : Opnd) (n : Nat) : Bool := cx.src s f o n 0 == cx.src s f o n 1

/-- D takes an affine form (R121): its own 32-bit form, or the 64-bit form of the pair. -/
def Cx.form (cx : Cx) (d : Opnd) (n : Nat) (on : Bool) (s : State) : State :=
  match d with
  | .v r =>
    if on && cx.act.length == 32 then
      s.modWave cx.sel.wk (fun w =>
        if n = 2 then { w with aff64 := w.aff64.set false r true } else { w with aff32 := w.aff32.set false r true })
    else s
  | _ => s

/-- As `planD`, with the form of D. -/
def planA (cx : Cx) (d : Opnd) (n : Nat) (on : Bool) (val : Nat → Nat) : Plan :=
  { run := fun ls s => cx.form d n on (cx.putD d n ls val s) }

/-! ## Operand shapes -/

def IntR.A (f : IntR) (cx : Cx) (s : State) (l : Nat) : Nat := cx.src s .A f.a f.w l
def IntR.B (f : IntR) (cx : Cx) (s : State) (l : Nat) : Nat := cx.src s .B f.b f.w l
def IntR.C (f : IntR) (cx : Cx) (s : State) (l : Nat) : Nat := cx.src s .C f.c f.w l
def IntR.B1 (f : IntR) (cx : Cx) (s : State) (l : Nat) : Nat := cx.src s .B f.b 1 l
def IntR.C1 (f : IntR) (cx : Cx) (s : State) (l : Nat) : Nat := cx.src s .C f.c 1 l
def IntI.A (f : IntI) (cx : Cx) (s : State) (l : Nat) : Nat := cx.src s .A f.a f.w l

/-- A function of A and B under the type, RRR and RI. -/
def binR (f : IntR) (op : Int → Int → Nat) (cx : Cx) (s : State) : Plan :=
  planD cx f.d f.w (fun l => op (ival f.ty (IntR.A f cx s l)) (ival f.ty (IntR.B f cx s l)))
def binI (f : IntI) (op : Int → Int → Nat) (cx : Cx) (s : State) : Plan :=
  planD cx f.d f.w (fun l => op (ival f.ty (IntI.A f cx s l)) (ival f.ty (immVal f.ty f.imm)))

/-- A function of A alone. -/
def unR (f : IntR) (n : Nat) (op : Nat → Nat) (cx : Cx) (s : State) : Plan :=
  planD cx f.d n (fun l => op (IntR.A f cx s l))

/-- R121: 32-bit `add` and `sub` without SAT write affine sums. -/
def addForm (t : Ty) (sat : Bool) : Bool := t.regs == 1 && !sat

/-! ## Arithmetic (R105 to R109) -/

def execAdd (f : IntR) (s : State) : Host.Outcome State Fault Refusal := issue (.add f) f.h s (fun cx s =>
  planA cx f.d f.w (addForm f.ty f.sat && cx.aff32 s f.a && cx.aff32 s f.b)
    (fun l => narrow f.ty f.sat (ival f.ty (IntR.A f cx s l) + ival f.ty (IntR.B f cx s l))))
def execAddRi (f : IntI) (s : State) : Host.Outcome State Fault Refusal := issue (.addRi f) f.h s (fun cx s =>
  planA cx f.d f.w (addForm f.ty f.sat && cx.aff32 s f.a)
    (fun l => narrow f.ty f.sat (ival f.ty (IntI.A f cx s l) + ival f.ty (immVal f.ty f.imm))))
def execSub (f : IntR) (s : State) : Host.Outcome State Fault Refusal := issue (.sub f) f.h s (fun cx s =>
  planA cx f.d f.w (addForm f.ty f.sat && cx.aff32 s f.a && cx.aff32 s f.b)
    (fun l => narrow f.ty f.sat (ival f.ty (IntR.A f cx s l) - ival f.ty (IntR.B f cx s l))))
def execSubRi (f : IntI) (s : State) : Host.Outcome State Fault Refusal := issue (.subRi f) f.h s (fun cx s =>
  planA cx f.d f.w (addForm f.ty f.sat && cx.aff32 s f.a)
    (fun l => narrow f.ty f.sat (ival f.ty (IntI.A f cx s l) - ival f.ty (immVal f.ty f.imm))))

/-- R105 `mul` and `mad`: with WIDE the 64-bit product, else narrowed to the type. -/
def product (t : Ty) (sat wide : Bool) (a b c : Int) : Nat :=
  if wide then wrapTo 64 (a * b + c) else narrow t sat (a * b + c)

def execMul (f : IntR) (s : State) : Host.Outcome State Fault Refusal := issue (.mul f) f.h s (fun cx s =>
  planD cx f.d f.wideN (fun l =>
    product f.ty f.sat f.wide (ival f.ty (IntR.A f cx s l)) (ival f.ty (IntR.B f cx s l)) 0))
def execMulRi (f : IntI) (s : State) : Host.Outcome State Fault Refusal := issue (.mulRi f) f.h s (fun cx s =>
  planD cx f.d f.wideN (fun l =>
    product f.ty f.sat f.wide (ival f.ty (IntI.A f cx s l)) (ival f.ty (immVal f.ty f.imm)) 0))
def execMulhi (f : IntR) (s : State) : Host.Outcome State Fault Refusal := issue (.mulhi f) f.h s
  (binR f (fun a b => wrapTo f.ty.width ((a * b) / 2 ^ f.ty.width)))
def execMad (f : IntR) (s : State) : Host.Outcome State Fault Refusal := issue (.mad f) f.h s (fun cx s =>
  planD cx f.d f.wideN (fun l =>
    product f.ty f.sat f.wide (ival f.ty (IntR.A f cx s l)) (ival f.ty (IntR.B f cx s l))
      (ival (if f.wide then wideOf f.ty else f.ty) (cx.src s .C f.c f.wideN l))))

/-- R106. -/
def divRes (t : Ty) (sat : Bool) (a b : Int) : Nat :=
  if b = 0 then wrapTo t.width (if t.signed && decide (a < 0) then tyLo t else tyHi t)
  else narrow t sat (Int.tdiv a b)
/-- R106. -/
def remRes (t : Ty) (a b : Int) : Nat := wrapTo t.width (if b = 0 then a else Int.tmod a b)

def execDiv (f : IntR) (s : State) : Host.Outcome State Fault Refusal := issue (.div f) f.h s (binR f (divRes f.ty f.sat))
def execDivRi (f : IntI) (s : State) : Host.Outcome State Fault Refusal := issue (.divRi f) f.h s (binI f (divRes f.ty f.sat))
def execRem (f : IntR) (s : State) : Host.Outcome State Fault Refusal := issue (.rem f) f.h s (binR f (remRes f.ty))
def execRemRi (f : IntI) (s : State) : Host.Outcome State Fault Refusal := issue (.remRi f) f.h s (binI f (remRes f.ty))
def execNeg (f : IntR) (s : State) : Host.Outcome State Fault Refusal := issue (.neg f) f.h s
  (unR f f.w (fun a => narrow f.ty f.sat (-(ival f.ty a))))
def execAbs (f : IntR) (s : State) : Host.Outcome State Fault Refusal := issue (.abs f) f.h s
  (unR f f.w (fun a => narrow f.ty f.sat |ival f.ty a|))
def execMin (f : IntR) (s : State) : Host.Outcome State Fault Refusal := issue (.min f) f.h s
  (binR f (fun a b => wrapTo f.ty.width (min a b)))
def execMinRi (f : IntI) (s : State) : Host.Outcome State Fault Refusal := issue (.minRi f) f.h s
  (binI f (fun a b => wrapTo f.ty.width (min a b)))
def execMax (f : IntR) (s : State) : Host.Outcome State Fault Refusal := issue (.max f) f.h s
  (binR f (fun a b => wrapTo f.ty.width (max a b)))
def execMaxRi (f : IntI) (s : State) : Host.Outcome State Fault Refusal := issue (.maxRi f) f.h s
  (binI f (fun a b => wrapTo f.ty.width (max a b)))
def execClamp (f : IntR) (s : State) : Host.Outcome State Fault Refusal := issue (.clamp f) f.h s (fun cx s =>
  planD cx f.d f.w (fun l => wrapTo f.ty.width
    (min (max (ival f.ty (IntR.A f cx s l)) (ival f.ty (IntR.B f cx s l))) (ival f.ty (IntR.C f cx s l)))))

/-- R108: the sum or difference in the low word, carry or borrow out in the high word. -/
def carryPair (x : Int) : Nat := wrapTo 32 x + (if x < 0 ∨ 2 ^ 32 ≤ x then 2 ^ 32 else 0)

def execAddc (f : IntR) (s : State) : Host.Outcome State Fault Refusal := issue (.addc f) f.h s (fun cx s =>
  planD cx f.d 2 (fun l => carryPair
    (IntR.A f cx s l + IntR.B f cx s l + (IntR.C1 f cx s l % 2 : Nat))))
def execSubb (f : IntR) (s : State) : Host.Outcome State Fault Refusal := issue (.subb f) f.h s (fun cx s =>
  planD cx f.d 2 (fun l => carryPair
    ((IntR.A f cx s l : Int) - (IntR.B f cx s l : Int) - ((IntR.C1 f cx s l % 2 : Nat) : Int))))

/-- Packed element i of e bits (R109). -/
def packed (e : Nat) (signed : Bool) (x i : Nat) : Int :=
  let v := x / 2 ^ (e * i) % 2 ^ e
  if signed && decide (2 ^ (e - 1) ≤ v) then (v : Int) - 2 ^ e else v

def sumTo (n : Nat) (g : Nat → Int) : Int := (List.range n).foldl (fun a i => a + g i) 0

def execSad (f : IntR) (s : State) : Host.Outcome State Fault Refusal := issue (.sad f) f.h s (fun cx s =>
  planD cx f.d 1 (fun l => wrapTo 32 (cx.src s .C f.c 1 l + sumTo (32 / f.ty.elem) (fun i =>
    |packed f.ty.elem f.ty.signed (cx.src s .A f.a 1 l) i - packed f.ty.elem f.ty.signed (cx.src s .B f.b 1 l) i|))))
def execDot4 (f : IntR) (s : State) : Host.Outcome State Fault Refusal := issue (.dot4 f) f.h s (fun cx s =>
  planD cx f.d 1 (fun l => wrapTo 32 (cx.src s .C f.c 1 l + sumTo 4 (fun i =>
    packed 8 f.ty.signed (cx.src s .A f.a 1 l) i
      * packed 8 (f.ty.signed != f.sub.getLsbD 0) (cx.src s .B f.b 1 l) i))))

/-! ## Logic, shifts and bit fields (R110 to R114) -/

/-- A bitwise function of A and B. -/
def bitR (f : IntR) (op : Nat → Nat → Nat) (cx : Cx) (s : State) : Plan :=
  planD cx f.d f.w (fun l => op (IntR.A f cx s l) (IntR.B f cx s l))
def bitI (f : IntI) (op : Nat → Nat → Nat) (cx : Cx) (s : State) : Plan :=
  planD cx f.d f.w (fun l => op (IntI.A f cx s l) (immVal f.ty f.imm))
/-- All w bits flipped. -/
def notTo (w x : Nat) : Nat := 2 ^ w - 1 - x

def execAnd (f : IntR) (s : State) : Host.Outcome State Fault Refusal := issue (.and f) f.h s (bitR f Nat.land)
def execAndRi (f : IntI) (s : State) : Host.Outcome State Fault Refusal := issue (.andRi f) f.h s (bitI f Nat.land)
def execOr (f : IntR) (s : State) : Host.Outcome State Fault Refusal := issue (.or f) f.h s (bitR f Nat.lor)
def execOrRi (f : IntI) (s : State) : Host.Outcome State Fault Refusal := issue (.orRi f) f.h s (bitI f Nat.lor)
def execXor (f : IntR) (s : State) : Host.Outcome State Fault Refusal := issue (.xor f) f.h s (bitR f Nat.xor)
def execXorRi (f : IntI) (s : State) : Host.Outcome State Fault Refusal := issue (.xorRi f) f.h s (bitI f Nat.xor)
def execNot (f : IntR) (s : State) : Host.Outcome State Fault Refusal := issue (.not f) f.h s (unR f f.w (notTo f.ty.width))
def execAndn (f : IntR) (s : State) : Host.Outcome State Fault Refusal := issue (.andn f) f.h s
  (bitR f (fun a b => Nat.land a (notTo f.ty.width b)))

/-- R111, with k from bits 7:0 of the count. -/
def shlRes (w a b : Nat) : Nat := if b % 256 < w then a * 2 ^ (b % 256) % 2 ^ w else 0
def shrRes (t : Ty) (a b : Nat) : Nat :=
  if b % 256 < t.width then wrapTo t.width (ival t a / 2 ^ (b % 256)) else if ival t a < 0 then 2 ^ t.width - 1 else 0
def rotRes (w a b : Nat) : Nat := a * 2 ^ (b % 256 % w) % 2 ^ w + a / 2 ^ (w - b % 256 % w)

def execShl (f : IntR) (s : State) : Host.Outcome State Fault Refusal := issue (.shl f) f.h s (fun cx s =>
  planA cx f.d f.w (f.w == 1 && cx.aff32 s f.a && cx.aff32 s f.b && cx.flat s .B f.b 1)
    (fun l => shlRes f.ty.width (IntR.A f cx s l) (IntR.B1 f cx s l)))
def execShlRi (f : IntI) (s : State) : Host.Outcome State Fault Refusal := issue (.shlRi f) f.h s (fun cx s =>
  planA cx f.d f.w (f.w == 1 && cx.aff32 s f.a) (fun l => shlRes f.ty.width (IntI.A f cx s l) f.imm.toNat))
def execShr (f : IntR) (s : State) : Host.Outcome State Fault Refusal := issue (.shr f) f.h s (fun cx s =>
  planD cx f.d f.w (fun l => shrRes f.ty (IntR.A f cx s l) (IntR.B1 f cx s l)))
def execShrRi (f : IntI) (s : State) : Host.Outcome State Fault Refusal := issue (.shrRi f) f.h s (fun cx s =>
  planD cx f.d f.w (fun l => shrRes f.ty (IntI.A f cx s l) f.imm.toNat))
def execRot (f : IntR) (s : State) : Host.Outcome State Fault Refusal := issue (.rot f) f.h s (fun cx s =>
  planD cx f.d f.w (fun l => rotRes f.ty.width (IntR.A f cx s l) (IntR.B1 f cx s l)))
def execRotRi (f : IntI) (s : State) : Host.Outcome State Fault Refusal := issue (.rotRi f) f.h s (fun cx s =>
  planD cx f.d f.w (fun l => rotRes f.ty.width (IntI.A f cx s l) f.imm.toNat))

/-- Field position and length of R112. -/
def fieldPos (b : Nat) : Nat := b % 256
def fieldLen (b : Nat) : Nat := min (b / 256 % 256) 32

/-- R112: the source is extended above bit 31, the field is cut out and extended from its highest bit. -/
def bfxRes (t : Ty) (a b : Nat) : Nat :=
  let f := (ival t a / 2 ^ fieldPos b % 2 ^ fieldLen b).toNat
  if fieldLen b = 0 then 0
  else if t.signed && decide (2 ^ (fieldLen b - 1) ≤ f) then wrapTo 32 ((f : Int) - 2 ^ fieldLen b) else f

/-- R112. -/
def bfiRes (base a b : Nat) : Nat :=
  (List.range 32).foldl (fun x i =>
    let bit := if fieldPos b ≤ i ∧ i < fieldPos b + fieldLen b then bitN a (i - fieldPos b) else bitN base i
    x + bit.toNat * 2 ^ i) 0

def execBfx (f : IntR) (s : State) : Host.Outcome State Fault Refusal := issue (.bfx f) f.h s (fun cx s =>
  planD cx f.d 1 (fun l => bfxRes f.ty (IntR.A f cx s l) (IntR.B1 f cx s l)))
def execBfxRi (f : IntI) (s : State) : Host.Outcome State Fault Refusal := issue (.bfxRi f) f.h s (fun cx s =>
  planD cx f.d 1 (fun l => bfxRes f.ty (IntI.A f cx s l) f.imm.toNat))
def execBfi (f : IntR) (s : State) : Host.Outcome State Fault Refusal := issue (.bfi f) f.h s (fun cx s =>
  planD cx f.d 1 (fun l => bfiRes (IntR.C1 f cx s l) (IntR.A f cx s l) (IntR.B1 f cx s l)))
def execBfiRi (f : IntI) (s : State) : Host.Outcome State Fault Refusal := issue (.bfiRi f) f.h s (fun cx s =>
  planD cx f.d 1 (fun l => bfiRes (cx.src s .D f.d 1 l) (IntI.A f cx s l) f.imm.toNat))

/-- R113. -/
def popcRes (w a : Nat) : Nat := ((List.range w).filter (fun i => bitN a i)).length
def clzRes (w a : Nat) : Nat := w - Nat.size a
def ctzRes (w a : Nat) : Nat := (lowest w (fun i => bitN a i)).getD w
def brevRes (w a : Nat) : Nat := (List.range w).foldl (fun x i => x + (bitN a i).toNat * 2 ^ (w - 1 - i)) 0

def execPopc (f : IntR) (s : State) : Host.Outcome State Fault Refusal := issue (.popc f) f.h s (unR f 1 (popcRes f.ty.width))
def execClz (f : IntR) (s : State) : Host.Outcome State Fault Refusal := issue (.clz f) f.h s (unR f 1 (clzRes f.ty.width))
def execCtz (f : IntR) (s : State) : Host.Outcome State Fault Refusal := issue (.ctz f) f.h s (unR f 1 (ctzRes f.ty.width))
def execBrev (f : IntR) (s : State) : Host.Outcome State Fault Refusal := issue (.brev f) f.h s (unR f f.w (brevRes f.ty.width))

/-- R114: the pool is A below B. -/
def bpickRes (a b sel : Nat) : Nat :=
  (List.range 4).foldl (fun x i =>
    let y := (a + 2 ^ 32 * b) / 2 ^ (8 * bits sel (3 * i + 2) (3 * i)) % 256
    let z := match bits sel (13 + 2 * i) (12 + 2 * i) with
      | 0 => y
      | 1 => 0
      | 2 => if 128 ≤ y then 255 else 0
      | _ => 255
    x + z * 2 ^ (8 * i)) 0

def execBpick (f : IntR) (s : State) : Host.Outcome State Fault Refusal := issue (.bpick f) f.h s (fun cx s =>
  planD cx f.d 1 (fun l => bpickRes (IntR.A f cx s l) (IntR.B1 f cx s l) (IntR.C1 f cx s l)))
def execBpickRi (f : IntI) (s : State) : Host.Outcome State Fault Refusal := issue (.bpickRi f) f.h s (fun cx s =>
  planD cx f.d 1 (fun l => bpickRes (IntI.A f cx s l) 0 f.imm.toNat))

/-- R110: bit i is the entry of FN that a, b and c pick. -/
def bfnRes (w fn a b c : Nat) : Nat :=
  (List.range w).foldl (fun x i =>
    x + (bitN fn ((bitN a i).toNat + 2 * (bitN b i).toNat + 4 * (bitN c i).toNat)).toNat * 2 ^ i) 0

def execBfn (f : IntR) (s : State) : Host.Outcome State Fault Refusal := issue (.bfn f) f.h s (fun cx s =>
  planD cx f.d f.w (fun l => bfnRes f.ty.width f.sub.toNat (IntR.A f cx s l) (IntR.B f cx s l) (IntR.C f cx s l)))

/-! ## Moves, selection and addresses (R115 to R117) -/

def execMov (f : IntR) (s : State) : Host.Outcome State Fault Refusal := issue (.mov f) f.h s (fun cx s =>
  planA cx f.d f.w (if f.w = 2 then cx.aff64 s f.a else cx.aff32 s f.a) (fun l => IntR.A f cx s l))

/-- The register of a pair that is not written keeps a 32-bit form of stride 0 (R121). -/
def Cx.keepsFlat (cx : Cx) (s : State) (d : Opnd) (off : Nat) : Bool :=
  match d with
  | .v r => (s.wave cx.sel.wk).isAff32 (r + off) && (s.wave cx.sel.wk).raw (r + off) 0 == (s.wave cx.sel.wk).raw (r + off) 1
  | _ => false

def opndNext : Opnd → Opnd
  | .v r => .v (r + 1)
  | .k r => .k (r + 1)
  | o => o

/-- One register of a pair written with an immediate; the pair takes the 64-bit form when it may (R121). -/
def movPart (cx : Cx) (pair one : Opnd) (flat : Bool) (imm : Word) : Plan :=
  { run := fun ls s => cx.form pair 2 flat (cx.putD one 1 ls (fun _ => imm.toNat) s) }

/-- R115: PART 1 writes the low register, PART 2 the high one. -/
def execMovRi (f : IntI) (s : State) : Host.Outcome State Fault Refusal := issue (.movRi f) f.h s (fun cx s =>
  match f.sub.toNat with
  | 0 => planA cx f.d f.w true (fun _ => immVal f.ty f.imm)
  | 1 => movPart cx f.d f.d (cx.keepsFlat s f.d 1) f.imm
  | _ => movPart cx f.d (opndNext f.d) (cx.keepsFlat s f.d 0) f.imm)

def execSel (f : IntR) (s : State) : Host.Outcome State Fault Refusal := issue (.sel f) f.h s (fun cx s =>
  planD cx f.d f.w (fun l => if bitN (IntR.C1 f cx s l) 0 then IntR.A f cx s l else IntR.B f cx s l))

/-- R117. -/
def leaIndex (t : Ty) (b : Nat) : Int := if t = .s32 then sint32 b else b
def leaRes (t : Ty) (sh a b : Nat) : Nat := wrapTo 64 (a + leaIndex t b * 2 ^ sh)
def saddRes (sh a b : Nat) : Nat := (a * 2 ^ sh + b) % 2 ^ 32

/-- R121: the index values over lanes 0 to 31 form an exact arithmetic sequence. -/
def exactSeq (g : Nat → Int) : Bool := (List.range 32).all (fun l => g l == g 0 + l * (g 1 - g 0))

def execLea (f : IntR) (s : State) : Host.Outcome State Fault Refusal := issue (.lea f) f.h s (fun cx s =>
  planA cx f.d 2 (cx.aff64 s f.a && cx.flat s .A f.a 2 && cx.aff32 s f.b &&
      exactSeq (fun l => leaIndex f.ty (IntR.B1 f cx s l)))
    (fun l => leaRes f.ty f.shift (cx.src s .A f.a 2 l) (IntR.B1 f cx s l)))
def execLeaRi (f : IntI) (s : State) : Host.Outcome State Fault Refusal := issue (.leaRi f) f.h s (fun cx s =>
  planA cx f.d 2 (cx.aff64 s f.a && cx.flat s .A f.a 2)
    (fun l => leaRes f.ty f.shift (cx.src s .A f.a 2 l) f.imm.toNat))
def execSadd (f : IntR) (s : State) : Host.Outcome State Fault Refusal := issue (.sadd f) f.h s (fun cx s =>
  planA cx f.d 1 (cx.aff32 s f.a && cx.aff32 s f.b)
    (fun l => saddRes f.shift (IntR.A f cx s l) (IntR.B1 f cx s l)))
def execSaddRi (f : IntI) (s : State) : Host.Outcome State Fault Refusal := issue (.saddRi f) f.h s (fun cx s =>
  planA cx f.d 1 (cx.aff32 s f.a) (fun l => saddRes f.shift (IntI.A f cx s l) f.imm.toNat))

/-! ## Affine instructions (R122, R123) -/

def execAfset (f : IntR) (s : State) : Host.Outcome State Fault Refusal := issue (.afset f) f.h s (fun cx s =>
  planA cx f.d 1 true (fun l => (IntR.A f cx s cx.F + l * IntR.B1 f cx s cx.F) % 2 ^ 32))
def execAfsetRi (f : IntI) (s : State) : Host.Outcome State Fault Refusal := issue (.afsetRi f) f.h s (fun cx s =>
  planA cx f.d 1 true (fun l => (IntI.A f cx s cx.F + l * f.imm.toNat) % 2 ^ 32))
def execAftest (f : IntR) (s : State) : Host.Outcome State Fault Refusal := issue (.aftest f) f.h s (fun cx s =>
  planD cx f.d 1 (fun _ => (match f.a with
    | .v r => (s.wave cx.sel.wk).tested s.tick r f.w
    | _ => false).toNat))
/-- R123: the form ends in every lane; no value changes. The form of one register of a pair in 64-bit form ends the pair's
form with it, as a write does (log entry 71). -/
def execAfclr (f : IntR) (s : State) : Host.Outcome State Fault Refusal := issue (.afclr f) f.h s (fun cx _ =>
  { run := fun _ s => match f.d with
      | .v r => s.modWave cx.sel.wk (fun w => if f.w = 2 then (w.plain r).plain (r + 1) else w.plain r)
      | _ => s })

/-! ## Integer compares (R118) -/

/-- An ordered comparison. -/
def condInt (c : Cond) (a b : Int) : Bool :=
  match c with
  | .eq => a == b
  | .ne => a != b
  | .lt => decide (a < b)
  | .le => decide (a ≤ b)
  | .gt => decide (b < a)
  | .ge => decide (b ≤ a)
  | _ => false

end Sys2Proof.Machine
end

