-- ==== Sys2Proof/Machine/Float.lean ====
section
/-!
DEFINITION. Machine/Float.lean: the float instructions (R133 to R146), the compares (R118, R147) and the conversions
(R148 to R151).
-/
namespace Sys2Proof.Machine

/-! ## Elements (R125) -/

def isPacked : Ty → Bool
  | .f16x2 | .bf16x2 => true
  | _ => false

/-- Element i of a source as the bits of its format. -/
def elem (t : Ty) (x i : Nat) : Nat := if isPacked t then x / 2 ^ (16 * i) % 2 ^ 16 else x % 2 ^ (fmtOf t).width

/-- The elements of a result side by side, their flags together. -/
def eachElem (t : Ty) (g : Nat → Nat × Nat) : Nat × Nat :=
  if isPacked t then ((g 0).1 + 2 ^ 16 * (g 1).1, Nat.lor (g 0).2 (g 1).2) else g 0

/-- R134. -/
def fImm (t : Ty) (imm : Word) : Nat :=
  if t = .f64 then (F64.enc .rn false (F32.val false imm.toNat)).1 else imm.toNat

def FltR.A (f : FltR) (cx : Cx) (s : State) (l : Nat) : Nat := cx.src s .A f.a f.w l
def FltR.B (f : FltR) (cx : Cx) (s : State) (l : Nat) : Nat := cx.src s .B f.b f.w l
def FltR.C (f : FltR) (cx : Cx) (s : State) (l : Nat) : Nat := cx.src s .C f.c f.w l
def FltI.A (f : FltI) (cx : Cx) (s : State) (l : Nat) : Nat := cx.src s .A f.a f.w l

/-- The rounding mode of an instruction in its wave (R128). -/
def Cx.mode (cx : Cx) (s : State) (r : Rnd) : Rnd := modeOf (s.wave cx.sel.wk).fpctl r

/-- One operand, element by element: the value function gets the mode, the value, and a choice of its own. -/
def fun1 (f : FltR) (op : Rnd → Bool → FV → Nat × Nat) (cx : Cx) (s : State) : Plan :=
  planF cx s f.d f.w (fun l => eachElem f.ty (fun i =>
    op (cx.mode s f.rnd) (Config.choice s.tick (2 * l + i)) ((fmtOf f.ty).val f.ftz (elem f.ty (FltR.A f cx s l) i))))

/-- Two operands. -/
def fun2 (f : FltR) (op : Rnd → FV → FV → Nat × Nat) (cx : Cx) (s : State) : Plan :=
  planF cx s f.d f.w (fun l => eachElem f.ty (fun i =>
    op (cx.mode s f.rnd) ((fmtOf f.ty).val f.ftz (elem f.ty (FltR.A f cx s l) i))
      ((fmtOf f.ty).val f.ftz (elem f.ty (FltR.B f cx s l) i))))

/-- Two operands, the last an immediate. -/
def fun2I (f : FltI) (op : Rnd → FV → FV → Nat × Nat) (cx : Cx) (s : State) : Plan :=
  planF cx s f.d f.w (fun l => eachElem f.ty (fun i =>
    op (cx.mode s f.rnd) ((fmtOf f.ty).val f.ftz (elem f.ty (FltI.A f cx s l) i))
      ((fmtOf f.ty).val f.ftz (elem f.ty (fImm f.ty f.imm) i))))

/-! ## Arithmetic (R137) -/

def faddOp (t : Ty) (ftz sat : Bool) (m : Rnd) (a b : FV) : Nat × Nat := (fmtOf t).fin m ftz sat (sumFV m [a, b])
def fmulOp (t : Ty) (ftz sat : Bool) (m : Rnd) (a b : FV) : Nat × Nat := (fmtOf t).fin m ftz sat (mulFV a b)

/-- Fused multiply-add: NV for 0 × ∞ even beside a NaN. -/
def ffmaOp (t : Ty) (ftz sat : Bool) (m : Rnd) (a b c : FV) : Nat × Nat :=
  if zeroInf a b then (fmtOf t).fin m ftz sat (.nan, fNV)
  else (fmtOf t).fin m ftz sat (sumFV m [(mulFV a b).1, c])

def execFadd (f : FltR) (s : State) : Host.Outcome State Fault Refusal := issue (.fadd f) f.h s (fun2 f (faddOp f.ty f.ftz f.sat))
def execFaddRi (f : FltI) (s : State) : Host.Outcome State Fault Refusal := issue (.faddRi f) f.h s (fun2I f (faddOp f.ty f.ftz f.sat))
def execFsub (f : FltR) (s : State) : Host.Outcome State Fault Refusal := issue (.fsub f) f.h s
  (fun2 f (fun m a b => faddOp f.ty f.ftz f.sat m a b.flip))
def execFsubRi (f : FltI) (s : State) : Host.Outcome State Fault Refusal := issue (.fsubRi f) f.h s
  (fun2I f (fun m a b => faddOp f.ty f.ftz f.sat m a b.flip))
def execFmul (f : FltR) (s : State) : Host.Outcome State Fault Refusal := issue (.fmul f) f.h s (fun2 f (fmulOp f.ty f.ftz f.sat))
def execFmulRi (f : FltI) (s : State) : Host.Outcome State Fault Refusal := issue (.fmulRi f) f.h s (fun2I f (fmulOp f.ty f.ftz f.sat))
def execFfma (f : FltR) (s : State) : Host.Outcome State Fault Refusal := issue (.ffma f) f.h s (fun cx s =>
  planF cx s f.d f.w (fun l => eachElem f.ty (fun i =>
    let v := fun x => (fmtOf f.ty).val f.ftz (elem f.ty x i)
    ffmaOp f.ty f.ftz f.sat (cx.mode s f.rnd) (v (FltR.A f cx s l)) (v (FltR.B f cx s l)) (v (FltR.C f cx s l)))))

/-! ## Order (R138) -/

/-- a < b of two values that are no NaN; −0 counts below +0. -/
def ltFV (a b : FV) : Bool :=
  match a, b with
  | .nan, _ | _, .nan => false
  | .inf n, .inf n' => n && !n'
  | .inf n, .fin .. => n
  | .fin .., .inf n => !n
  | .fin n m e, .fin n' m' e' =>
    if m = 0 ∧ m' = 0 then n && !n'
    else
      let k := min e e'
      let x : Int := (if n then -1 else 1) * (m * 2 ^ (e - k).toNat : Nat)
      let y : Int := (if n' then -1 else 1) * (m' * 2 ^ (e' - k).toNat : Nat)
      decide (x < y)

/-- The bits of an operand as read: with FTZ a denormal is a zero of its sign (R127). -/
def asRead (f : Fmt) (ftz : Bool) (x : Nat) : Nat :=
  match f.val ftz x with
  | .fin n 0 _ => f.withSign n 0
  | _ => x

/-- `fmin` (low) and `fmax` on bits (R138). -/
def minmax (f : Fmt) (ftz low : Bool) (x y : Nat) : Nat :=
  let a := f.val ftz x
  let b := f.val ftz y
  if a.isNan && b.isNan then f.nanBits
  else if a.isNan then asRead f ftz y
  else if b.isNan then asRead f ftz x
  else if (if low then ltFV b a else ltFV a b) then asRead f ftz y else asRead f ftz x

/-- Results that raise no flag and are computed on bits. -/
def bits2 (f : FltR) (op : Nat → Nat → Nat) (cx : Cx) (s : State) : Plan :=
  planF cx s f.d f.w (fun l => eachElem f.ty (fun i =>
    (op (elem f.ty (FltR.A f cx s l) i) (elem f.ty (FltR.B f cx s l) i), 0)))
def bits2I (f : FltI) (op : Nat → Nat → Nat) (cx : Cx) (s : State) : Plan :=
  planF cx s f.d f.w (fun l => eachElem f.ty (fun i =>
    (op (elem f.ty (FltI.A f cx s l) i) (elem f.ty (fImm f.ty f.imm) i), 0)))
def bits1 (f : FltR) (op : Nat → Nat) (cx : Cx) (s : State) : Plan :=
  planF cx s f.d f.w (fun l => eachElem f.ty (fun i => (op (elem f.ty (FltR.A f cx s l) i), 0)))

def execFmin (f : FltR) (s : State) : Host.Outcome State Fault Refusal := issue (.fmin f) f.h s (bits2 f (minmax (fmtOf f.ty) f.ftz true))
def execFminRi (f : FltI) (s : State) : Host.Outcome State Fault Refusal := issue (.fminRi f) f.h s (bits2I f (minmax (fmtOf f.ty) f.ftz true))
def execFmax (f : FltR) (s : State) : Host.Outcome State Fault Refusal := issue (.fmax f) f.h s (bits2 f (minmax (fmtOf f.ty) f.ftz false))
def execFmaxRi (f : FltI) (s : State) : Host.Outcome State Fault Refusal := issue (.fmaxRi f) f.h s (bits2I f (minmax (fmtOf f.ty) f.ftz false))
def execFclamp (f : FltR) (s : State) : Host.Outcome State Fault Refusal := issue (.fclamp f) f.h s (fun cx s =>
  planF cx s f.d f.w (fun l => eachElem f.ty (fun i =>
    let e := fun x => elem f.ty x i
    (minmax (fmtOf f.ty) f.ftz true
      (minmax (fmtOf f.ty) f.ftz false (e (FltR.A f cx s l)) (e (FltR.B f cx s l))) (e (FltR.C f cx s l)), 0))))

/-! ## Signs (R139) -/

/-- The sign bit of a element set to a given value. -/
def setSign (f : Fmt) (neg : Bool) (x : Nat) : Nat := f.withSign neg (x % f.signBit)

def execFabs (f : FltR) (s : State) : Host.Outcome State Fault Refusal := issue (.fabs f) f.h s (bits1 f (setSign (fmtOf f.ty) false))
def execFneg (f : FltR) (s : State) : Host.Outcome State Fault Refusal := issue (.fneg f) f.h s
  (bits1 f (fun x => setSign (fmtOf f.ty) (decide (x < (fmtOf f.ty).signBit)) x))
def execFcsgn (f : FltR) (s : State) : Host.Outcome State Fault Refusal := issue (.fcsgn f) f.h s
  (bits2 f (fun x y => setSign (fmtOf f.ty) (!decide (y < (fmtOf f.ty).signBit)) x))

/-! ## Quotients and roots (R140) -/

def fdivOp (t : Ty) (ftz sat : Bool) (m : Rnd) (a b : FV) : Nat × Nat :=
  let f := fmtOf t
  let r := match a, b with
    | .nan, _ | _, .nan => (f.nanBits, 0)
    | .inf _, .inf _ => (f.nanBits, fNV)
    | .inf n, .fin n' _ _ => (f.withSign (n != n') f.infBits, 0)
    | .fin n _ _, .inf n' => (f.withSign (n != n') 0, 0)
    | .fin n x e, .fin n' y e' =>
      if y = 0 then (if x = 0 then (f.nanBits, fNV) else (f.withSign (n != n') f.infBits, fDZ))
      else if x = 0 then (f.withSign (n != n') 0, 0)
      else f.quot m ftz (n != n') x e y e'
  (if sat then f.clamp01 r.1 else r.1, r.2)

def fsqrtOp (t : Ty) (ftz sat : Bool) (m : Rnd) (_ : Bool) (a : FV) : Nat × Nat :=
  let f := fmtOf t
  let r := match a with
    | .nan => (f.nanBits, 0)
    | .inf false => (f.infBits, 0)
    | .inf true => (f.nanBits, fNV)
    | .fin n x e =>
      if x = 0 then (f.withSign n 0, 0)
      else if n then (f.nanBits, fNV)
      else let q := rootOf f x e; f.round m ftz false q.1 q.2.1 q.2.2
  (if sat then f.clamp01 r.1 else r.1, r.2)

def frsqOp (t : Ty) (ftz : Bool) (_ : Rnd) (ch : Bool) (a : FV) : Nat × Nat :=
  let f := fmtOf t
  match a with
  | .nan => (f.nanBits, 0)
  | .inf false => (0, 0)
  | .inf true => (f.nanBits, fNV)
  | .fin n x e =>
    if x = 0 then (f.withSign n f.infBits, fDZ)
    else if n then (f.nanBits, fNV)
    else let q := rsqOf f x e; f.faithful ch ftz false q.1 q.2.1 q.2.2

def execFdiv (f : FltR) (s : State) : Host.Outcome State Fault Refusal := issue (.fdiv f) f.h s (fun2 f (fdivOp f.ty f.ftz f.sat))
def execFsqrt (f : FltR) (s : State) : Host.Outcome State Fault Refusal := issue (.fsqrt f) f.h s (fun1 f (fsqrtOp f.ty f.ftz f.sat))
def execFrcp (f : FltR) (s : State) : Host.Outcome State Fault Refusal := issue (.frcp f) f.h s
  (fun1 f (fun m _ a => fdivOp f.ty f.ftz f.sat m (.fin false 1 0) a))
def execFrsq (f : FltR) (s : State) : Host.Outcome State Fault Refusal := issue (.frsq f) f.h s (fun1 f (frsqOp f.ty f.ftz))

/-! ## Elementary functions (R141, R142) -/

def fex2Op (t : Ty) (ftz sat : Bool) (m : Rnd) (_ : Bool) (a : FV) : Nat × Nat :=
  let f := fmtOf t
  let r := match a with
    | .nan => (f.nanBits, 0)
    | .inf true => (0, 0)
    | .inf false => (f.infBits, 0)
    | .fin n x e => f.exp2 m ftz n x e
  (if sat then f.clamp01 r.1 else r.1, r.2)

def flg2Op (t : Ty) (ftz : Bool) (m : Rnd) (_ : Bool) (a : FV) : Nat × Nat :=
  let f := fmtOf t
  match a with
  | .nan => (f.nanBits, 0)
  | .inf true => (f.nanBits, fNV)
  | .inf false => (f.infBits, 0)
  | .fin n x e =>
    if x = 0 then (f.withSign true f.infBits, fDZ)
    else if n then (f.nanBits, fNV)
    else f.log2 m ftz x e

/-- `fsin` and `fcos`: faithful, NX for every finite nonzero input. -/
def trigOp (t : Ty) (ftz sine : Bool) (_ : Rnd) (ch : Bool) (a : FV) : Nat × Nat :=
  let f := fmtOf t
  match a with
  | .nan => (f.nanBits, 0)
  | .inf _ => (f.nanBits, fNV)
  | .fin n x e =>
    if x = 0 then (if sine then f.withSign n 0 else f.oneBits, 0)
    else
      let r := if sine then sinMag n x e else cosMag x e
      f.faithful ch ftz r.1 r.2 (-P) true

def ftanhOp (t : Ty) (ftz sat : Bool) (_ : Rnd) (ch : Bool) (a : FV) : Nat × Nat :=
  let f := fmtOf t
  let r := match a with
    | .nan => (f.nanBits, 0)
    | .inf n => (f.withSign n f.oneBits, 0)
    | .fin n x e => if x = 0 then (f.withSign n 0, 0) else f.faithful ch ftz n (tanhMag x e) (-P) true
  (if sat then f.clamp01 r.1 else r.1, r.2)

def execFex2 (f : FltR) (s : State) : Host.Outcome State Fault Refusal := issue (.fex2 f) f.h s (fun1 f (fex2Op f.ty f.ftz f.sat))
def execFlg2 (f : FltR) (s : State) : Host.Outcome State Fault Refusal := issue (.flg2 f) f.h s (fun1 f (flg2Op f.ty f.ftz))
def execFsin (f : FltR) (s : State) : Host.Outcome State Fault Refusal := issue (.fsin f) f.h s (fun1 f (trigOp f.ty f.ftz true))
def execFcos (f : FltR) (s : State) : Host.Outcome State Fault Refusal := issue (.fcos f) f.h s (fun1 f (trigOp f.ty f.ftz false))
def execFtanh (f : FltR) (s : State) : Host.Outcome State Fault Refusal := issue (.ftanh f) f.h s (fun1 f (ftanhOp f.ty f.ftz f.sat))

/-! ## Integral values and exponents (R143 to R145) -/

/-- Rounding to an integral value in the same format, which raises no NX. -/
def integralOp (t : Ty) (m : Rnd) (a : FV) : Nat × Nat :=
  let f := fmtOf t
  match a with
  | .nan => (f.nanBits, 0)
  | .inf n => (f.withSign n f.infBits, 0)
  | .fin n x e =>
    if 0 ≤ e then ((f.round .rn false n x e false).1, 0)
    else ((f.round .rn false n (cut m n x e false 0).1 0 false).1, 0)

/-- a − Floor(a) to nearest even, 1.0 becoming the largest value below it. -/
def ffracOp (t : Ty) (_ : Rnd) (_ : Bool) (a : FV) : Nat × Nat :=
  let f := fmtOf t
  match a with
  | .nan => (f.nanBits, 0)
  | .inf _ => (f.nanBits, fNV)
  | .fin n x e =>
    if 0 ≤ e then (0, 0)
    else
      let u := 2 ^ (-e).toNat
      let r := if n then (u - x % u) % u else x % u
      let y := f.round .rn false false r e false
      if r ≠ 0 ∧ y.1 = f.oneBits then (f.oneBits - 1, y.2) else y

def fscaleOp (f : Fmt) (m : Rnd) (ftz sat : Bool) (a : FV) (n : Int) : Nat × Nat :=
  let r := match a with
    | .fin s x e => f.round m ftz s x (e + n) false
    | v => f.enc m ftz v
  (if sat then f.clamp01 r.1 else r.1, r.2)

def fgetexpOp (a : FV) : Nat :=
  match a with
  | .nan => 0x80000001
  | .inf _ => 0x7FFFFFFF
  | .fin _ x e => if x = 0 then 0x80000000 else wrapTo 32 (e + Nat.size x - 1)

def fclassOp (f : Fmt) (x : Nat) : Nat :=
  match f.val false x with
  | .nan => 2 ^ 8
  | .inf n => if n then 1 else 2 ^ 7
  | .fin n m _ =>
    if m = 0 then (if n then 2 ^ 3 else 2 ^ 4)
    else if m < 2 ^ f.fb then (if n then 2 ^ 2 else 2 ^ 5)
    else (if n then 2 else 2 ^ 6)

def execFfloor (f : FltR) (s : State) : Host.Outcome State Fault Refusal := issue (.ffloor f) f.h s (fun1 f (fun _ _ a => integralOp f.ty .rm a))
def execFceil (f : FltR) (s : State) : Host.Outcome State Fault Refusal := issue (.fceil f) f.h s (fun1 f (fun _ _ a => integralOp f.ty .rp a))
def execFtrunc (f : FltR) (s : State) : Host.Outcome State Fault Refusal := issue (.ftrunc f) f.h s (fun1 f (fun _ _ a => integralOp f.ty .rz a))
def execFrint (f : FltR) (s : State) : Host.Outcome State Fault Refusal := issue (.frint f) f.h s (fun1 f (fun m _ a => integralOp f.ty m a))
def execFfrac (f : FltR) (s : State) : Host.Outcome State Fault Refusal := issue (.ffrac f) f.h s (fun1 f (ffracOp f.ty))
def execFscale (f : FltR) (s : State) : Host.Outcome State Fault Refusal := issue (.fscale f) f.h s (fun cx s =>
  planF cx s f.d f.w (fun l => fscaleOp (fmtOf f.ty) (cx.mode s f.rnd) f.ftz f.sat
    ((fmtOf f.ty).val f.ftz (elem f.ty (FltR.A f cx s l) 0)) (sint32 (cx.src s .B f.b 1 l))))
def execFgetexp (f : FltR) (s : State) : Host.Outcome State Fault Refusal := issue (.fgetexp f) f.h s (fun cx s =>
  planF cx s f.d 1 (fun l => (fgetexpOp ((fmtOf f.ty).val f.ftz (elem f.ty (FltR.A f cx s l) 0)), 0)))
def execFclass (f : FltR) (s : State) : Host.Outcome State Fault Refusal := issue (.fclass f) f.h s (fun cx s =>
  planF cx s f.d 1 (fun l => (fclassOp (fmtOf f.ty) (elem f.ty (FltR.A f cx s l) 0), 0)))

/-- R146: two exact products and C in one sum, rounded once to FP32. -/
def fdot2Op (t : Ty) (m : Rnd) (ftz sat : Bool) (a b c : Nat) : Nat × Nat :=
  let v := fun x i => (fmtOf t).val ftz (elem t x i)
  if zeroInf (v a 0) (v b 0) || zeroInf (v a 1) (v b 1) then F32.fin m ftz sat (.nan, fNV)
  else F32.fin m ftz sat (sumFV m [(mulFV (v a 0) (v b 0)).1, (mulFV (v a 1) (v b 1)).1, F32.val ftz (c % 2 ^ 32)])

def execFdot2 (f : FltR) (s : State) : Host.Outcome State Fault Refusal := issue (.fdot2 f) f.h s (fun cx s =>
  planF cx s f.d 1 (fun l => fdot2Op f.ty (cx.mode s f.rnd) f.ftz f.sat
    (cx.src s .A f.a 1 l) (cx.src s .B f.b 1 l) (cx.src s .C f.c 1 l)))

/-! ## Compare (R118, R147) -/

def eqFV (a b : FV) : Bool := !a.isNan && !b.isNan && ((a.isZero && b.isZero) || (!ltFV a b && !ltFV b a))
def ltNum (a b : FV) : Bool := ltFV a b && !(a.isZero && b.isZero)

/-- R53 on values, with NV for an ordered compare of a NaN. -/
def condFV (c : Cond) (a b : FV) : Bool × Nat :=
  let un := a.isNan || b.isNan
  let lt := ltNum a b
  let eq := eqFV a b
  let gt := ltNum b a
  match c with
  | .eq => (eq, 0)
  | .ne => (!un && !eq, 0)
  | .lt => (lt, if un then fNV else 0)
  | .le => (lt || eq, if un then fNV else 0)
  | .gt => (gt, if un then fNV else 0)
  | .ge => (gt || eq, if un then fNV else 0)
  | .equ => (un || eq, 0)
  | .neu => (un || !eq, 0)
  | .ltu => (un || lt, 0)
  | .leu => (un || lt || eq, 0)
  | .gtu => (un || gt, 0)
  | .geu => (un || gt || eq, 0)
  | .num => (!un, 0)
  | .nan => (un, 0)

/-- The test of one lane, float or integer. -/
def cmpOp (t : Ty) (c : Cond) (ftz : Bool) (a b : Nat) : Bool × Nat :=
  if t.isFloat then condFV c ((fmtOf t).val ftz (elem t a 0)) ((fmtOf t).val ftz (elem t b 0))
  else (condInt c (ival t a) (ival t b), 0)

/-- `cmp` writes each lane's test, `cmpm` the mask of all of them; a compare of a float type belongs to the float
instructions for R131 and R132. -/
def planCmp (t : Ty) (mask : Bool) (d : Opnd) (test : Nat → Bool × Nat) (cx : Cx) (s : State) : Plan :=
  let res := fun l => ((if mask then (maskOf (cx.act.filter (fun k => (test k).1))).toNat else (test l).1.toNat), (test l).2)
  if t.isFloat then planF cx s d 1 res else planD cx d 1 (fun l => (res l).1)

def cmpR (f : CmpR) (mask : Bool) (cx : Cx) (s : State) : Plan :=
  planCmp f.ty mask f.d (fun l => cmpOp f.ty f.cond f.ftz (cx.src s .A f.a f.w l) (cx.src s .B f.b f.w l)) cx s
def cmpI (f : CmpI) (mask : Bool) (cx : Cx) (s : State) : Plan :=
  planCmp f.ty mask f.d (fun l => cmpOp f.ty f.cond f.ftz (cx.src s .A f.a f.w l)
    (if f.ty.isFloat then fImm f.ty f.imm else immVal f.ty f.imm)) cx s

def execCmp (f : CmpR) (s : State) : Host.Outcome State Fault Refusal := issue (.cmp f) f.h s (cmpR f false)
def execCmpRi (f : CmpI) (s : State) : Host.Outcome State Fault Refusal := issue (.cmpRi f) f.h s (cmpI f false)
def execCmpm (f : CmpR) (s : State) : Host.Outcome State Fault Refusal := issue (.cmpm f) f.h s (cmpR f true)
def execCmpmRi (f : CmpI) (s : State) : Host.Outcome State Fault Refusal := issue (.cmpmRi f) f.h s (cmpI f true)

/-! ## Conversions (R148 to R151) -/

/-- Lo(T) and Hi(T) of an integer type of any width. -/
def intLo (t : Ty) : Int := if t.signed then -(2 ^ (t.elem - 1)) else 0
def intHi (t : Ty) : Int := if t.signed then 2 ^ (t.elem - 1) - 1 else 2 ^ t.elem - 1

/-- The value of an integer source: the low bits under the type. -/
def intSrc (t : Ty) (x : Nat) : Int :=
  let v := x % 2 ^ t.elem
  if t.signed && decide (2 ^ (t.elem - 1) ≤ v) then (v : Int) - 2 ^ t.elem else v

/-- An integer destination, extended to its registers. -/
def intDst (t : Ty) (x : Int) : Nat := wrapTo t.width (intSrc t (wrapTo t.elem x))

/-- R149. -/
def toInt (t : Ty) (m : Rnd) (sat : Bool) (a : FV) : Nat × Nat :=
  match a with
  | .nan => (0, fNV)
  | .inf n => (if sat then intDst t (if n then intLo t else intHi t) else 0, fNV)
  | .fin n x e =>
    let c := if 0 ≤ e then (x * 2 ^ e.toNat, false) else cut m n x e false 0
    let v : Int := if n then -(c.1 : Int) else c.1
    if intLo t ≤ v ∧ v ≤ intHi t then (intDst t v, if c.2 then fNX else 0)
    else (intDst t (if sat then (if v < intLo t then intLo t else intHi t) else v), fNV)

/-- R150: with SAT a result beyond the largest finite value is the largest finite value of its sign. -/
def toFlt (f : Fmt) (m : Rnd) (sat : Bool) (a : FV) : Nat × Nat :=
  let r := f.enc m false a
  match f.val false r.1 with
  | .inf n => if sat then (f.withSign n f.maxBits, r.2) else r
  | _ => r

/-- An integer as a value. -/
def ofInt (x : Int) : FV := .fin (decide (x < 0)) x.natAbs 0

/-- R148 to R150. -/
def cvtOp (f : CvtR) (m : Rnd) (a : Nat) : Nat × Nat :=
  if f.sty.isInt then
    let x := intSrc f.sty a
    if f.dty.isInt then (intDst f.dty (if f.sat then min (max x (intLo f.dty)) (intHi f.dty) else x), 0)
    else toFlt (fmtOf f.dty) m f.sat (ofInt x)
  else
    let v := (fmtOf f.sty).val false (a % 2 ^ (fmtOf f.sty).width)
    if f.dty.isInt then toInt f.dty m f.sat v else toFlt (fmtOf f.dty) m f.sat v

def execCvt (f : CvtR) (s : State) : Host.Outcome State Fault Refusal := issue (.cvt f) f.h s (fun cx s =>
  planF cx s f.d f.dty.regs (fun l => cvtOp f (cx.mode s f.rnd) (cx.src s .A f.a f.sty.regs l)))
def execFpack (f : CvtR) (s : State) : Host.Outcome State Fault Refusal := issue (.fpack f) f.h s (fun cx s =>
  planF cx s f.d 1 (fun l => eachElem f.dty (fun i =>
    toFlt (fmtOf f.dty) (cx.mode s f.rnd) f.sat
      (F32.val false (if i = 0 then cx.src s .A f.a 1 l else cx.src s .B f.b 1 l)))))
def execFsplit (f : CvtR) (s : State) : Host.Outcome State Fault Refusal := issue (.fsplit f) f.h s (fun cx s =>
  planF cx s f.d 2 (fun l =>
    let w := fun i => (F32.enc .rn false ((fmtOf f.sty).val false (elem f.sty (cx.src s .A f.a 1 l) i))).1
    (w 0 + 2 ^ 32 * w 1, 0)))

end Sys2Proof.Machine
end

