-- ==== Sys2Proof/Machine/Formats.lean ====
section
/-!
DEFINITION. Machine/Formats.lean: self-describing blocks (R308 to R311) and their conversion (R297), bit planes
(R312, R313) and the matrix arithmetic with its output conversion (R314 to R319).
-/
namespace Sys2Proof.Machine

/-! ## Self-describing blocks -/

/-- A two's complement field of w bits as a value. -/
def intVal (w x : Nat) : FV :=
  if 2 ^ (w - 1) ≤ x then .fin true (2 ^ w - x) 0 else .fin false x 0

/-- The raw values of a block's elements (R308, R309); an unassigned code has none. -/
def blockRaw (b : Nat) : List FV :=
  let fmt := b % 256
  let el := fun w k => b / 2 ^ (16 + w * k) % 2 ^ w
  let ints := fun w n => (List.range n).map (fun k => intVal w (el w k))
  match fmt with
  | 0 => ints 8 62
  | 1 => ints 4 124
  | 2 => ints 2 248
  | 3 => (List.range 31).map (fun k => BF16.val false (el 16 k))
  | 4 => (List.range 31).map (fun k => F16.val false (el 16 k))
  | _ =>
    let n1 := bits fmt 5 3
    let j := bits fmt 2 0
    if 0x40 ≤ fmt ∧ fmt < 0x80 ∧ j ≤ n1 then
      (List.range 496).map (fun k => if el 1 k = 0 then .fin false 0 0 else .fin (j == 0) (2 ^ (n1 - j)) 0)
    else []

/-- SCALE (R310). -/
def blockScale (b : Nat) : Nat := b / 256 % 256

/-- The fourth root, cut to an integer: bit by bit from the highest. -/
def root4 (n : Nat) : Nat :=
  (List.range (Nat.size n / 4 + 1)).foldr (fun i r => if (r + 2 ^ i) ^ 4 ≤ n then r + 2 ^ i else r) 0

/-- m × 2^e × σ (R310, R311) as a number of at least 64 bits beyond m's, its exponent, and whether something is left. -/
def scaled (s m : Nat) (e : Int) : Nat × Int × Bool :=
  let t : Int := (s : Int) - 128
  let q := t / 4
  let r := (t % 4).toNat
  if r = 0 then (m, e + q, false) else (root4 (m ^ 4 * 2 ^ (256 + r)), e + q - 64, m ≠ 0)

/-- R297: the value of an element in DFMT: 4 BF16, 5 FP16, 6 FP32, 7 INT8. -/
def blockConvert (dfmt s : Nat) (q : FV) : Nat :=
  let f := if dfmt = 4 then BF16 else if dfmt = 5 then F16 else F32
  let v : FV := if s = 255 then .nan else q
  if dfmt = 7 then
    match v with
    | .nan => 0
    | .inf n => if n then 0x80 else 0x7F
    | .fin n m e =>
      let x := scaled s m e
      let k := (cut .rn n x.1 x.2.1 x.2.2 0).1
      if n then (256 - min k 128) % 256 else min k 127
  else
    match v with
    | .nan => f.nanBits
    | .inf n => f.withSign n f.maxBits
    | .fin n m e =>
      let x := scaled s m e
      let y := (f.round .rn false n x.1 x.2.1 x.2.2).1
      if y = f.withSign n f.infBits then f.withSign n f.maxBits else y

/-- Bytes of an element of DFMT. -/
def dfmtBytes (dfmt : Nat) : Nat := match dfmt with | 4 | 5 => 2 | 6 => 4 | 7 => 1 | _ => 64

/-- A block's bytes in the tile: none where it decodes to another number of elements than EPB (R297). -/
def blockBytes (dfmt epb b : Nat) : Option (List Byte) :=
  if dfmt = 9 then some ((List.range 64).map (fun i => .ofNat 8 (b / 2 ^ (8 * i))))
  else
    let l := blockRaw b
    if l.length = epb then
      some (l.flatMap (fun q =>
        let v := blockConvert dfmt (blockScale b) q
        (List.range (dfmtBytes dfmt)).map (fun i => .ofNat 8 (v / 2 ^ (8 * i)))))
    else none

/-! ## Bit planes (R312, R313) -/

/-- Planes that a reading needs. -/
def planesRead (n p : Nat) (near : Bool) : Nat := if near ∧ p < n then p + 1 else p

/-- The reading of an element from its plane bits, plane 0 the sign. -/
def planeValue (n p : Nat) (near : Bool) (bit : Nat → Bool) : Int :=
  let top : Int := (List.range p).foldl (fun v j =>
    let b : Int := (bit j).toNat * 2 ^ (p - 1 - j)
    if j = 0 then v - b else v + b) 0
  if near && decide (p < n) then top + (bit p).toNat else top

/-! ## Integer accumulation (R314) -/

/-- One product added: the wrapped accumulator and OVF. -/
def accInt (acc : Int) (x : Int) : Int × Bool :=
  let t := acc + x
  let w := ((t + 2 ^ 63) % 2 ^ 64) - 2 ^ 63
  (w, decide (w ≠ t))

def dwordOf (x : Int) : Dword := .ofInt 64 x

/-! ## Float accumulation (R317) -/

/-- GroupSum: the rounded sum of one aligned group's products. -/
def groupSum (ps : List (FV × FV)) : FV :=
  if ps.any (fun p => p.1.isNan || p.2.isNan || (mulFV p.1 p.2).1.isNan) then .nan
  else
    let prods := ps.map (fun p => (mulFV p.1 p.2).1)
    match (sumFV .rn prods).1 with
    | .fin n m e =>
      if m = 0 then .fin (prods.all (fun p => p.neg)) 0 e
      else F64.val false (F64.round .rn false n m e false).1
    | v => v

/-- acc + GroupSum, rounded once (IEEE 754). -/
def accFloat (acc : Nat) (g : FV) : Nat := (F64.enc .rn false (sumFV .rn [F64.val false acc, g]).1).1

/-- R315: the expanded weight as BF16 bits. -/
def prologue (q z : Int) (sc : Nat) : Nat :=
  let d := q - z
  (BF16.enc .rn false (mulFV (.fin (decide (d < 0)) d.natAbs 0) (BF16.val false sc)).1).1

/-! ## Output conversion (R319) -/

/-- Rounded to an integer and saturated to 32 bits. -/
def satInt32 (v : FV) : Nat :=
  match v with
  | .nan => 0
  | .inf n => if n then 2 ^ 31 else 2 ^ 31 - 1
  | .fin n m e =>
    let k := (cut .rn n m e false 0).1
    if n then (2 ^ 32 - min k (2 ^ 31)) % 2 ^ 32 else min k (2 ^ 31 - 1)

/-- An accumulator element in OFMT 1 FP32, 2 BF16, 3 INT32; `int` where it is read as an integer. -/
def outConvert (ofmt : Nat) (int : Bool) (x : Nat) : Nat :=
  let v : FV := if int then intVal 64 x else F64.val false x
  match ofmt with
  | 1 => (F32.enc .rn false v).1
  | 2 => (BF16.enc .rn false v).1
  | _ => satInt32 v

end Sys2Proof.Machine
end

