-- ==== Sys2Proof/Decode.lean ====
section
/-!
DEFINITION. Decode.lean: from the 96 bits of a slot to an instruction (R40 to R45, R50 to R56, R58 to R66), and back.
A slot is cut into its fields once; every field of every format is named by its width, lowest bits first.
A word that is no instruction is rejected by name: the machine raises `ILL_OP` for each of these (R68).
-/
namespace Sys2Proof

/-! ## Fields of a word -/

/-- Values at given widths side by side, the first in the lowest bits. -/
def pack : List (Nat × Nat) → Nat
  | [] => 0
  | (w, v) :: r => v % 2 ^ w + 2 ^ w * pack r

/-- The fields of a word by their widths, lowest first. -/
def unpack : List Nat → Nat → List Nat
  | [], _ => []
  | w :: ws, x => x % 2 ^ w :: unpack ws (x / 2 ^ w)

theorem unpack_pack (l : List (Nat × Nat)) :
    unpack (l.map Prod.fst) (pack l) = l.map (fun p => p.2 % 2 ^ p.1) := by
  induction l with
  | nil => rfl
  | cons p r ih =>
    have hp : 0 < 2 ^ p.1 := Nat.two_pow_pos _
    simp only [List.map_cons, pack, unpack, Nat.add_mul_mod_self_left, Nat.mod_mod,
      Nat.add_mul_div_left _ _ hp, Nat.div_eq_of_lt (Nat.mod_lt _ hp), Nat.zero_add, ih]

/-! ## Formats -/

/-- Why a word is no instruction. -/
inductive DecErr where
  | unassigned   -- no opcode of R58 to R65 (R66)
  | reserved     -- a reserved bit is set (R43, R44, R50)
  | noRound      -- RND 101 to 111 (R52)
  | noCond       -- COND 14 or 15 (R53)
  | noSize       -- SIZE 0x7 to 0xF (R54)
  | notWf        -- a field value that the entry does not allow (R41, R42, R44)
  deriving DecidableEq, Repr

/-- The format and MOD layout of an opcode, with the constructor it builds. -/
inductive Shape where
  | intR (mk : IntR → Instr) | intI (mk : IntI → Instr) | fltR (mk : FltR → Instr) | fltI (mk : FltI → Instr)
  | cvtR (mk : CvtR → Instr) | cmpR (mk : CmpR → Instr) | cmpI (mk : CmpI → Instr) | plainR (mk : PlainR → Instr)
  | plainI (mk : PlainI → Instr) | mem (mk : MemF → Instr) | br (mk : BrF → Instr) | x (mk : XF → Instr)

/-- Widths of bits 71:0 of each format, lowest first (R43, R50). -/
def Shape.widths : Shape → List Nat
  | .intR _ => [24, 8, 4, 9, 9, 9, 9]
  | .intI _ => [10, 8, 4, 32, 9, 9]
  | .fltR _ => [24, 3, 1, 1, 3, 4, 9, 9, 9, 9]
  | .fltI _ => [10, 3, 1, 1, 3, 4, 32, 9, 9]
  | .cvtR _ => [24, 1, 3, 4, 4, 9, 9, 9, 9]
  | .cmpR _ => [24, 3, 1, 4, 4, 9, 9, 9, 9]
  | .cmpI _ => [10, 3, 1, 4, 4, 32, 9, 9]
  | .plainR _ => [24, 12, 9, 9, 9, 9]
  | .plainI _ => [10, 12, 32, 9, 9]
  | .mem _ => [21, 9, 8, 4, 3, 9, 9, 9]
  | .br _ => [11, 9, 20, 32]
  | .x _ => [45, 9, 9, 9]

/-- Widths of the header, bits 95:72 (R40). -/
def hdrWidths : List Nat := [2, 2, 1, 9, 10]

/-- The instruction that the field values of bits 71:0 name. -/
def Shape.build (h : Hdr) : Shape → List Nat → Except DecErr Instr
  | .intR mk, [rsv, sub, ty, c, b, a, d] =>
    if rsv ≠ 0 then .error .reserved
    else .ok (mk ⟨h, Ty.ofCode ty, .ofNat 8 sub, .ofCode d, .ofCode a, .ofCode b, .ofCode c⟩)
  | .intI mk, [rsv, sub, ty, imm, a, d] =>
    if rsv ≠ 0 then .error .reserved
    else .ok (mk ⟨h, Ty.ofCode ty, .ofNat 8 sub, .ofCode d, .ofCode a, .ofNat 32 imm⟩)
  | .fltR mk, [rsv, sub, sat, ftz, rnd, ty, c, b, a, d] =>
    if rsv ≠ 0 ∨ sub ≠ 0 then .error .reserved
    else match Rnd.ofCode rnd with
      | none => .error .noRound
      | some r => .ok (mk ⟨h, Ty.ofCode ty, r, ftz == 1, sat == 1, .ofCode d, .ofCode a, .ofCode b, .ofCode c⟩)
  | .fltI mk, [rsv, sub, sat, ftz, rnd, ty, imm, a, d] =>
    if rsv ≠ 0 ∨ sub ≠ 0 then .error .reserved
    else match Rnd.ofCode rnd with
      | none => .error .noRound
      | some r => .ok (mk ⟨h, Ty.ofCode ty, r, ftz == 1, sat == 1, .ofCode d, .ofCode a, .ofNat 32 imm⟩)
  | .cvtR mk, [rsv, sat, rnd, sty, dty, c, b, a, d] =>
    if rsv ≠ 0 then .error .reserved
    else match Rnd.ofCode rnd with
      | none => .error .noRound
      | some r => .ok (mk ⟨h, Ty.ofCode dty, Ty.ofCode sty, r, sat == 1, .ofCode d, .ofCode a, .ofCode b, .ofCode c⟩)
  | .cmpR mk, [rsv, z, ftz, cond, ty, c, b, a, d] =>
    if rsv ≠ 0 ∨ z ≠ 0 then .error .reserved
    else match Cond.ofCode cond with
      | none => .error .noCond
      | some k => .ok (mk ⟨h, Ty.ofCode ty, k, ftz == 1, .ofCode d, .ofCode a, .ofCode b, .ofCode c⟩)
  | .cmpI mk, [rsv, z, ftz, cond, ty, imm, a, d] =>
    if rsv ≠ 0 ∨ z ≠ 0 then .error .reserved
    else match Cond.ofCode cond with
      | none => .error .noCond
      | some k => .ok (mk ⟨h, Ty.ofCode ty, k, ftz == 1, .ofCode d, .ofCode a, .ofNat 32 imm⟩)
  | .plainR mk, [rsv, m, c, b, a, d] =>
    if rsv ≠ 0 then .error .reserved
    else .ok (mk ⟨h, .ofNat 12 m, .ofCode d, .ofCode a, .ofCode b, .ofCode c⟩)
  | .plainI mk, [rsv, m, imm, a, d] =>
    if rsv ≠ 0 then .error .reserved
    else .ok (mk ⟨h, .ofNat 12 m, .ofCode d, .ofCode a, .ofNat 32 imm⟩)
  | .mem mk, [off, flag, flags, size, scope, ix, base, d] =>
    match MSize.ofCode size with
    | none => .error .noSize
    | some z => .ok (mk ⟨h, .ofCode d, .ofCode base, .ofCode ix, Scope.ofCode scope, z, .ofNat 8 flags,
        .ofCode flag, .ofNat 21 off⟩)
  | .br mk, [m, a, join, disp] => .ok (mk ⟨h, .ofNat 32 disp, .ofNat 20 join, .ofCode a, .ofNat 11 m⟩)
  | .x mk, [eng, b, a, d] => .ok (mk ⟨h, .ofCode d, .ofCode a, .ofCode b, .ofNat 45 eng⟩)
  | _, _ => .error .reserved

/-- The field values of bits 71:0 of an instruction, lowest first, with their widths. -/
def View.values : View → List (Nat × Nat)
  | .intR f => [(24, 0), (8, f.sub.toNat), (4, f.ty.code), (9, f.c.code), (9, f.b.code), (9, f.a.code), (9, f.d.code)]
  | .intI f => [(10, 0), (8, f.sub.toNat), (4, f.ty.code), (32, f.imm.toNat), (9, f.a.code), (9, f.d.code)]
  | .fltR f => [(24, 0), (3, 0), (1, f.sat.toNat), (1, f.ftz.toNat), (3, f.rnd.code), (4, f.ty.code),
      (9, f.c.code), (9, f.b.code), (9, f.a.code), (9, f.d.code)]
  | .fltI f => [(10, 0), (3, 0), (1, f.sat.toNat), (1, f.ftz.toNat), (3, f.rnd.code), (4, f.ty.code),
      (32, f.imm.toNat), (9, f.a.code), (9, f.d.code)]
  | .cvtR f => [(24, 0), (1, f.sat.toNat), (3, f.rnd.code), (4, f.sty.code), (4, f.dty.code),
      (9, f.c.code), (9, f.b.code), (9, f.a.code), (9, f.d.code)]
  | .cmpR f => [(24, 0), (3, 0), (1, f.ftz.toNat), (4, f.cond.code), (4, f.ty.code),
      (9, f.c.code), (9, f.b.code), (9, f.a.code), (9, f.d.code)]
  | .cmpI f => [(10, 0), (3, 0), (1, f.ftz.toNat), (4, f.cond.code), (4, f.ty.code),
      (32, f.imm.toNat), (9, f.a.code), (9, f.d.code)]
  | .plainR f => [(24, 0), (12, f.mod.toNat), (9, f.c.code), (9, f.b.code), (9, f.a.code), (9, f.d.code)]
  | .plainI f => [(10, 0), (12, f.mod.toNat), (32, f.imm.toNat), (9, f.a.code), (9, f.d.code)]
  | .mem f => [(21, f.off.toNat), (9, f.flag.code), (8, f.flags.toNat), (4, f.size.code), (3, f.scope.code),
      (9, f.x.code), (9, f.base.code), (9, f.d.code)]
  | .br f => [(11, f.mod.toNat), (9, f.a.code), (20, f.join.toNat), (32, f.disp.toNat)]
  | .x f => [(45, f.eng.toNat), (9, f.b.code), (9, f.a.code), (9, f.d.code)]
  | .ev => []

def Hdr.values (h : Hdr) (op : Nat) : List (Nat × Nat) :=
  [(2, h.ent), (2, h.sel.code), (1, h.gn.toNat), (9, h.g.code), (10, op)]

/-! ## The opcode map (R58 to R65) -/

def ops0a : List (Nat × Shape) :=
    [(0x000, .intR .add), (0x040, .intI .addRi), (0x001, .intR .sub), (0x041, .intI .subRi), (0x002, .intR .mul),
    (0x042, .intI .mulRi), (0x003, .intR .mulhi), (0x004, .intR .mad), (0x005, .intR .div), (0x045, .intI .divRi),
    (0x006, .intR .rem), (0x046, .intI .remRi), (0x007, .intR .neg), (0x008, .intR .abs), (0x009, .intR .min), (0x049,
    .intI .minRi), (0x00A, .intR .max), (0x04A, .intI .maxRi), (0x00B, .intR .clamp), (0x00C, .intR .addc), (0x00D,
    .intR .subb), (0x00E, .intR .sad), (0x00F, .intR .dot4), (0x010, .intR .and)]

def ops0b : List (Nat × Shape) :=
    [(0x050, .intI .andRi), (0x011, .intR .or), (0x051, .intI .orRi), (0x012, .intR .xor), (0x052, .intI .xorRi),
    (0x013, .intR .not), (0x014, .intR .andn), (0x015, .intR .shl), (0x055, .intI .shlRi), (0x016, .intR .shr),
    (0x056, .intI .shrRi), (0x017, .intR .rot), (0x057, .intI .rotRi), (0x018, .intR .bfx), (0x058, .intI .bfxRi),
    (0x019, .intR .bfi), (0x059, .intI .bfiRi), (0x01A, .intR .popc), (0x01B, .intR .clz), (0x01C, .intR .ctz),
    (0x01D, .intR .brev), (0x01E, .intR .bpick), (0x05E, .intI .bpickRi), (0x01F, .intR .bfn)]

def ops0c : List (Nat × Shape) :=
    [(0x020, .intR .mov), (0x060, .intI .movRi), (0x021, .intR .sel), (0x022, .intR .lea), (0x062, .intI .leaRi),
    (0x023, .intR .sadd), (0x063, .intI .saddRi), (0x028, .intR .afset), (0x068, .intI .afsetRi), (0x029, .intR
    .aftest), (0x02A, .intR .afclr)]

/-- Integer, address and affine (R58). -/
def ops0 : List (Nat × Shape) := ops0a ++ ops0b ++ ops0c

def ops1a : List (Nat × Shape) :=
    [(0x080, .fltR .fadd), (0x0C0, .fltI .faddRi), (0x081, .fltR .fsub), (0x0C1, .fltI .fsubRi), (0x082, .fltR .fmul),
    (0x0C2, .fltI .fmulRi), (0x083, .fltR .ffma), (0x084, .fltR .fmin), (0x0C4, .fltI .fminRi), (0x085, .fltR .fmax),
    (0x0C5, .fltI .fmaxRi), (0x086, .fltR .fabs), (0x087, .fltR .fneg), (0x088, .fltR .fclamp), (0x089, .fltR .fdiv),
    (0x08A, .fltR .fsqrt), (0x08B, .fltR .frcp), (0x08C, .fltR .frsq), (0x08D, .fltR .fex2), (0x08E, .fltR .flg2),
    (0x08F, .fltR .fsin), (0x090, .fltR .fcos), (0x091, .fltR .ftanh), (0x092, .fltR .ffloor)]

def ops1b : List (Nat × Shape) :=
    [(0x093, .fltR .fceil), (0x094, .fltR .ftrunc), (0x095, .fltR .frint), (0x096, .fltR .ffrac), (0x097, .fltR
    .fcsgn), (0x098, .fltR .fscale), (0x099, .fltR .fgetexp), (0x09A, .fltR .fclass), (0x09B, .fltR .fdot2)]

/-- Float (R59). -/
def ops1 : List (Nat × Shape) := ops1a ++ ops1b

def ops2a : List (Nat × Shape) :=
    [(0x100, .cvtR .cvt), (0x101, .cvtR .fpack), (0x102, .cvtR .fsplit), (0x110, .cmpR .cmp), (0x150, .cmpI .cmpRi),
    (0x111, .cmpR .cmpm), (0x151, .cmpI .cmpmRi), (0x120, .intR .lxch), (0x160, .intI .lxchRi), (0x121, .intR .vote),
    (0x122, .intR .lred), (0x123, .intR .lscan), (0x124, .intR .lmatch), (0x125, .intR .elect), (0x126, .intR
    .rdlane), (0x166, .intI .rdlaneRi), (0x127, .intR .wrlane)]

/-- Conversion, compare and lane (R60). -/
def ops2 : List (Nat × Shape) := ops2a

def ops3a : List (Nat × Shape) :=
    [(0x180, .plainR .nop), (0x181, .br .br), (0x182, .br .brc), (0x183, .br .brany), (0x184, .br .brall), (0x185, .x
    .jtab), (0x186, .br .call), (0x187, .x .callt), (0x188, .plainR .ret), (0x189, .plainI .lpad), (0x18A, .plainI
    .baton), (0x18B, .plainR .fjoin), (0x18C, .plainR .exit), (0x18D, .plainI .trap), (0x18E, .plainI .brk), (0x18F,
    .plainI .sleep)]

/-- Control (R61). -/
def ops3 : List (Nat × Shape) := ops3a

def ops4a : List (Nat × Shape) :=
    [(0x200, .mem .ld), (0x202, .mem .lds), (0x204, .mem .ldc), (0x201, .mem .st), (0x203, .mem .sts), (0x205, .mem
    .stc), (0x206, .mem .pf), (0x207, .x .ldt), (0x208, .x .stt), (0x210, .mem .atom), (0x213, .mem .atoms), (0x215,
    .mem .atomc), (0x211, .mem .cas), (0x214, .mem .cass), (0x212, .mem .red), (0x218, .mem .futld), (0x219, .mem
    .futst), (0x21A, .mem .futtry), (0x21B, .mem .futclr), (0x220, .x .sbind), (0x221, .x .sfree), (0x222, .mem .acq),
    (0x223, .mem .rel), (0x224, .mem .fence)]

def ops4b : List (Nat × Shape) :=
    [(0x228, .x .rcell), (0x229, .x .rcfree), (0x230, .x .rwb), (0x231, .x .rinv), (0x232, .mem .resreq), (0x233, .x
    .icinv), (0x234, .plainI .phase)]

/-- Memory (R62). -/
def ops4 : List (Nat × Shape) := ops4a ++ ops4b

def ops5a : List (Nat × Shape) :=
    [(0x280, .x .qbind), (0x281, .x .qfree), (0x282, .plainR .qstat), (0x288, .x .barInit), (0x289, .x .barArrive),
    (0x28A, .x .barWait), (0x28B, .x .barSync), (0x28C, .x .barExpect), (0x28D, .x .barTest), (0x290, .x .own),
    (0x291, .plainI .waitc)]

/-- Queues, barriers and owner bits (R63). -/
def ops5 : List (Nat × Shape) := ops5a

def ops6a : List (Nat × Shape) :=
    [(0x300, .x .cpy), (0x301, .x .cpys), (0x302, .x .cpyd), (0x303, .x .cpywp), (0x304, .x .cpyx), (0x305, .x
    .cpyst), (0x310, .x .mxgo), (0x311, .x .mxgrd), (0x312, .x .mxrd), (0x313, .x .mxwr), (0x314, .x .mxclr), (0x315,
    .x .mxst), (0x316, .x .mxovf), (0x317, .x .mxcan), (0x320, .x .recld), (0x321, .x .emit), (0x322, .x .emitn),
    (0x323, .x .nend), (0x324, .x .xzopen), (0x325, .x .xzwait), (0x326, .x .rngld), (0x327, .x .edgest)]

/-- Copy, matrix and graph (R64). -/
def ops6 : List (Nat × Shape) := ops6a

def ops7a : List (Nat × Shape) :=
    [(0x380, .x .svdiv), (0x381, .x .rsdiv), (0x382, .x .qsave), (0x383, .x .qrest), (0x384, .x .bsave), (0x385, .x
    .brest), (0x386, .x .kmov), (0x387, .x .hret), (0x388, .x .srd), (0x389, .x .swr), (0x38A, .x .winrd), (0x38B, .x
    .winwr), (0x38C, .x .tlbinv), (0x38D, .x .l1inv), (0x38E, .x .halt), (0x38F, .x .mcack)]

/-- System (R65). -/
def ops7 : List (Nat × Shape) := ops7a

/-- Group g of R57 by its opcodes. -/
def opGroup : Nat → List (Nat × Shape)
  | 0 => ops0 | 1 => ops1 | 2 => ops2 | 3 => ops3 | 4 => ops4 | 5 => ops5 | 6 => ops6 | 7 => ops7
  | _ => []

def findOp (op : Nat) : List (Nat × Shape) → Option Shape
  | [] => none
  | (k, s) :: r => if k = op then some s else findOp op r

/-- The shape of an opcode; none for an unassigned one (R66). -/
def opShape (op : Nat) : Option Shape := findOp op (opGroup (op / 128))

/-! ## Decoding and encoding -/

/-- The header, or none when it is no list of its five fields. -/
def Hdr.build : List Nat → Option (Hdr × Nat)
  | [ent, sel, gn, g, op] => some (⟨.ofCode g, gn == 1, HoldSel.ofCode sel, ent⟩, op)
  | _ => none

/-- An instruction whose fields also pass the limits of its entry (R68 step 4). -/
def checkWf : Except DecErr Instr → Except DecErr Instr
  | .error e => .error e
  | .ok i => if i.wf then .ok i else .error .notWf

/-- The instruction of a slot (R31, R40, R43). -/
def decode (w : Slot) : Except DecErr Instr :=
  match Hdr.build (unpack hdrWidths (w.toNat / 2 ^ 72)) with
  | none => .error .reserved
  | some (h, op) =>
    match opShape op with
    | none => .error .unassigned
    | some sh => checkWf (sh.build h (unpack sh.widths w.toNat))

/-- The slot of an instruction; events have none and answer 0. -/
def encode (i : Instr) : Slot :=
  match i.hdr?, i.op? with
  | some h, some op => .ofNat 96 (pack (i.view.values ++ h.values op))
  | _, _ => 0

/-- Twelve bytes, lowest address first, as a slot (R31). -/
def slotOfBytes (l : List Byte) : Slot := l.foldr (fun b w => (w <<< 8) ||| b.setWidth 96) 0

/-- The bytes of a slot in memory order (R31). -/
def Slot.bytes (w : Slot) : List Byte := (List.range 12).map (fun i => (w >>> (8 * i)).setWidth 8)

/-- Decoding the bytes of a slot. -/
def decodeBytes (l : List Byte) : Except DecErr Instr := decode (slotOfBytes l)

/-- The instruction that the decoder reads from a slot whose bits are w; the bits above nbits are 0. -/
def decodeTableWord (nbits w : Nat) : Option Instr :=
  match decodeBytes (Slot.bytes (.ofNat 96 (w % 2 ^ nbits))) with
  | .ok i => some i
  | .error _ => none

/-! ## Words written out from the encodings of the spec -/

/-- `add.s32 v5, v2, v7` of file 02. -/
theorem decode_add_word : decode 0x003FE0028080FFF400000000 = .ok (.add ⟨⟨.none, false, .none, 0⟩, .s32, 0, .v 5, .v 2, .v 7, .none⟩) := by decide +kernel

/-- `nop` of file 02. -/
theorem decode_nop_word : decode 0x603FE0FFFFFFFFF000000000 = .ok (.nop ⟨⟨.none, false, .none, 0⟩, 0, .none, .none, .none, .none⟩) := by decide +kernel

/-- R179. -/
theorem decode_baton_word : decode 0x62BFE00A0A40000000400000 = .ok (.baton ⟨⟨.none, false, .none, 0⟩, 0, .v 20, .v 41, 1⟩) := by decide +kernel

/-- R190. -/
theorem decode_fjoin_word : decode 0x62FFE0FFFFFFFFF000000000 = .ok (.fjoin ⟨⟨.none, false, .none, 0⟩, 0, .none, .none, .none, .none⟩) := by decide +kernel

/-- R198. -/
theorem decode_qbind_word : decode 0xA03FE0FFF03FE00100800000 = .ok (.qbind ⟨⟨.none, false, .none, 0⟩, .none, .sp .zero, .none, 0x100800000⟩) := by decide +kernel

/-- R211. -/
theorem decode_barSync_word : decode 0xA2FFE0FFFFFFE00000000000 = .ok (.barSync ⟨⟨.none, false, .none, 0⟩, .none, .none, .none, 0⟩) := by decide +kernel

/-- file 10. -/
theorem decode_hret_word : decode 0xE1FFE0FFFFC0800000000001 = .ok (.hret ⟨⟨.none, false, .none, 0⟩, .none, .none, .v 4, 1⟩) := by decide +kernel

end Sys2Proof
end

