-- ==== Sys2Proof/Machine/Mem.lean ====
section
/-!
DEFINITION. Machine/Mem.lean: memory. Physical bytes with reduction cells and migrations over them (R345, R234, R357),
translation (R354 to R356), carved copies (R350), and the scratchpad with its owner bits and rings (R15, R19, R205).
-/
namespace Sys2Proof.Machine

/-! ## Physical memory (R345) -/

def inGddr (pa n : Nat) : Bool := decide (pa + n ≤ 2 ^ 36)
def inHost (pa n : Nat) : Bool := decide (2 ^ 47 ≤ pa) && decide (pa + n ≤ 2 ^ 48)
/-- GDDR-7 that exists: in stage 2 the lowest 512 MiB of it (R465). -/
def State.gddrOk (s : State) (pa n : Nat) : Bool := if s.cdie.stage = 2 then decide (pa + n ≤ 2 ^ 29) else inGddr pa n
/-- The bytes lie in memory that exists. -/
def State.memOk (s : State) (pa n : Nat) : Bool := s.gddrOk pa n || inHost pa n

/-- Home die of a physical address; stage 2 has die 0 alone (R465). -/
def State.homeDie (s : State) (pa : Nat) : Nat := if s.cdie.stage = 2 then 0 else pa / 2 ^ 12 % 2
/-- Home slice on its die. -/
def homeSlice (pa : Nat) : Nat := Nat.xor (pa / 2 ^ 13 % 32) (pa / 2 ^ 18 % 32)

/-- An address that a die reaches over UCIe: GDDR-7 of the other die, and host memory (R346, R365). -/
def State.crosses (s : State) (die pa : Nat) : Bool := inHost pa 1 || (inGddr pa 1 && s.homeDie pa != die)

/-- What an unlisted byte of memory reads as (log entry 2). -/
def memDefault : Byte := 0

/-- Bytes of a number, lowest first (R2). -/
def toBytes (n v : Nat) : List Byte := (List.range n).map (fun i => .ofNat 8 (v / 2 ^ (8 * i)))
def ofBytes (l : List Byte) : Nat := l.foldr (fun b v => b.toNat + 256 * v) 0

/-! ### Reduction cells (R234) -/

/-- A cell loaded from an FP32 value. -/
def Cell.load (die : Nat) (launch : Option Nat) (x : Nat) : Cell :=
  match F32.val false x with
  | .nan => ⟨0, false, false, true, die, launch⟩
  | .inf n => ⟨0, !n, n, false, die, launch⟩
  | .fin n m e =>
    let v : Int := m * 2 ^ (e + 149).toNat
    ⟨if n then -v else v, false, false, false, die, launch⟩

/-- The single value a cell reads as. -/
def Cell.value (c : Cell) : Nat :=
  if c.nan || (c.pinf && c.ninf) then F32.nanBits
  else if c.pinf then F32.infBits
  else if c.ninf then F32.withSign true F32.infBits
  else (F32.round .rn false (decide (c.s < 0)) c.s.natAbs (-149) false).1

/-- An FP32 operand added exactly; a sum whose magnitude would reach 2^170 sets the state of its sign instead. -/
def Cell.add (c : Cell) (x : Nat) : Cell :=
  match F32.val false x with
  | .nan => { c with nan := true }
  | .inf n => if n then { c with ninf := true } else { c with pinf := true }
  | .fin n m e =>
    let v : Int := m * 2 ^ (e + 149).toNat
    let t := c.s + (if n then -v else v)
    if 2 ^ 319 ≤ t.natAbs then (if t < 0 then { c with ninf := true } else { c with pinf := true })
    else { c with s := t }

/-! ### Reading and writing -/

/-- The home that performs an access: that of the old page while the page migrates (R357). -/
def State.canon (s : State) (pa : Nat) : Nat :=
  match s.migs.find? (fun g => decide (g.new ≤ pa) && decide (pa < g.new + g.size)) with
  | some g => g.old + (pa - g.new)
  | none => pa

/-- A byte as its home reads it. -/
def State.byte (s : State) (pa : Nat) : Byte :=
  let a := s.canon pa
  match FMap.get none s.cells (a / 4) with
  | some c => .ofNat 8 (c.value / 2 ^ (8 * (a % 4)))
  | none => FMap.get memDefault s.mem a

def State.readPhys (s : State) (pa n : Nat) : Nat := ofBytes ((List.range n).map (fun i => s.byte (pa + i)))

/-- One byte stored at its home, which forwards it to the new copy of a page under migration (R357). -/
def State.storeByte (s : State) (pa : Nat) (b : Byte) : State :=
  let m1 := FMap.set memDefault s.mem pa b
  let m2 := s.migs.foldl (fun m g =>
    if g.old ≤ pa ∧ pa < g.old + g.size then FMap.set memDefault m (g.new + (pa - g.old)) b else m) m1
  { s with mem := m2 }

/-- The words of a cell that a store touches read their rounded value, take the bytes and load again (R234). -/
def State.storeCells (s : State) (pa : Nat) (bs : List Byte) : State :=
  if s.cells.isEmpty then s
  else
    ((List.range (bs.length / 4 + 2)).map (fun i => pa / 4 + i)).foldl (fun s w =>
      match FMap.get none s.cells w with
      | none => s
      | some c =>
        if w * 4 < pa + bs.length ∧ pa < w * 4 + 4 then
          let x := ofBytes ((List.range 4).map (fun i =>
            if pa ≤ w * 4 + i ∧ w * 4 + i < pa + bs.length then (bs[w * 4 + i - pa]?).getD 0 else s.byte (w * 4 + i)))
          { s with cells := s.cells.set none w (some (Cell.load c.die c.launch x)) }
        else s) s

/-- A store of bytes: cells follow, and the tags of the words become full (R235). -/
def State.storePhys (s : State) (addr : Nat) (bs : List Byte) : State :=
  let pa := s.canon addr
  let s1 := s.storeCells pa bs
  let s2 := ((List.range bs.length).zip bs).foldl (fun s p => s.storeByte (pa + p.1) p.2) s1
  if s2.empties.isEmpty then s2
  else { s2 with empties := s2.empties.filter (fun p => !(decide (p.1 * 8 < pa + bs.length) && decide (pa < p.1 * 8 + 8))) }

/-- One masked write to the line at a home (R351, R352): the bytes of the mask, each cell of the line once. -/
def State.storeMasked (s : State) (addr mask data : Nat) : State :=
  let pa := s.canon addr
  let new := fun (s : State) (i : Nat) => if bitN mask i then .ofNat 8 (data / 2 ^ (8 * i)) else s.byte (pa + i)
  let s1 := (List.range 16).foldl (fun s w =>
    match FMap.get none s.cells (pa / 4 + w) with
    | some c =>
      if mask / 2 ^ (4 * w) % 16 = 0 then s
      else { s with cells := s.cells.set none (pa / 4 + w)
                      (some (Cell.load c.die c.launch (ofBytes ((List.range 4).map (fun i => new s (4 * w + i)))))) }
    | none => s) s
  let s2 := (List.range 64).foldl (fun s i => if bitN mask i then s.storeByte (pa + i) (.ofNat 8 (data / 2 ^ (8 * i))) else s) s1
  { s2 with empties := s2.empties.filter (fun p => !(decide (pa ≤ p.1 * 8) && decide (p.1 * 8 < pa + 64)
      && mask / 2 ^ (p.1 * 8 - pa) % 256 != 0)) }

/-- The value of the word a deferred request waits for, once its tag is full (R236); a line that is ABSENT holds none. -/
def State.filled (s : State) (d : Defer) : Option Dword :=
  match d.copy with
  | none => if FMap.get false s.empties (d.addr / 8) then none else some (.ofNat 64 (s.readPhys d.addr 8))
  | some (die, launch) =>
    match s.regions.find? (fun r =>
      decide (r.die = die) && decide (r.launch = launch) && decide (r.vbase ≤ d.addr) && decide (d.addr < r.vbase + r.size)) with
    | none => none
    | some r =>
      match r.lines.find? ((d.addr - r.vbase) / 64) with
      | none => none
      | some c => if bitN c.empty (d.addr % 64 / 8) then none else some (.ofNat 64 (c.data / 2 ^ (8 * (d.addr % 64))))

/-- The requests whose word has become full take the filling value. -/
def State.answer (s : State) : State :=
  if s.defer.isEmpty then s
  else { s with defer := s.defer.map (fun d => if d.got.isNone then { d with got := s.filled d } else d) }

def State.writePhys (s : State) (pa : Nat) (bs : List Byte) : State := (s.storePhys pa bs).answer

/-! ## Who accesses -/

/-- An agent of the fabric: die, core, page-table root (none where addresses are physical, R252), and the launch whose
carved regions serve it. -/
structure Ag where
  die : Nat
  ck : Nat
  root : Option Nat
  launch : Option Nat
  deriving DecidableEq, Repr

def State.agent (s : State) (x : Sel) : Ag :=
  let w := s.wave x.wk
  { die := x.die, ck := x.ck, root := if x.mgmt then none else some (w.root.getD 0), launch := w.funel.launch }

/-! ## Translation (R354 to R356) -/

/-- A page-table entry's fields (R354). -/
def pteV (e : Nat) : Bool := bitN e 0
def pteLeaf (e : Nat) : Bool := bitN e 1
def pteRd (e : Nat) : Bool := bitN e 2
def pteWr (e : Nat) : Bool := bitN e 3
def pteXf (e : Nat) : Bool := bitN e 4
def pteRes (e : Nat) : Bool := bitN e 5
def pteSz (e : Nat) : Nat := bits e 11 9
def pteAddr (e : Nat) : Nat := bits e 47 12 * 4096

/-- Page size, level and replicas of a size code (R355). -/
def pageSize (sz : Nat) : Nat := match sz with
  | 0 => 2 ^ 12 | 1 => 2 ^ 14 | 2 => 2 ^ 16 | 3 => 2 ^ 18 | 4 => 2 ^ 21 | 5 => 2 ^ 24 | 6 => 2 ^ 27 | _ => 2 ^ 30
def pageLevel (sz : Nat) : Nat := if sz ≤ 3 then 4 else if sz ≤ 6 then 3 else 2
def replicas (sz : Nat) : Nat := match sz with
  | 1 => 4 | 2 => 16 | 3 => 64 | 5 => 8 | 6 => 64 | _ => 1

/-- The checks of R355 on a leaf at a level: the translation it gives. -/
def State.leafOk (s : State) (level va e : Nat) : Option Tlb :=
  let sz := pteSz e
  let z := pageSize sz
  if pteV e && bits e 63 48 == 0 && bits e 8 6 == 0 && pteLeaf e && pageLevel sz == level && pteAddr e % z == 0
      && s.memOk (pteAddr e) z then
    some ⟨0, va / z * z, z, pteAddr e, pteRd e, pteWr e, pteXf e, pteRes e⟩
  else none

/-- The walk from a level's table on; none where it raises `PROTECT`. A page of several replicas is translated by any
of them (R355). -/
def State.walk (s : State) (va : Nat) : List Nat → Nat → Option Tlb
  | [], _ => none
  | level :: r, table =>
    let sh := 48 - 9 * level
    let i := va / 2 ^ sh % 512
    if !s.gddrOk table 4096 then none
    else
      let e := s.readPhys (table + 8 * i) 8
      if pteV e && bits e 63 48 == 0 && bits e 8 6 == 0 then
        if pteLeaf e then
          let n := replicas (pteSz e)
          if pageLevel (pteSz e) ≠ level then none
          else if n = 1 then s.leafOk level va e
          else s.leafOk level va (s.readPhys (table + 8 * (i / n * n + Config.pick s.tick va % n)) 8)
        else if bits e 11 9 == 0 && bits e 5 2 == 0 then s.walk va r (pteAddr e)
        else none
      else none

/-- The translation of an address: one the core holds, or a walk (R356). -/
def State.translate (s : State) (ck root va : Nat) : Option Tlb :=
  match (s.core ck).tlb.find? (fun t => decide (t.root = root) && decide (t.va ≤ va) && decide (va < t.va + t.size)) with
  | some t => some t
  | none => (s.walk va [0, 1, 2, 3, 4] root).map (fun t => { t with root := root })

/-- A page that was not resident has become so: every tag of it is full (R235, log entry 74). -/
def State.becomesResident (s : State) (root : Nat) (t : Tlb) : State :=
  let mine := fun (p : Nat × Nat) => p.1 == root && decide (t.va ≤ 4096 * p.2) && decide (4096 * p.2 < t.va + t.size)
  if s.absent.any mine then
    State.answer { s with
      absent := s.absent.filter (fun p => !mine p)
      empties := s.empties.filter (fun p => !(decide (t.pa ≤ 8 * p.1) && decide (8 * p.1 < t.pa + t.size))) }
  else s

/-- The core keeps the translation of a resident page (R356). -/
def State.hold (s : State) (ck root va : Nat) : State :=
  match s.translate ck root va with
  | some t =>
    if t.res then (s.becomesResident root t).modCore ck (fun c => if c.tlb.contains t then c else { c with tlb := t :: c.tlb }) else s
  | none => s

/-! ## Where a global access is performed -/

/-- Physical memory, or the carved copy held in a region of the list. -/
inductive Loc where
  | phys (pa : Nat)
  | copy (ri va : Nat)
  deriving DecidableEq, Repr

/-- Permissions asked for (R355). -/
inductive Need where
  | rd | wr | rdwr | xf
  deriving DecidableEq, Repr

def Need.ok (n : Need) (rd wr xf : Bool) : Bool :=
  match n with
  | .rd => rd
  | .wr => wr
  | .rdwr => rd && wr
  | .xf => xf

/-- The outcome of R220's permission and residency checks. -/
inductive Found where
  | at_ (l : Loc)
  | cause (c : Nat)
  | nonres
  deriving DecidableEq, Repr

/-- The translated path to home. -/
def State.home (s : State) (a : Ag) (va n : Nat) (need : Need) : Found :=
  match a.root with
  | none => if va < 2 ^ 48 && s.memOk va n then .at_ (.phys (s.canon va)) else .cause cPROTECT
  | some root =>
    match s.translate a.ck root va with
    | none => .cause cPROTECT
    | some t =>
      if !need.ok t.rd t.wr t.xf then .cause cPROTECT
      else if !t.res then .nonres
      else .at_ (.phys (s.canon (t.pa + (va - t.va))))

/-- The region that serves an address for an agent (R350). -/
def State.regionOf (s : State) (a : Ag) (va : Nat) : Option Nat :=
  match a.launch with
  | none => none
  | some q => s.regions.findIdx? (fun r =>
      decide (r.die = a.die) && decide (r.launch = q) && decide (r.vbase ≤ va) && decide (va < r.vbase + r.size))

def State.region (s : State) (ri : Nat) : Region := (s.regions[ri]?).getD ⟨0, 0, 0, 0, false, false, false, false, []⟩

def lineAt (r : Region) (va : Nat) : Nat := (va - r.vbase) / 64

/-- The address is served from the die's copy or at home; a line to be filled must be readable at home (R350). -/
def State.locate (s : State) (a : Ag) (va n : Nat) (need : Need) : Found :=
  match s.regionOf a va with
  | none => s.home a va n need
  | some ri =>
    let r := s.region ri
    if !need.ok r.rd r.wr false then .cause cPROTECT
    else match r.lines.find? (lineAt r va) with
      | some _ => .at_ (.copy ri va)
      | none =>
        if r.fill then
          match s.home a (va / 64 * 64) 64 .rd with
          | .at_ _ => .at_ (.copy ri va)
          | f => f
        else .at_ (.copy ri va)

/-- The line is filled if it is ABSENT (R350): from home, or with zeros; its tags are full then (R235). -/
def State.fillLine (s : State) (a : Ag) (ri va : Nat) : State :=
  let r := s.region ri
  let k := lineAt r va
  match r.lines.find? k with
  | some _ => s
  | none =>
    let data := if r.fill then
        (match s.home a (va / 64 * 64) 64 .rd with | .at_ (.phys pa) => s.readPhys pa 64 | _ => 0)
      else 0
    State.answer { s with regions := s.regions.set ri { r with lines := r.lines.insert k { data := data, born := s.tick } } }

/-- The line of a carved copy that an access at an address would have to fill from the other die or from the host (R350, R365). -/
def State.fillCrosses (s : State) (a : Ag) (ri va : Nat) : Bool :=
  let r := s.region ri
  r.fill && (r.lines.find? (lineAt r va)).isNone && (match s.home a (va / 64 * 64) 64 .rd with
    | .at_ (.phys pa) => s.crosses a.die pa
    | _ => false)

/-- The lines that a move at tick t filled across the dies are ABSENT again, unless they have been written since (R365). -/
def State.unfill (s : State) (a : Ag) (t : Nat) : State :=
  { s with regions := s.regions.map (fun r =>
      if r.fill ∧ r.die = a.die ∧ some r.launch = a.launch then
        { r with lines := r.lines.filter (fun p => !(p.2.born == t && p.2.dirty == 0 && p.2.empty == 0
            && (match s.home a (r.vbase + 64 * p.1) 64 .rd with | .at_ (.phys pa) => s.crosses a.die pa | _ => false))) }
      else r) }

/-- The translation used is held, and a carved line is present. -/
def State.touch (s : State) (a : Ag) (va : Nat) (l : Loc) : State :=
  match l with
  | .phys _ => match a.root with | some root => s.hold a.ck root va | none => s
  | .copy ri _ => s.fillLine a ri va

/-- The line's data as a carved copy or a fill would have it. -/
def State.copyLine (s : State) (a : Ag) (ri va : Nat) : CLine :=
  let r := (s.fillLine a ri va).region ri
  (r.lines.find? (lineAt r va)).getD {}

def State.readLoc (s : State) (a : Ag) (l : Loc) (n : Nat) : Nat :=
  match l with
  | .phys pa => s.readPhys pa n
  | .copy ri va => (s.copyLine a ri va).data / 2 ^ (8 * (va % 64)) % 2 ^ (8 * n)

/-- n bytes at byte offset o of a number of 64 bytes replaced. -/
def spliceBytes (x o n v : Nat) : Nat :=
  x % 2 ^ (8 * o) + (v % 2 ^ (8 * n)) * 2 ^ (8 * o) + x / 2 ^ (8 * (o + n)) * 2 ^ (8 * (o + n))

/-- Bytes stored at a place: at home, or into the copy, whose bytes become dirty and whose tags become full. -/
def State.putLoc (s : State) (a : Ag) (l : Loc) (n v : Nat) : State :=
  match l with
  | .phys pa => s.storePhys pa (toBytes n v)
  | .copy ri va =>
    let s1 := s.fillLine a ri va
    let r := s1.region ri
    let c := (r.lines.find? (lineAt r va)).getD {}
    let o := va % 64
    let words := (List.range 8).foldl (fun m i =>
      if bitN c.empty i && !(decide (8 * i < o + n) && decide (o < 8 * i + 8)) then m + 2 ^ i else m) 0
    let c' : CLine := { c with dirty := Nat.lor c.dirty ((2 ^ n - 1) * 2 ^ o), data := spliceBytes c.data o n v, empty := words }
    let r' : Region := { r with lines := r.lines.insert (lineAt r va) c' }
    { s1 with regions := s1.regions.set ri r' }

/-- A store to a place answers the requests that wait for its words. -/
def State.writeLoc (s : State) (a : Ag) (l : Loc) (n v : Nat) : State := (s.putLoc a l n v).answer

/-! ## Tags (R235) -/

def State.tagEmpty (s : State) (a : Ag) : Loc → Bool
  | .phys pa => FMap.get false s.empties (pa / 8)
  | .copy ri va => bitN (s.copyLine a ri va).empty (va % 64 / 8)

def State.setEmpty (s : State) (l : Loc) : State :=
  match l with
  | .phys pa => { s with empties := s.empties.set false (pa / 8) true }
  | .copy ri va =>
    let r := s.region ri
    let c := (r.lines.find? (lineAt r va)).getD {}
    let r' : Region := { r with lines := r.lines.insert (lineAt r va) { c with empty := Nat.lor c.empty (2 ^ (va % 64 / 8)) } }
    { s with regions := s.regions.set ri r' }

/-- The slice whose deferral buffer holds requests for a word (R358, R235), and the copy's die and launch. Which slice holds a carved bank is
left open: the model takes the slice that R345 would give the virtual address (log entry 82). -/
def State.sliceOf (s : State) : Loc → Nat × Nat × Option (Nat × Nat)
  | .phys pa => (s.homeDie pa * 32 + homeSlice pa, pa, none)
  | .copy ri va => ((s.region ri).die * 32 + homeSlice va, va, some ((s.region ri).die, (s.region ri).launch))

/-! ## Scratchpad (R15, R19, R20, R205, R220) -/

/-- SD of R220. -/
def Group.sd (g : Group) : Nat := g.skib * 1024 - g.gwaves * g.cspill

/-- A 1 KiB granule of the core's scratchpad is engine-owned. -/
def Core.engineOwned (c : Core) (a n : Nat) : Bool :=
  (List.range ((a + n - 1) / 1024 + 1 - a / 1024)).any (fun i => FMap.get false c.owner (a / 1024 + i))

/-- The bytes meet the ring of a valid record (R205). -/
def Core.inRing (c : Core) (a n : Nat) : Bool :=
  c.queues.any (fun p => p.2.valid && decide (c.ringAt p.2 0 < a + n) && decide (a < c.ringAt p.2 0 + 4 * p.2.depth))

/-- A command whose wave had observed the completions `obs` at its issue has no order after the write of this byte (R16). -/
def Prior.free (p : Prior) (eng : Nat) (obs : List (Nat × Nat)) : Bool := p.eng != eng && !obs.contains (p.eng, p.cmd)

/-- The scratchpad as a command reads it in one move: byte by byte, what another engine wrote without an observation between them, or
what stood there before. -/
def Core.view (c : Core) (eng : Nat) (obs : List (Nat × Nat)) (tick : Nat) : Core :=
  { c with scratch := c.scratch.setMany 0 (c.prior.filterMap (fun p =>
      if p.2.free eng obs && Config.choice tick (2 ^ 20 + p.1) then some (p.1, p.2.old) else none)) }

/-- A command of a wave has written the bytes at these addresses (`c0` was before): where another engine wrote the byte without an
observation between them, either value remains. -/
def Core.wrote (c c0 : Core) (eng cmd wave no : Nat) (obs : List (Nat × Nat)) (tick : Nat) (l : List Nat) : Core :=
  l.foldl (fun (c : Core) a =>
    let old := FMap.get 0 c0.scratch a
    let stays := match c0.prior.find? a with
      | some p => p.free eng obs && Config.choice tick (2 ^ 21 + a)
      | none => false
    if stays then { c with scratch := c.scratch.set 0 a old }
    else { c with prior := c.prior.insert a { old := old, eng := eng, cmd := cmd, wave := wave, no := no } }) c

/-- A command has completed; its arrival counts in a phase of a barrier. -/
def Core.priorDone (c : Core) (eng cmd : Nat) (mark : Option (Nat × Half)) : Core :=
  { c with prior := c.prior.map (fun p => (p.1, if p.2.eng = eng ∧ p.2.cmd = cmd then { p.2 with done := true, mark := mark } else p.2)) }

/-- The completed commands that a wave has observed, once it observes those that the test picks. -/
def Core.observed (c : Core) (seen : List (Nat × Nat)) (ok : Prior → Bool) : List (Nat × Nat) :=
  (c.prior.filterMap (fun p =>
    if seen.contains (p.2.eng, p.2.cmd) || (p.2.done && ok p.2) then some (p.2.eng, p.2.cmd) else none)).eraseDups

/-- The bytes from a to b go to threads, or to a new group. -/
def Core.priorDrop (c : Core) (a b : Nat) : Core :=
  { c with prior := c.prior.filter (fun p => !(decide (a ≤ p.1) && decide (p.1 < b))) }

/-- n bytes of a core's scratchpad as a number, and written. -/
def Core.scratchN (c : Core) (a n : Nat) : Nat := ofBytes ((List.range n).map (fun i => FMap.get 0 c.scratch (a + i)))
def Core.setScratchN (c : Core) (a n v : Nat) : Core :=
  { c with scratch := c.scratch.setMany 0 ((List.range n).map (fun i => (a + i, .ofNat 8 (v / 2 ^ (8 * i))))) }

/-- The core and byte that a cluster-window offset names (R19, R20), or none outside the window or in a member's spill areas, which only the
hardware's spill and fill reach (R170, log entry 86). -/
def clusterAt (die : Nat) (g : Group) (a n : Nat) : Option (Nat × Nat) :=
  let far := g.straddle && decide (2 ^ 23 ≤ a) && decide (a < 2 ^ 24)
  let o := if far then a - 2 ^ 23 else a
  let m := o / 128 % 8
  if g.clu && decide (o + n ≤ 8 * (g.skib * 1024)) && decide (o / 1024 * 128 + o % 128 + n ≤ g.sd) && (!g.straddle || decide (a < 2 ^ 24)) then
    some (if far then coreKey (1 - die) (g.obase + m) else coreKey die (g.cbase + m), o / 1024 * 128 + o % 128)
  else none

/-- The group of a cluster on one of its cores. -/
def Core.clusterGroup (c : Core) (cid : Nat) : Group := (c.groups.find? (fun g => g.clu && decide (g.cid = cid))).getD {}

end Sys2Proof.Machine
end

