-- ==== Sys2Proof/Machine/Stores.lean ====
section
/-!
DEFINITION. Machine/Stores.lean: accesses under way (R95, R224), atomic steps (R230, R234), and stores that are issued and not yet
performed (R193, R222, R365).
-/
namespace Sys2Proof.Machine

/-! ## Places -/

/-- Where one lane's access goes: global memory, or a byte of a core's scratchpad. -/
inductive Place where
  | glob (l : Loc)
  | sp (ck a : Nat)
  deriving DecidableEq, Repr

def State.readAt (s : State) (ag : Ag) (p : Place) (n : Nat) : Nat :=
  match p with
  | .glob l => s.readLoc ag l n
  | .sp ck a => (s.core ck).scratchN a n

def State.writeAt (s : State) (ag : Ag) (p : Place) (n v : Nat) : State :=
  match p with
  | .glob l => s.writeLoc ag l n v
  | .sp ck a => s.modCore ck (fun c => c.setScratchN a n v)

/-- The access crosses UCIe: to the other die, to the host, or for the fill of a carved line (R365). -/
def State.far (s : State) (ag : Ag) : Place → Bool
  | .glob (.phys pa) => s.crosses ag.die pa
  | .glob (.copy ri va) => s.fillCrosses ag ri va
  | .sp ck _ => ck / 99 != ag.die

/-! ## Accesses under way (R95, R97, R224) -/

/-- n registers' worth of a value in one lane, by key. -/
def regWrites (code n lane v : Nat) : FMap Word :=
  (List.range n).map (fun i => (regKey (code + i) lane, .ofNat 32 (v / 2 ^ (32 * i))))

/-- A new access will write a register: of a load in flight to it either value will remain, and an interlocked result that is due
gives way to a later interlocked one; before a load it is still due, for what reads the register until then (R97). -/
def Wave.crossed (w : Wave) (tick : Nat) (load : Bool) (key : Nat) : Wave :=
  { w.plain (key / 32) with
    accs := w.accs.map (fun a => if load && !a.load then a else a.overwritten tick key)
    heldtok := if load then w.heldtok else tokenLess (key / 32) (key % 32) w.heldtok }

/-- An access is under way: its counter has risen, and its registers are plain and will be written; to those of `due` a lane of an atomic
gives a value when it is performed. -/
def State.under (s : State) (x : Sel) (load : Bool) (writes : FMap Word) (due : List Nat) (far : Mask) : State :=
  (s.bump x (if load then .ld else .st) (· + 1)).modWave x.wk (fun w =>
    let w1 := (writes.map Prod.fst ++ due).foldl (fun w k => w.crossed s.tick load k) w
    { w1 with
      nextAcc := w.nextAcc + 1
      accs := w1.accs ++ [{ id := w.nextAcc, ctx := x.ctx, load := load
                            writes := writes.foldl (fun m p => m.insert p.1 p.2) [], due := due, xdie := far
                            born := (s.die x.die).watch.toNat, at_ := s.tick }] })

/-! ## Atomic steps (R230, R231, R234) -/

/-- The new value of R230 for n bytes. -/
def atomNew (n kind aop old b : Nat) : Nat :=
  let F := if n = 8 then F64 else F32
  let sg := fun x : Nat => if kind = 1 ∧ 2 ^ (8 * n - 1) ≤ x then (x : Int) - 2 ^ (8 * n) else (x : Int)
  match aop with
  | 0 => if kind = 3 then (F.fin .rn false false (sumFV .rn [F.val false old, F.val false b])).1 else (old + b) % 2 ^ (8 * n)
  | 1 => if kind = 3 then minmax F false true old b else if sg b < sg old then b else old
  | 2 => if kind = 3 then minmax F false false old b else if sg old < sg b then b else old
  | 3 => Nat.land old b
  | 4 => Nat.lor old b
  | 5 => Nat.xor old b
  | 6 => b
  | 7 => if b ≤ old then 0 else old + 1
  | _ => if old = 0 ∨ b < old then b else old - 1

/-- The exact addition of R234 to a cell, which fills the word's tag. -/
def State.addCell (s : State) (pa : Nat) (c : Cell) (b : Nat) : State :=
  State.answer { s with cells := s.cells.set none (pa / 4) (some (c.add b)), empties := s.empties.set false (pa / 8) false }

/-- One atomic on the word at a place. Where the agent's carved region serves the word, its copy takes the operation even if a cell is
declared at home (log entry 85). -/
def State.atomAt (s : State) (ag : Ag) (p : Place) (n kind aop b : Nat) : State :=
  match p with
  | .glob (.phys pa) =>
    match (if n = 4 ∧ kind = 3 ∧ aop = 0 then FMap.get none s.cells (pa / 4) else none) with
    | some c => s.addCell pa c b
    | none => s.writeAt ag p n (atomNew n kind aop (s.readAt ag p n) b)
  | _ => s.writeAt ag p n (atomNew n kind aop (s.readAt ag p n) b)

/-- An atomic that leaves the value as it is: the tags of the words become full (R235), and a cell is loaded again from its rounded value
(R234). -/
def State.atomKeeps (s : State) (ag : Ag) (p : Place) (n : Nat) : State :=
  match p with
  | .glob (.phys pa) => s.writePhys pa (toBytes n (s.readPhys pa n))
  | .glob (.copy ri va) =>
    let s1 := s.fillLine ag ri va
    let r := s1.region ri
    let c := (r.lines.find? (lineAt r va)).getD {}
    let r' : Region := { r with lines := r.lines.insert (lineAt r va) { c with empty := if bitN c.empty (va % 64 / 8) then c.empty - 2 ^ (va % 64 / 8) else c.empty } }
    State.answer { s1 with regions := s1.regions.set ri r' }
  | .sp _ _ => s

/-- `cas` (R231): compare value in the low half of the operand, new value in the high half; a comparison that fails changes no value. -/
def State.casAt (s : State) (ag : Ag) (p : Place) (n v : Nat) : State :=
  if s.readAt ag p n = v % 2 ^ (8 * n) then s.writeAt ag p n (v / 2 ^ (8 * n)) else s.atomKeeps ag p n

/-! ## Stores not yet performed (R193, R222, R224, R365)

A store is performed at its issue or at any later time, lane by lane, as a free choice has it. What its own context must see of it
in program order, and what a publishing act of the context covers, is performed before (log entry 73). -/

def Place.late : Place → LatePlace
  | .glob (.phys pa) => .phys pa
  | .glob (.copy _ va) => .copy va
  | .sp ck a => .sp ck a

def LatePlace.place (s : State) (ag : Ag) : LatePlace → Option Place
  | .phys pa => some (.glob (.phys pa))
  | .copy va => (s.regionOf ag va).map (fun ri => .glob (.copy ri va))
  | .sp ck a => some (.sp ck a)

/-- The entry must be performed before an access to n bytes at a place by its own context: they share a byte, or both go to
scratchpads (R222). -/
def Late.before (e : Late) (p : LatePlace) (n : Nat) : Bool :=
  match e.place, p with
  | .phys a, .phys b => decide (a < b + n) && decide (b < a + e.n)
  | .copy a, .copy b => decide (a < b + n) && decide (b < a + e.n)
  | .sp _ _, .sp _ _ => true
  | _, _ => false

/-- The old values that an atomic gives to registers which its access still has to write. -/
def Access.gets (a : Access) (l : FMap Word) : Access :=
  { a with writes := (l.filter (fun q => a.due.contains q.1)).foldl (fun m q => m.insert q.1 q.2) a.writes
           due := a.due.filter (fun k => !(l.map Prod.fst).contains k) }

/-- The old values of a lane of an atomic join what its access will write. -/
def State.gotOld (s : State) (x : Sel) (acc : Nat) (l : FMap Word) : State :=
  s.modWave x.wk (fun w => { w with accs := w.accs.map (fun a => if a.id = acc then a.gets l else a) })

/-- An entry is performed; the old value of an atomic joins what its access will write. -/
def State.perform (s : State) (x : Sel) (e : Late) : State :=
  let ag := s.agent x
  match e.place.place s ag with
  | none => s
  | some p =>
    match e.op with
    | none => s.writeAt ag p e.n e.v
    | some (kind, aop) =>
      let old := s.readAt ag p e.n
      let s1 := if aop = 9 then s.casAt ag p e.n e.v else s.atomAt ag p e.n kind aop e.v
      match e.dst with
      | none => s1
      | some code => s1.gotOld x e.acc (regWrites code (e.n / 4) e.lane old)

/-- The entries of a wave that the test picks are performed, in program order. -/
def State.performAll (s : State) (x : Sel) (ok : Late → Bool) : State :=
  let l := (s.wave x.wk).late
  if l.isEmpty then s
  else (l.filter ok).foldl (fun s e => s.perform x e) (s.modWave x.wk (fun w => { w with late := l.filter (fun e => !ok e) }))

/-- A publishing act of a context: its earlier stores are performed (R373). -/
def State.publish (s : State) (x : Sel) : State := s.performAll x (fun e => e.ctx == x.ctx)
/-- The same of every context of a wave. -/
def State.publishWave (s : State) (x : Sel) : State := s.performAll x (fun _ => true)
/-- What ended tails stored is performed (R190). -/
def State.publishTails (s : State) (x : Sel) : State := s.performAll x (fun e => e.ctx == 64)

/-- Before a context accesses these places it has performed what it stored there (R222). -/
def State.inOrder (s : State) (x : Sel) (ps : List (LatePlace × Nat)) : State :=
  if (s.wave x.wk).late.any (fun e => e.ctx == x.ctx && ps.any (fun p => e.before p.1 p.2)) then s.publish x else s

/-- The pieces of an access that are performed apart: 16 bytes go as two halves (R221). -/
def Place.plus (k : Nat) : Place → Place
  | .glob (.phys pa) => .glob (.phys (pa + k))
  | .glob (.copy ri va) => .glob (.copy ri (va + k))
  | .sp ck a => .sp ck (a + k)
def pieces (p : Place) (n v : Nat) : List (Place × Nat × Nat) :=
  if n = 16 then [(p, 8, v % 2 ^ 64), (p.plus 8, 8, v / 2 ^ 64)] else [(p, n, v)]

/-- The free choice whether piece k of a lane is performed later than at issue. -/
def lateChoice (tick lane k : Nat) : Bool := Config.choice tick (4096 + 8 * lane + k)

/-- One piece of a store: performed now, or later. -/
def State.storePiece (s : State) (x : Sel) (ag : Ag) (acc lane : Nat) (later : Bool) (p : Place) (n v : Nat) : State :=
  if later then s.modWave x.wk (fun w => { w with late := w.late ++ [{ ctx := x.ctx, acc := acc, lane := lane, place := p.late, n := n, v := v }] })
  else (s.inOrder x [(p.late, n)]).writeAt ag p n v

/-- A lane's store of n bytes. -/
def State.storeLane (s : State) (x : Sel) (ag : Ag) (acc lane : Nat) (p : Place) (n v : Nat) : State :=
  let ps := pieces p n v
  ((List.range ps.length).zip ps).foldl (fun s q =>
    s.storePiece x ag acc lane (lateChoice s.tick lane q.1) q.2.1 q.2.2.1 q.2.2.2) s

/-- The stores of an access, and those before it, are performed at its completion. A store to global memory may then still be on
its way from L1 (R224): the choice leaves it for later. -/
def State.settleLate (s : State) (x : Sel) (acc : Nat) (keep : Bool) : State :=
  let old := fun (e : Late) => e.ctx == x.ctx && decide (e.acc ≤ acc)
  let stays := keep && (s.wave x.wk).late.all (fun e => !old e || e.op.isNone)
  s.performAll x (fun e => old e && !(stays && (match e.place with | .phys _ => true | _ => false)))

end Sys2Proof.Machine
end

