-- ==== Sys2Proof/Machine/Fetch.lean ====
section
/-!
DEFINITION. Machine/Fetch.lean: the fault buffer (R274 to R276), the machine-check log (R273), and the fetch of a slot
with the checks of R33 to R35 and of a transfer's target (R38, R166).
-/
namespace Sys2Proof.Machine

/-! ## The fault buffer (R274, R276) -/

def fbEnabled (d : Die) : Bool := d.fbbase.getLsbD 0
/-- Physical address of the entry at a position of the buffer. -/
def fbAt (d : Die) (i : Nat) : Nat := bits d.fbbase.toNat 47 14 * 16384 + 16 * (i % 1024)
/-- Unserved entries. -/
def fbCount (d : Die) : Nat := (d.fbtail - d.fbhead).toNat

/-- An entry of the fault buffer. -/
def fbEntry (die core ctx kind gen page : Nat) : Nat :=
  page + 2 ^ 72 * (gen % 256) + 2 ^ 80 * kind + 2 ^ 88 * (ctx % 65536) + 2 ^ 104 * (core % 128) + 2 ^ 111 * die

/-- The position of an unserved entry of the same generation for the page. -/
def State.fbFind (s : State) (die page : Nat) : Option Nat :=
  let d := s.die die
  ((List.range (min (fbCount d) 1024)).map (fun i => (d.fbhead.toNat + i) % 1024)).find? (fun i =>
    let e := s.readPhys (fbAt d i) 16
    bits e 79 72 == d.fbgen.toNat && e % 2 ^ 64 == page)

/-- A ticket (R246). -/
def ticketOf (gen i : Nat) : Nat := gen * 2 ^ 24 + i + 1

/-- A page of a context was found not resident. -/
def State.noteAbsent (s : State) (root : Option Nat) (va : Nat) : State :=
  match root with
  | some r => if s.absent.contains (r, va / 4096) then s else { s with absent := (r, va / 4096) :: s.absent }
  | none => s

/-- A post of a page to the buffer of a die: the ticket, and the state after. A full or disabled buffer drops it. -/
def State.post (s0 : State) (die core : Nat) (root : Option Nat) (ctx kind va : Nat) : Nat × State :=
  let s := s0.noteAbsent root va
  let d := s.die die
  let page := va / 4096 * 4096
  match s.fbFind die page with
  | some i => (ticketOf d.fbgen.toNat i, s)
  | none =>
    if !fbEnabled d || decide (1024 ≤ fbCount d) then
      (2 ^ 32 - 1, s.setDie die { d with fbovf := true })
    else
      let i := d.fbtail.toNat % 1024
      (ticketOf d.fbgen.toNat i,
        (s.writePhys (fbAt d i) (toBytes 16 (fbEntry die core ctx kind d.fbgen.toNat page))).setDie die
          { d with fbtail := d.fbtail + 1 })

/-- The posts of the lanes that raise `NOTRES` (R274). -/
def State.postLanes (s : State) (x : Sel) (addrs : List Addr) : State :=
  addrs.foldl (fun s a => (s.post x.die x.core (s.agent x).root (s.wave x.wk).ctxid 2 a.toNat).2) s

/-- A trap, with the posts that R274 asks of `NOTRES`. -/
def State.stopPost (s : State) (x : Sel) (t : Trap) : State :=
  (if t.cause = cNOTRES then s.postLanes x (t.faddr.map Prod.snd) else s).stop x t

/-! ## Machine checks (R273) -/

/-- The management core that serves a core (R252): key of its state. -/
def mgmtOf (die core : Nat) : Nat := if 96 ≤ core then coreKey die core else coreKey die (96 + core / 32)

/-- A record for MCLOG; while it holds one, only OVF is set. -/
def State.logMc (s : State) (die core src cause loc : Nat) : State :=
  s.modCore (mgmtOf die core) (fun c =>
    if c.mclog.getLsbD 63 then { c with mclog := c.mclog ||| ((1 : Dword) <<< 62) }
    else { c with mclog := .ofNat 64 (2 ^ 63 + 2 ^ 58 * src + 2 ^ 50 * cause + loc % 2 ^ 48) })

/-! ## The fetch line (R31 to R34) -/

/-- The XOR of the n low bits. -/
def parity (n x : Nat) : Bool := (List.range n).foldl (fun p i => p != bitN x i) false

def lineWord (line : Nat) : Nat := line % 2 ^ 32
def slotBits (line k : Nat) : Nat := line / 2 ^ (32 + 96 * k) % 2 ^ 96
/-- LWP matches. -/
def lwpOk (line : Nat) : Bool := !parity 15 (lineWord line)
/-- The parity bit of slot k matches. -/
def slotOk (line k : Nat) : Bool := parity 96 (slotBits line k) == bitN (lineWord line) (9 + k)
def tgtOf (line k : Nat) : Bool := bitN (lineWord line) k
/-- Slots k and k + 1 are a pair. -/
def pairOf (line k : Nat) : Bool := decide (k < 4) && bitN (lineWord line) (5 + k)
/-- R34: reserved bits are zero and no two adjacent PAIR bits are set. -/
def lineForm (line : Nat) : Bool :=
  bits (lineWord line) 31 15 == 0 && (List.range 3).all (fun j => !(pairOf line j && pairOf line (j + 1)))

/-- A line of five slots with the line word that the assembler computes (R32). -/
def makeLine (tgt pair : Nat) (slots : List Nat) : Nat :=
  let body := (List.range slots.length).foldl (fun v k => v + (slots[k]?).getD 0 * 2 ^ (32 + 96 * k)) 0
  let par := (List.range 5).foldl (fun v k => if parity 96 (slotBits body k) then v + 2 ^ (9 + k) else v) 0
  let w := tgt + 2 ^ 5 * pair + par
  body + w + (if parity 14 w then 2 ^ 14 else 0)

/-! ## Fetch (R33, R35, R355) -/

/-- A buffered line that serves an agent: a launch runs no line that was fetched before its acceptance (R245). -/
def FetchLine.serves (b : FetchLine) (ag : Ag) (quad addr : Nat) : Bool :=
  b.quad == quad && b.root == ag.root && b.addr == addr && (match ag.launch with | some q => decide (q < b.seq) | none => true)

/-- The line at an address as the context's core fetches it: a buffered copy, or memory. -/
def State.line (s : State) (x : Sel) (addr : Nat) : Except Nat Nat :=
  let ag := s.agent x
  match (s.core x.ck).fbuf.find? (fun b => b.serves ag (x.wave / 16) addr) with
  | some b => .ok b.data
  | none =>
    match s.home ag addr 64 .xf with
    | .at_ (.phys pa) => .ok (s.readPhys pa 64)
    | .at_ (.copy _ _) => .ok 0
    | .cause c => .error c
    | .nonres => .error cNOTRES

/-- A core keeps the translation of what it fetched (R356). -/
def State.held (s : State) (x : Sel) (addr : Nat) : State :=
  match (s.agent x).root with
  | some root => s.hold x.ck root addr
  | none => s

def lineAddr (pc : Addr) : Nat := pc.toNat / 64 * 64

/-- What a fetch gives. -/
inductive Fetched where
  | slot (w : Slot) (pair : Bool)
  | trap (cause : Nat)
  deriving DecidableEq, Repr

/-- R68 steps 1 to 3; a line that cannot be read has no line word to check. -/
def State.fetch (s : State) (x : Sel) (pc : Addr) : Fetched :=
  match s.line x (lineAddr pc) with
    | .error c => if !pcForm pc then .trap cILL_LINE else .trap c
    | .ok l =>
      if !lwpOk l then .trap cMC_PARITY
      else if !pcForm pc || !lineForm l then .trap cILL_LINE
      else if !slotOk l (pc.toNat % 8) then .trap cMC_PARITY
      else .slot (.ofNat 96 (slotBits l (pc.toNat % 8))) (pairOf l (pc.toNat % 8))

/-- A wave stops at the fetch or the decoding of its next slot: the whole path group raises the cause (R69). A parity
machine check is logged (R273) and taken apart from the instruction (R250). -/
def State.fetchTrap (s : State) (x : Sel) (cause : Nat) : State :=
  let e := s.run x
  let t : Trap := { cause := cause, pc := e.pc, mask := e.mask, act := e.mask, async := cause == cMC_PARITY
                    faddr := if cause = cPROTECT ∨ cause = cNOTRES then
                        (lanesOf e.mask).map (fun l => (l, .ofNat 57 (lineAddr e.pc))) else [] }
  (if cause = cMC_PARITY then s.logMc x.die x.core 0 cause e.pc.toNat else s).stopPost x t

/-! ## The target of a transfer (R38, R166) -/

/-- A cause with its faulting address. -/
abbrev Fail := Nat × Option Addr

/-- R38 in order; with a label the slot must also be that `lpad` (R166). -/
def State.checkTarget (s : State) (x : Sel) (pc : Addr) (label : Option Nat) : Option Fail :=
  if !pcForm pc then some (cILL_LINE, none)
  else match s.line x (lineAddr pc) with
    | .error c => some (c, some (.ofNat 57 (lineAddr pc)))
    | .ok l =>
      if !lwpOk l then some (cMC_PARITY, none)
      else if !tgtOf l (pc.toNat % 8) then some (cILL_LINE, none)
      else match label with
        | none => none
        | some lab =>
          let w := slotBits l (pc.toNat % 8)
          if bits w 95 86 == 0x189 && bits w 37 22 == lab then none else some (cLANDING, none)

end Sys2Proof.Machine
end

