-- ==== Sys2Proof/Machine/Control.lean ====
section
/-!
DEFINITION. Machine/Control.lean: branches, jump tables, calls and returns, the ends of lanes, traps and sleeping
(R160 to R176), with the return stack (R169 to R171).
-/
namespace Sys2Proof.Machine

/-! ## Transfers -/

/-- A counted backward branch (R89): every lane of the RUN entry goes to a slot at or below its own while a group
waits; the 64th rotates. -/
def countBack (frm dst : Addr) (l : List DivEntry) : List DivEntry :=
  match l with
  | [] => []
  | t :: r =>
    if decide (slotIndex dst ≤ slotIndex frm) && l.any (fun e => e.kind == 1) then
      if t.bbc == 63 then rotate ({ t with bbc := 0 } :: r) else { t with bbc := t.bbc + 1 } :: r
    else l

/-- The whole RUN entry goes to a PC and depth (R161); a branch counts. -/
def State.transfer (s : State) (cx : Cx) (pc : Addr) (depth : Half) (count : Bool) : State :=
  match s.stack cx.sel with
  | [] => s
  | t :: r =>
    let l := { t with pc := pc, depth := depth } :: r
    s.setStack cx.sel (if count then countBack cx.run.pc pc l else l)

/-- The RUN entry splits (R161). -/
def State.splitRun (s : State) (cx : Cx) (join : Option Addr) (groups : List (Addr × Half × Mask)) : State :=
  match s.stack cx.sel with
  | [] => s
  | p :: r => s.setStack cx.sel (split p join groups r)

/-- Where lanes that do not transfer go on. -/
def Cx.next (cx : Cx) : Addr := (nextPc cx.run.pc).getD cx.run.pc

/-- The return site of a call (R172): the next slot; after the last slot of the address space no slot follows, and the
value is left open (log entry 14). -/
def Cx.retPc (cx : Cx) (tick : Nat) : Addr := (nextPc cx.run.pc).getD (.ofNat 57 (Config.pick tick 57))

/-- The lanes of P that are not active. -/
def Cx.idle (cx : Cx) : Mask := cx.run.mask &&& ~~~cx.mask

/-- Lanes by target, lowest target first. -/
def groupBy (l : List (Nat × Addr)) : List (Addr × Mask) :=
  ((l.map (fun p => p.2.toNat)).mergeSort.eraseDups).map (fun t =>
    (.ofNat 57 t, maskOf ((l.filter (fun p => p.2.toNat == t)).map Prod.fst)))

/-- The grouping of R168, R172, R173 and R180. -/
def State.regroup (s : State) (cx : Cx) (join : Option Addr) (stay : Mask) (depth : Half) (count : Bool)
    (l : List (Nat × Addr)) : State :=
  match stay == 0, groupBy l with
  | true, [(t, _)] => s.transfer cx t depth count
  | _, gs => s.splitRun cx join ((cx.next, cx.run.depth, stay) :: gs.map (fun g => (g.1, depth, g.2)))

/-! ## Causes of a transfer (R37, R38, R161) -/

/-- The check of a target that may lie outside the range. -/
def State.failOf (s : State) (x : Sel) (dst : Option Addr) (label : Option Nat) : Option Fail :=
  match dst with
  | none => some (cILL_LINE, none)
  | some t => s.checkTarget x t label

/-- The posts of lanes that raise `NOTRES` (R274). -/
def State.postCauses (s : State) (x : Sel) (l : List Fail) : State :=
  s.postLanes x (l.filterMap (fun c => if c.1 = cNOTRES then c.2 else none))

/-- A control plan that takes effect in no lane where some lane fails (R161). A parity machine check on the way is
logged (R273). -/
def Plan.failing (p : Plan) (cx : Cx) (fail : Nat → Option Fail) : Plan :=
  let bad := cx.act.filterMap fail
  { p with
    whole := true
    lane := fail
    always := fun _ s =>
      (if bad.any (fun c => c.1 == cMC_PARITY) then s.logMc cx.sel.die cx.sel.core 0 cMC_PARITY cx.run.pc.toNat
        else s).postCauses cx.sel bad }

/-- Nothing but the next slot. -/
def planNop : Plan := { run := fun _ s => s }

/-- A control instruction that transfers no lane: in no lane where some lane raises a cause (R161). -/
def planStay : Plan := { planNop with whole := true }

/-! ## Branches (R162 to R164) -/

/-- R163 with the taken lanes T: the displacement, the join displacement (0 for none). -/
def planBranch (cx : Cx) (s : State) (T : List Nat) (disp join : Int) : Plan :=
  let t := target cx.run.pc disp
  let N := cx.run.mask &&& ~~~(maskOf T)
  let j := if join ≠ 0 then target cx.run.pc join else none
  if T.isEmpty then planStay
  else
    let p : Plan :=
      { moved := true
        stays := N != 0
        run := fun _ s =>
          if N == 0 then s.transfer cx (t.getD 0) cx.run.depth true
          else s.splitRun cx j [(cx.next, cx.run.depth, N), (t.getD 0, cx.run.depth, maskOf T)] }
    p.failing cx (fun l =>
      if T.contains l then
        (s.failOf cx.sel t none).orElse (fun _ =>
          if N != 0 && join ≠ 0 && j.isNone then some (cILL_LINE, none) else none)
      else none)

/-- The lanes in which a condition holds (R163, R164). -/
def BrF.takes (f : BrF) (cx : Cx) (s : State) : List Nat :=
  cx.act.filter (fun l => bitN (cx.src s .A f.a 1 l) 0 != f.mod.getLsbD 0)

def execNop (f : PlainR) (s : State) : Host.Outcome State Fault Refusal := issue (.nop f) f.h s (fun _ _ => planNop)

def execBr (f : BrF) (s : State) : Host.Outcome State Fault Refusal := issue (.br f) f.h s (fun cx s =>
  planBranch cx s cx.act f.disp.toInt 0)

def execBrc (f : BrF) (s : State) : Host.Outcome State Fault Refusal := issue (.brc f) f.h s (fun cx s =>
  planBranch cx s (BrF.takes f cx s) f.disp.toInt f.join.toInt)

/-- R164: the whole entry, or nothing. -/
def planWhole (cx : Cx) (s : State) (go : Bool) (disp : Int) : Plan :=
  if go then
    let t := target cx.run.pc disp
    Plan.failing { moved := true, run := fun _ s => s.transfer cx (t.getD 0) cx.run.depth true } cx
      (fun _ => s.failOf cx.sel t none)
  else planStay

def execBrany (f : BrF) (s : State) : Host.Outcome State Fault Refusal := issue (.brany f) f.h s (fun cx s =>
  planWhole cx s (!(BrF.takes f cx s).isEmpty) f.disp.toInt)

def execBrall (f : BrF) (s : State) : Host.Outcome State Fault Refusal := issue (.brall f) f.h s (fun cx s =>
  planWhole cx s ((BrF.takes f cx s).length == cx.act.length) f.disp.toInt)

/-! ## Jump tables (R165 to R168) -/

/-- What a lane finds in a table: a target, or the cause of the first failing check (R167). -/
inductive Entry where
  | goes (pc : Addr)
  | fail (f : Fail)
  deriving DecidableEq, Repr

/-- R165, R167 steps 1 to 3. The entry is read as a load of its context, which sees what the context stored before (R222). -/
def State.tableEntry (s : State) (cx : Cx) (f : XF) (l : Nat) : Entry :=
  let i := cx.src s .A f.a 1 l
  let base := cx.src s .B f.b 2 l
  let a := base + 8 * i
  let ag := s.agent cx.sel
  if f.bound ≤ i then .fail (cBOUND, none)
  else if 2 ^ 57 < a + 8 then .fail (cPROTECT, some (.ofNat 57 a))
  else if base % 8 ≠ 0 then .fail (cALIGN, some (.ofNat 57 a))
  else match s.locate ag a 8 .rd with
    | .cause c => .fail (c, some (.ofNat 57 a))
    | .nonres => .fail (cNOTRES, some (.ofNat 57 a))
    | .at_ loc =>
      let e := (s.inOrder cx.sel [(Place.late (.glob loc), 8)]).readLoc ag loc 8
      if 2 ^ 57 ≤ e then .fail (cILL_LINE, none)
      else match s.checkTarget cx.sel (.ofNat 57 e) (some f.label) with
        | some x => .fail x
        | none => .goes (.ofNat 57 e)

def Entry.fail? : Entry → Option Fail
  | .fail f => some f
  | .goes _ => none
def Entry.pc : Entry → Addr
  | .goes p => p
  | .fail _ => 0

/-- Where the lanes' table entries lie. -/
def State.tablePlaces (s : State) (cx : Cx) (f : XF) : List (Nat × Loc) :=
  cx.act.filterMap (fun l =>
    let a := cx.src s .B f.b 2 l + 8 * cx.src s .A f.a 1 l
    match s.locate (s.agent cx.sel) a 8 .rd with | .at_ loc => some (a, loc) | _ => none)

/-- The lanes' table reads come after what their context stored there, and leave their translations and filled lines. -/
def State.tableTouch (s : State) (cx : Cx) (ps : List (Nat × Loc)) : State :=
  ps.foldl (fun s p => s.touch (s.agent cx.sel) p.1 p.2) (s.inOrder cx.sel (ps.map (fun p => (Place.late (.glob p.2), 8))))

/-- R165 to R168. Whether the lanes form several groups, and so need the join, is told with target 0 for a lane that fails a check (log
entry 71). -/
def execJtab (f : XF) (s : State) : Host.Outcome State Fault Refusal := issue (.jtab f) f.h s (fun cx s =>
  let ts := cx.act.map (fun l => (l, (s.tableEntry cx f l).pc))
  let one := cx.idle == 0 && (groupBy ts).length == 1
  let jd := (BitVec.ofNat 18 f.join18).toInt
  let j := if jd ≠ 0 && !one then target cx.run.pc jd else none
  Plan.failing
    { moved := true
      stays := cx.idle != 0
      run := fun _ t => (t.tableTouch cx (s.tablePlaces cx f)).regroup cx j cx.idle cx.run.depth true ts } cx
    (fun l => (s.tableEntry cx f l).fail?.orElse (fun _ =>
      if jd ≠ 0 && !one && j.isNone then some (cILL_LINE, none) else none)))

/-! ## The return stack (R169 to R171) -/

/-- Entries per lane in the call spill area; a redirected wave runs with none (R258). -/
def State.spillCap (s : State) (x : Sel) : Nat :=
  if (s.wave x.wk).state == 3 then 0 else (s.groupOf x).cspill / 512

def Wave.setRet (w : Wave) (lane : Nat) (l : LaneStack) : Wave :=
  { w with div := { w.div with rets := w.div.rets.set {} lane l } }

/-- A push in the lane raises no `STACK`. -/
def State.canPush (s : State) (x : Sel) (lane : Nat) : Bool :=
  let l := (s.wave x.wk).ret lane
  !(l.oncnt == 4 && (l.spcnt == s.spillCap x || l.depth == 65535))

/-- The on-chip entries without the oldest. -/
def dropOldest (m : FMap RetEntry) : FMap RetEntry :=
  FMap.setMany {} [] ((List.range 3).map (fun i => (i, FMap.get {} m (i + 1))))

/-- Push(L, e) of R171. -/
def State.pushRet (s : State) (x : Sel) (lane : Nat) (e : RetEntry) : State :=
  let l := (s.wave x.wk).ret lane
  if l.oncnt = 4 then
    (s.modCore x.ck (fun c => c.setScratchN (s.spillAt x l.spcnt lane) 16 (FMap.get {} l.ent 0).toNat)).modWave x.wk
      (fun w => w.setRet lane ⟨l.spcnt + 1, 4, FMap.set {} (dropOldest l.ent) 3 e⟩)
  else s.modWave x.wk (fun w => w.setRet lane { l with oncnt := l.oncnt + 1, ent := l.ent.set {} l.oncnt e })

/-- The entry that Pop(L) of R171 returns, and the lane's stack after it. -/
def State.popRet (s : State) (x : Sel) (lane : Nat) : RetEntry × LaneStack :=
  let l := (s.wave x.wk).ret lane
  if l.oncnt = 0 then
    (s.topRet x lane, ⟨l.spcnt - 1, 0, []⟩)
  else (s.topRet x lane, { l with oncnt := l.oncnt - 1, ent := l.ent.set {} (l.oncnt - 1) {} })

/-! ## Calls and returns (R172, R173) -/

/-- Every active lane pushes its return entry and enters its target (R172). -/
def State.enter (s : State) (cx : Cx) (base : Opnd) (fs : Nat) (ts : List (Nat × Addr)) : State :=
  let fb := match base with | .v r => r | _ => 0
  let e : RetEntry := ⟨cx.retPc s.tick, .ofNat 9 fb, .ofNat 9 fs⟩
  let s1 := cx.act.foldl (fun s l => s.pushRet cx.sel l e) s
  let d := cx.run.depth + 1
  match cx.idle == 0, groupBy ts with
  | true, [(t, _)] => s1.transfer cx t d false
  | _, gs => s1.splitRun cx (some (cx.retPc s.tick)) (gs.map (fun g => (g.1, d, g.2)))

def execCall (f : BrF) (s : State) : Host.Outcome State Fault Refusal := issue (.call f) f.h s (fun cx s =>
  let t := target cx.run.pc f.disp.toInt
  Plan.failing
    { moved := true
      run := fun _ s => s.enter cx f.a f.fs (cx.act.map (fun l => (l, t.getD 0))) } cx
    (fun l => (s.failOf cx.sel t none).orElse (fun _ =>
      if s.canPush cx.sel l then none else some (cSTACK, none))))

def execCallt (f : XF) (s : State) : Host.Outcome State Fault Refusal := issue (.callt f) f.h s (fun cx s =>
  let ts := cx.act.map (fun l => (l, (s.tableEntry cx f l).pc))
  Plan.failing
    { moved := true
      run := fun _ t => (t.tableTouch cx (s.tablePlaces cx f)).enter cx f.d f.fs ts } cx
    (fun l => (s.tableEntry cx f l).fail?.orElse (fun _ =>
      if s.canPush cx.sel l then none else some (cSTACK, none))))

/-- The lanes leave every entry of the context; a lane of the main context is gone from the wave (R87, R174). -/
def State.endLanes (s : State) (cx : Cx) (m : Mask) : State := s.setStack cx.sel (dropLanes m (s.stack cx.sel))

/-! ### The last lane (R298, R336) -/

/-- A guarded command not yet resolved since its issue is discarded. -/
def CopyCmd.orphan (wave : Nat) (c : CopyCmd) : CopyCmd :=
  if c.wave = wave ∧ c.gslot.isSome ∧ c.res = none then { c with res := some false } else c

def MxItem.guarded (m : MxItem) : Bool := m.kind == 0 && bitN m.blk (8 * 34 + 7)
def MxItem.gslot (m : MxItem) : Nat := bits m.blk (8 * 34 + 2) (8 * 34)

/-- What is left of a wave's run-ahead once its last lane is gone (R336): a guarded job is ended, in its run or when it reaches the
head, and an `mxwr` opens no slot. -/
def MxItem.orphan (wave : Nat) (i : MxItem) : MxItem :=
  if i.wave ≠ wave then i
  else if i.guarded then { i with cancel := true }
  else if i.kind = 2 ∧ bitN i.eng 1 then { i with eng := i.eng - 2 } else i

/-- The unit after the last lane of a wave is gone (R336): the open slot resolves false ahead of everything (a resolution with `eng` 2).
A guarded job whose resolution is queued but has not taken effect counts as not resolved (log entry 76). -/
def Mx.orphan (m : Mx) (wave tick : Nat) : Mx :=
  let mine := (match m.slot with | some (w, _) => w == wave | none => false) || m.done.any (fun i => decide (i.wave = wave))
  { m with
    entering := m.entering.map (MxItem.orphan wave)
    queue := m.queue.map (MxItem.orphan wave) ++
      (if mine then [{ kind := 5, wave := wave, gid := 0, at_ := tick, off := 0, eng := 2 }] else []) }

/-- When the last lane of a wave has exited, nothing guarded is left unresolved. -/
def State.lastLane (s : State) (x : Sel) : State :=
  if x.main && (s.wave x.wk).div.stack.all (fun e => e.mask == 0) then
    s.modCore x.ck (fun c =>
      { c with
        chans := c.chans.map (fun p => (p.1, { p.2 with
          entering := p.2.entering.map (CopyCmd.orphan x.wave), queue := p.2.queue.map (CopyCmd.orphan x.wave) }))
        mx := c.mx.orphan x.wave s.tick })
  else s

/-- The RUN entry goes on at the next slot. -/
def State.stepRun (s : State) (cx : Cx) : State :=
  match s.stack cx.sel with
  | [] => s
  | t :: r => s.setStack cx.sel ({ t with pc := cx.next } :: r)

/-- R173: lanes at depth 0 exit, the others go to their return PCs and leave tail mode (R182). -/
def State.retMain (s : State) (cx : Cx) : State :=
  let gone := cx.act.filter (fun l => ((s.wave cx.sel.wk).ret l).depth == 0)
  let back := cx.act.filter (fun l => ((s.wave cx.sel.wk).ret l).depth != 0)
  let ts := back.map (fun l => (l, (s.popRet cx.sel l).1.rpc))
  let s1 := back.foldl (fun s l => s.modWave cx.sel.wk (fun w => w.setRet l (s.popRet cx.sel l).2)) s
  let s2 := s1.modWave cx.sel.wk (fun w => { w with div := { w.div with tmode := w.div.tmode &&& ~~~(maskOf back), tsets := back.foldl FMap.erase w.div.tsets } })
  ((s2.regroup cx none cx.idle (cx.run.depth - 1) false ts).endLanes cx (maskOf gone)).lastLane cx.sel

/-- R186: the active lanes of a tail end in it. -/
def State.retTail (s : State) (cx : Cx) : State := (s.stepRun cx).endLanes cx cx.mask

def execRet (f : PlainR) (s : State) : Host.Outcome State Fault Refusal := issue (.ret f) f.h s (fun cx _ =>
  { moved := true, stays := cx.idle != 0
    run := fun _ s => if cx.sel.main then s.retMain cx else s.retTail cx })

/-! ## Landing pads, ends, traps and sleep (R166, R174 to R176) -/

def execLpad (f : PlainI) (s : State) : Host.Outcome State Fault Refusal := issue (.lpad f) f.h s (fun _ _ => planNop)

def execExit (f : PlainR) (s : State) : Host.Outcome State Fault Refusal := issue (.exit f) f.h s (fun cx _ =>
  { moved := true, stays := cx.idle != 0, run := fun _ s => ((s.stepRun cx).endLanes cx cx.mask).lastLane cx.sel })

def execTrap (f : PlainI) (s : State) : Host.Outcome State Fault Refusal := issue (.trap f) f.h s (fun _ _ =>
  { wave := some cTRAP, number := .ofNat 16 f.imm.toNat, run := fun _ s => s })

def execBrk (f : PlainI) (s : State) : Host.Outcome State Fault Refusal := issue (.brk f) f.h s (fun _ _ =>
  { wave := some cBRK, number := .ofNat 16 f.imm.toNat, run := fun _ s => s })

/-- The context sleeps until the watch counter stands n ticks on (R176). -/
def State.sleeps (s : State) (x : Sel) (n : Nat) : State :=
  if n = 0 then s
  else s.modCtx x (fun c => { c with sleep := some (((s.die x.die).watch.toNat + n) % 2 ^ 64) })

def execSleep (f : PlainI) (s : State) : Host.Outcome State Fault Refusal := issue (.sleep f) f.h s (fun cx _ =>
  { run := fun _ s => s.sleeps cx.sel f.imm16 })

end Sys2Proof.Machine
end

