-- ==== Sys2Proof/Machine/Tails.lean ====
section
/-!
DEFINITION. Machine/Tails.lean: `baton` and `fjoin` (R178 to R190).
-/
namespace Sys2Proof.Machine

/-- The lane passes the checks of R180: the frame of its top return entry is that of lane F, holds the source and is
clear of the destination. Where lane F has no entry, e.F is what its oldest spill slot holds (log entry 69). -/
def State.batonOk (s : State) (cx : Cx) (d a n l : Nat) : Bool :=
  let e := s.topRet cx.sel l
  let eF := s.topRet cx.sel cx.F
  let fb := e.fb.toNat
  let fs := e.fs.toNat
  decide (1 ≤ ((s.wave cx.sel.wk).ret l).depth) && decide (1 ≤ fs) && e.fb == eF.fb && e.fs == eF.fs
    && decide (fb ≤ a) && decide (a + n ≤ fb + fs) && (decide (d + n ≤ fb) || decide (fb + fs ≤ d))

/-- The copy of R180: every read before every write, plain, and interlocked. -/
def State.batonCopy (s : State) (cx : Cx) (d a n : Nat) (lanes : List Nat) : State :=
  (s.modWave cx.sel.wk (fun w => lanes.foldl (fun w' l => w'.putN s.tick d l n (w.regN a l n)) w)).pending
    cx.sel ((List.range n).map (d + ·))

/-- The lowest free tail slot of a core (R181); management cores have 32 of them too (R183; log entry 69). -/
def State.freeTail (s : State) (ck : Nat) : Option Nat := lowest 32 (fun t => !(s.tail (ck * 32 + t)).valid)

/-- MakeTail (R181). -/
def State.makeTail (s : State) (cx : Cx) (t : Nat) (e : RetEntry) : State :=
  s.setTail (cx.sel.ck * 32 + t)
    { valid := true, wave := cx.sel.wave, fb := e.fb, fs := e.fs, lanes := cx.mask
      stack := [runE cx.next cx.run.depth cx.mask] }

/-- The fast path: the tail runs on from the next slot, the caller restarts (R180, R181). -/
def State.batonFast (s : State) (cx : Cx) (t : Nat) : State :=
  let e := s.topRet cx.sel cx.F
  let ts := cx.act.map (fun l => (l, (s.topRet cx.sel l).rpc))
  let s1 := (s.makeTail cx t e).modCore cx.sel.ck (fun c => { c with tlFast := c.tlFast + 1 })
  let s2 := cx.act.foldl (fun s' l => s'.modWave cx.sel.wk (fun w => w.setRet l (s.popRet cx.sel l).2)) s1
  s2.regroup cx none cx.idle (cx.run.depth - 1) false ts

/-- The slow path: the lanes enter tail mode and go on (R182); where no lane is idle the RUN entry stays. -/
def State.batonSlow (s : State) (cx : Cx) : State :=
  let s1 := (s.modCore cx.sel.ck (fun c => { c with tlSlow := c.tlSlow + 1 })).modWave cx.sel.wk (fun w =>
    { w with div := { w.div with tmode := w.div.tmode ||| cx.mask, tsets := cx.act.foldl (fun m l => m.insert l cx.mask) w.div.tsets } })
  if cx.idle == 0 then s1
  else s1.splitRun cx none [(cx.next, cx.run.depth, cx.idle), (cx.next, cx.run.depth, cx.mask)]

def execBaton (f : PlainI) (s : State) : Host.Outcome State Fault Refusal := issue (.baton f) f.h s (fun cx s =>
  let d := match f.d with | .v r => r | _ => 0
  let a := match f.a with | .v r => r | _ => 0
  let n := f.batonN
  if s.tailish cx.sel then { run := fun ls s => (s.publish cx.sel).batonCopy cx d a n ls }
  else
    { lane := fun l => if s.batonOk cx d a n l then none else some (cFRAME, none)
      whole := true
      moved := (s.freeTail cx.sel.ck).isSome || cx.idle != 0
      stays := true
      run := fun ls s =>
        let s1 := (s.publish cx.sel).batonCopy cx d a n ls
        match s1.freeTail cx.sel.ck with
        | some t => s1.batonFast cx t
        | none => s1.batonSlow cx })

/-- R190: it waits for every tail of the wave, and what ended tails stored is performed. -/
def execFjoin (f : PlainR) (s : State) : Host.Outcome State Fault Refusal := issue (.fjoin f) f.h s (fun cx s =>
  { wait := if (s.tailsOf cx.sel.ck cx.sel.wave).isEmpty then none else some s
    run := fun _ s => s.publishTails cx.sel })

end Sys2Proof.Machine
end

