-- ==== Sys2Proof/Machine/Queues.lean ====
section
/-!
DEFINITION. Machine/Queues.lean: queue bindings (R196 to R201), named barriers (R209 to R216) and `waitc` (R248).
-/
namespace Sys2Proof.Machine

/-! ## Bindings -/

/-- A wave's push to a record has not yet taken place. -/
def Core.pushing (c : Core) (wave qi : Nat) : Bool := c.pushes.any (fun p => decide (p.wave = wave) && decide (p.qr = qi))

/-- The valid records of a group. -/
def Core.ownRecs (c : Core) (gid : Nat) : List (Nat × QRec) :=
  c.queues.filter (fun p => p.2.valid && decide (p.2.gid = gid))

/-- The record of the group that a new binding joins (R199). -/
def Core.joins (c : Core) (gid base : Nat) : Option (Nat × QRec) := (c.ownRecs gid).find? (fun p => decide (p.2.base = base))

/-- R199 for name qn, apart from whether it is bound already: the ring and the pool allow the binding. -/
def State.bindOk (s : State) (x : Sel) (qn base depth dir : Nat) : Bool :=
  let c := s.core x.ck
  let w := s.wave x.wk
  let g := s.groupOf x
  decide (base % 128 = 0) && decide (base + 4 * depth ≤ g.sd) && !c.engineOwned (g.sbase * 1024 + base) (4 * depth)
    && !(c.ownRecs w.gid).any (fun p =>
        decide (p.2.base ≠ base) && decide (p.2.base < base + 4 * depth) && decide (base < p.2.base + 4 * p.2.depth))
    && (match c.joins w.gid base with
      | some (qi, r) => decide (r.depth = depth) && decide (r.dir = dir)
          && !w.binds.any (fun b => decide (b.1 ≠ qn) && bnd b.2 && decide (bRec b.2 = qi))
      | none => (lowest 64 (fun i => !(FMap.get {} c.queues i).valid)).isSome
          && !(decide (dir ≠ 0) && c.queues.any (fun p => p.2.valid && decide (p.2.dir = dir))))

/-- A binding raises the counts, and clears CLOSED when it may push. -/
def QRec.bound (r : QRec) (role : Nat) : QRec :=
  { r with pcnt := r.pcnt + (roleProd role).toNat, ccnt := r.ccnt + (roleCons role).toNat
           closed := r.closed && !roleProd role }

/-- The wave joins the record at BASE or sets up the lowest free one (R199). -/
def State.bindQueue (s : State) (x : Sel) (qn base depth dir role : Nat) : State :=
  let c := s.core x.ck
  let w := s.wave x.wk
  let p : Nat × QRec := match c.joins w.gid base with
    | some q => q
    | none => ((lowest 64 (fun i => !(FMap.get {} c.queues i).valid)).getD 0,
        { valid := true, dir := dir, depth := depth, base := base, gid := w.gid })
  (s.modCore x.ck (fun c => { c with queues := c.queues.set {} p.1 (p.2.bound role) })).modWave x.wk (fun w =>
    { w with binds := w.binds.set 0 qn (mkBind role p.1) })

def execQbind (f : XF) (s : State) : Host.Outcome State Fault Refusal := issue (.qbind f) f.h s (fun cx s =>
  let base := cx.src s .A f.a 1 cx.F
  let bad := bnd ((s.wave cx.sel.wk).bind f.qn) || !s.bindOk cx.sel f.qn base f.qDepth f.qDir
  { wave := if bad then some cQUEUE else none
    run := fun _ s => s.bindQueue cx.sel f.qn base f.qDepth f.qDir f.qRole })

/-- A record that nothing binds is no longer valid, and its elements are discarded (R200). -/
def QRec.orphan (r : QRec) : QRec := if r.pcnt = 0 ∧ r.ccnt = 0 then { r with valid := false, count := 0 } else r

/-- A binding entry with BND cleared. -/
def unbound (b : Half) : Half := b &&& 0x7FFF

/-- A binding ends (R200): BND is cleared, the counts fall, and the record of no binding is freed. -/
def State.freeBinding (s : State) (x : Sel) (qn : Nat) : State :=
  let b := (s.wave x.wk).bind qn
  let s1 := s.modWave x.wk (fun w => { w with binds := w.binds.set 0 qn (unbound b) })
  s1.modCore x.ck (fun c =>
    let r := FMap.get {} c.queues (bRec b)
    let r' := { r with pcnt := r.pcnt - (roleProd (bRole b)).toNat, ccnt := r.ccnt - (roleCons (bRole b)).toNat }
    { c with queues := c.queues.set {} (bRec b) r'.orphan })

/-- R200 forbids freeing the last binding of a queue that an accepted matrix job names. -/
def State.freeBarred (s : State) (x : Sel) (b : Half) : Bool :=
  let r := FMap.get {} (s.core x.ck).queues (bRec b)
  decide (r.pcnt + r.ccnt = (roleProd (bRole b)).toNat + (roleCons (bRole b)).toNat) && decide (r.dir ≠ 0)
    && s.mxNames x.ck (bRec b)

def execQfree (f : XF) (s : State) : Host.Outcome State Fault Refusal := issue (.qfree f) f.h s (fun cx s =>
  let b := (s.wave cx.sel.wk).bind f.qn
  { wave := if !bnd b || s.freeBarred cx.sel b then some cQUEUE else none
    wait := if (s.core cx.sel.ck).pushing cx.sel.wave (bRec b) then some s else none
    run := fun _ s => s.freeBinding cx.sel f.qn })

/-- The status word of R201. -/
def State.queueStat (s : State) (x : Sel) (qn : Nat) : Nat :=
  let b := (s.wave x.wk).bind qn
  let r := FMap.get {} (s.core x.ck).queues (bRec b)
  if bnd b then
    2 ^ 31 + r.closed.toNat * 2 ^ 30 + r.dir * 2 ^ 28 + bRole b * 2 ^ 26 + r.count * 2 ^ 13 + r.pcnt * 2 ^ 8
      + r.ccnt * 2 ^ 3 + (s.mxp x.ck (bRec b)).toNat * 4
  else 0

def execQstat (f : PlainR) (s : State) : Host.Outcome State Fault Refusal := issue (.qstat f) f.h s (fun cx s =>
  let qn := f.mod.toNat % 32
  let b := (s.wave cx.sel.wk).bind qn
  { wait := if bnd b && (s.core cx.sel.ck).pushing cx.sel.wave (bRec b) then some s else none
    run := fun ls s => cx.putD f.d 1 ls (fun _ => s.queueStat cx.sel qn) s })

/-! ## Barriers (R209 to R213) -/

def State.bar (s : State) (ck i : Nat) : Bar := FMap.get {} (s.core ck).bars i
def State.setBar (s : State) (ck i : Nat) (b : Bar) : State :=
  s.modCore ck (fun c => { c with bars := c.bars.set {} i b })

/-- The record a wave's barrier operation reaches: its own, or for a cluster barrier the home of its die (R212). -/
def State.barAt (s : State) (x : Sel) (b : Nat) (clu : Bool) : Option (Nat × Nat) :=
  let g := s.groupOf x
  let k := (s.bar x.ck (g.bbase + b)).kind
  if g.nb ≤ b then none
  else if clu then
    if k == 2 || k == 3 then
      some (coreKey x.die g.cbase, ((s.core (coreKey x.die g.cbase)).clusterGroup g.cid).bbase + b)
    else none
  else if k == 1 then some (x.ck, g.bbase + b)
  else none

/-- The group whose run of barriers holds index i. -/
def Core.barGroup (c : Core) (i : Nat) : Group :=
  (c.groups.find? (fun g => decide (g.bbase ≤ i) && decide (i < g.bbase + g.nb))).getD {}

/-- The home on the other die of a straddling cluster's barrier (R216). -/
def State.otherHome (s : State) (ck i : Nat) : Option (Nat × Nat) :=
  let g := (s.core ck).barGroup i
  if (s.bar ck i).kind == 2 && g.straddle then
    let ck' := coreKey (1 - ck / 99) g.obase
    some (ck', ((s.core ck').clusterGroup g.cid).bbase + (i - g.bbase))
  else none

/-- Advance() of R213. -/
def Bar.advance (b : Bar) : Bar := { b with phase := b.phase + 1, arr := b.exparr, bytes := 0, rwait := false }

/-- The arrival is applied: its wave gets the PHASE in force, in its token register (R97) or its `bar.sync`. -/
def State.giveToken (s : State) (wk : Nat) (ph : Half) : State :=
  s.modWave wk (fun w =>
    let w1 := match w.heldtok with
      | some (c, m) => (lanesOf m).foldl (fun (w : Wave) l => w.putDue c l (ph.setWidth 32)) w
      | none => w
    { w1 with heldtok := none, heldarr := 0
              main := { w1.main with sync := if w1.main.sync = some none then some (some ph) else w1.main.sync } })

/-- The phase that contexts wait for is over: they are blocked on the barrier no more, but for one whose own arrival is still
held (R214). -/
def Ctx.released (k : Nat) (c : Ctx) : Ctx := if c.onBar = some k ∧ c.sync ≠ some none then { c with onBar := none } else c

/-- Every wave that a completion releases. -/
def State.releaseBar (s : State) (ck i : Nat) : State :=
  { s with waves := s.waves.map (fun p => (p.1, { p.2 with main := p.2.main.released (256 * ck + i) })) }

/-- The phase of a barrier advances (R213). -/
def State.advanceBar (s : State) (ck i : Nat) (b : Bar) : State := (s.setBar ck i b.advance).releaseBar ck i

/-- The wave observes the completion of engine commands of its core (R16). -/
def State.observes (s : State) (x : Sel) (ok : Prior → Bool) : State :=
  s.modWave x.wk (fun w => { w with seen := (s.core x.ck).observed w.seen ok })

/-- The arrival counted in a phase that a wait or test for token t has seen complete: the token's, or one before it (R16, log entry 79). -/
def Prior.inPhase (k : Nat) (now t : Half) (p : Prior) : Bool :=
  match p.mark with
  | some (b, q) => b == k && decide ((t - q).toNat < 2 ^ 15) && decide ((now - 1 - q).toNat < 2 ^ 15)
  | none => false

/-- A wait or test on a barrier has found the phase of its token over (R16, R215). -/
def State.seesPhase (s : State) (x : Sel) (ck i : Nat) (t : Half) : State :=
  s.observes x (Prior.inPhase (256 * ck + i) (s.bar ck i).phase t)

/-- A held arrival that can be applied now. -/
def Held.ready (b : Bar) (i : Nat) (h : Held) : Bool := decide (h.bar = i) && !(h.a == 1 && (b.arr == 0 || b.rwait))

/-- What follows of itself from a barrier's state: a complete phase advances (or waits for the other home), and once a phase has advanced
held arrivals are applied in their order (R213, R216). -/
def State.barSettle : Nat → State → Nat → Nat → Bool → State
  | 0, s, _, _, _ => s
  | n + 1, s, ck, i, adv =>
    let b := s.bar ck i
    let now := b.sent ++ [(s.die (ck / 99)).watch.toNat]
    if b.arr = 0 ∧ b.bytes = 0 ∧ b.rwait = false then
      match s.otherHome ck i with
      | none => barSettle n (s.advanceBar ck i b) ck i true
      | some _ =>
        if 0 < b.dones then barSettle n (s.advanceBar ck i { b with dones := b.dones - 1, sent := now }) ck i true
        else s.setBar ck i { b with rwait := true, sent := now }
    else if !adv then s
    else
      match (s.core ck).held.find? (Held.ready b i) with
      | none => s
      | some h =>
        let s1 := (s.modCore ck (fun c => { c with held := c.held.erase h })).setBar ck i
          { b with arr := b.arr - h.a, bytes := b.bytes - h.x }
        barSettle n (match h.wave with | some wk => s1.giveToken wk b.phase | none => s1) ck i true

def State.barFuel (s : State) (ck : Nat) : Nat := 2 * (s.core ck).held.length + 3

/-- Arrive(a, x): the PHASE in force when it is applied, or none while it is held. -/
def State.arrive (s : State) (ck i a : Nat) (x : Word) (who : Option Nat) : Option Half × State :=
  let b := s.bar ck i
  if a = 1 ∧ (b.arr = 0 ∨ b.rwait = true) then
    (none, s.modCore ck (fun c => { c with held := c.held ++ [⟨i, who, a, x⟩] }))
  else
    let s1 := s.setBar ck i { b with arr := b.arr - a, bytes := b.bytes - x }
    (some b.phase, s1.barSettle (s1.barFuel ck) ck i false)

/-- Expect(x): a byte count that comes back to 0 with no arrival left completes the phase. -/
def State.expect (s : State) (ck i : Nat) (x : Word) : State :=
  let b := s.bar ck i
  let s1 := s.setBar ck i { b with bytes := b.bytes + x }
  if x = 0 then s1 else s1.barSettle (s1.barFuel ck) ck i false

/-- A held arrival is held in the wave's HELDARR, with the register that waits for its token (R255). -/
def State.holdArrival (s : State) (x : Sel) (b : Nat) (d : Opnd) (m : Mask) : State :=
  s.modWave x.wk (fun w =>
    { w with heldarr := .ofNat 16 (32768 + b), heldtok := match d with | .v r => some (r, m) | _ => none })

/-! ## The barrier instructions (R211 to R214) -/

/-- A plan on a barrier; `BARRIER` where the wave cannot name it (R212). -/
def Cx.onBar (cx : Cx) (s : State) (f : XF) (p : Nat → Nat → Plan) : Plan :=
  match s.barAt cx.sel f.bidx f.clu with
  | some (ck, i) => p ck i
  | none => { wave := some cBARRIER, run := fun _ s => s }

/-- A context is blocked on the barrier. -/
def State.blockedOn (s : State) (ck i : Nat) : Bool := s.waves.any (fun p => p.2.main.onBar == some (256 * ck + i))

def execBarInit (f : XF) (s : State) : Host.Outcome State Fault Refusal := issue (.barInit f) f.h s (fun cx s =>
  cx.onBar s f (fun ck i =>
    let b := s.bar ck i
    { wave := if s.blockedOn ck i || b.arr ≠ b.exparr || b.bytes ≠ 0 || b.rwait then some cBARRIER else none
      run := fun _ s => s.setBar ck i { b with exparr := f.count, arr := f.count } }))

/-- Arrive(1, 0) of a wave, its token going to D in the given lanes. -/
def Cx.arriveTok (cx : Cx) (f : XF) (ck i : Nat) (lanes : List Nat) (s : State) : State :=
  let r := s.arrive ck i 1 0 (some cx.sel.wk)
  match r.1 with
  | some ph => cx.putD f.d 1 lanes (fun _ => ph.toNat) r.2
  | none => r.2.holdArrival cx.sel f.bidx f.d (maskOf lanes)

/-- An arrival that would be held waits while the wave has one held already (log entry 15). -/
def State.holdFull (s : State) (x : Sel) (ck i : Nat) : Bool :=
  let b := s.bar ck i
  (s.wave x.wk).heldarr.getLsbD 15 && (b.arr == 0 || b.rwait)

def execBarArrive (f : XF) (s : State) : Host.Outcome State Fault Refusal := issue (.barArrive f) f.h s (fun cx s =>
  cx.onBar s f (fun ck i =>
    { wait := if s.holdFull cx.sel ck i then some s else none
      run := fun ls s => cx.arriveTok f ck i ls (s.publish cx.sel) }))

/-- Something has changed although the context still waits: the blocked contexts are checked again. -/
def State.moved (s : State) : State := { s with tick := s.tick + 1 }

/-- R213: the Expect comes first and once, and the arrival of ARV may then have to wait (log entry 15). -/
def execBarExpect (f : XF) (s : State) : Host.Outcome State Fault Refusal := issue (.barExpect f) f.h s (fun cx s =>
  cx.onBar s f (fun ck i =>
    let n := cx.src s .A f.a 1 cx.F
    let done := (s.cancelled cx).isSome
    let after := fun (s : State) => if done then s else s.expect ck i (.ofNat 32 n)
    { wave := if !done && (2 : Int) ^ 31 ≤ (s.bar ck i).bytes.toInt + n then some cBARRIER else none
      wait := if f.arv && (after s).holdFull cx.sel ck i then some (if done then s else ((after s).underWay cx 0).moved) else none
      run := fun ls s => if f.arv then cx.arriveTok f ck i ls ((after s).publish cx.sel) else after s }))

/-- The token of a wait: bits 15:0 of A in lane F. -/
def Cx.token (cx : Cx) (s : State) (f : XF) : Half := .ofNat 16 (cx.src s .A f.a 1 cx.F)

/-- The context is blocked on the barrier in the lanes of m. -/
def State.waitsOn (s : State) (x : Sel) (m : Mask) (ck i : Nat) : State :=
  s.modCtx x (fun c => { c with onBar := some (256 * ck + i), barMask := m })

def execBarWait (f : XF) (s : State) : Host.Outcome State Fault Refusal := issue (.barWait f) f.h s (fun cx s =>
  cx.onBar s f (fun ck i =>
    { wait := if (s.bar ck i).phase = cx.token s f then some (s.waitsOn cx.sel cx.mask ck i) else none
      run := fun _ s => s.seesPhase cx.sel ck i (cx.token s f) }))

/-- The context waits in a `bar.sync` that has arrived: with its token, or with its arrival held. -/
def State.syncs (s : State) (x : Sel) (ck i : Nat) (ph : Option Half) : State :=
  s.modCtx x (fun c => { c with sync := some ph, syncAt := 256 * ck + i })

/-- The state in which `bar.sync` waits on its own token: it arrives once, unless its own arrival is held from before a stop. -/
def State.syncArrive (s : State) (cx : Cx) (f : XF) (ck i : Nat) : State :=
  match (s.ctx cx.sel).sync with
  | some _ => s
  | none =>
    if (s.cancelled cx).isSome && (s.wave cx.sel.wk).heldarr == .ofNat 16 (32768 + f.bidx) then s.syncs cx.sel ck i none
    else if s.holdFull cx.sel ck i then s
    else
      let r := s.arrive ck i 1 0 (some cx.sel.wk)
      match r.1 with
      | some ph => (r.2.syncs cx.sel ck i (some ph)).moved
      | none => (((r.2.holdArrival cx.sel f.bidx .none 0).underWay cx 0).syncs cx.sel ck i none).moved

/-- The phase that `bar.sync` waited for is over. -/
def State.syncDone (s : State) (x : Sel) (ck i : Nat) : Bool :=
  match (s.ctx x).sync with
  | some (some ph) => (s.bar ck i).phase != ph
  | _ => false

def execBarSync (f : XF) (s : State) : Host.Outcome State Fault Refusal := issue (.barSync f) f.h s (fun cx s =>
  cx.onBar s f (fun ck i =>
    let s1 := (s.publish cx.sel).syncArrive cx f ck i
    { wait := if s1.syncDone cx.sel ck i then none else some (s1.waitsOn cx.sel cx.mask ck i)
      run := fun _ s =>
        let s2 := (s.publish cx.sel).syncArrive cx f ck i
        let s3 := s2.modCtx cx.sel (fun c => { c with sync := none })
        match (s2.ctx cx.sel).sync with
        | some (some ph) => s3.seesPhase cx.sel ck i ph
        | _ => s3 }))

def execBarTest (f : XF) (s : State) : Host.Outcome State Fault Refusal := issue (.barTest f) f.h s (fun cx s =>
  cx.onBar s f (fun ck i =>
    let past := (s.bar ck i).phase != cx.token s f
    { run := fun ls s => cx.putD f.d 1 ls (fun _ => past.toNat) (if past then s.seesPhase cx.sel ck i (cx.token s f) else s) }))

/-! ## Wait counters (R248) -/

/-- Every counter of the context is at or below its limit. -/
def State.counted (s : State) (x : Sel) (imm : Word) : Bool :=
  decide (s.count x .ld ≤ bits imm.toNat 5 0) && decide (s.count x .st ≤ bits imm.toNat 11 6)
    && (!x.main || (decide (s.count x .cp ≤ bits imm.toNat 17 12) && decide (s.count x .mx ≤ bits imm.toNat 23 18)))

/-- A command whose completion a wait by the main context of its wave has shown: with `cp` at 0 every copy command, and a counted item of
the matrix unit but for the last `mx` of them (R306, R333). -/
def Prior.counted (wave mxNo cp mx : Nat) (p : Prior) : Bool :=
  p.wave == wave && (if p.eng = 4 then decide (1 ≤ p.no) && decide (p.no + mx ≤ mxNo) else cp == 0)

/-- What a wait on the counters has shown: completions of engine commands (R16), and with `ld` at 0 every load of the context (R97). -/
def State.waited (s : State) (x : Sel) (imm : Word) : State :=
  let s1 := if x.main then
      s.observes x (Prior.counted x.wave (s.wave x.wk).mxNo (bits imm.toNat 17 12) (bits imm.toNat 23 18))
    else s
  if bits imm.toNat 5 0 = 0 then s1.modWave x.wk (fun w => w.shown x.ctx) else s1

def execWaitc (f : PlainI) (s : State) : Host.Outcome State Fault Refusal := issue (.waitc f) f.h s (fun cx s =>
  { wait := if s.counted cx.sel f.imm then none else some s
    run := fun _ s => s.waited cx.sel f.imm })

end Sys2Proof.Machine
end

