-- ==== Sys2Proof/Machine/Memory.lean ====
section
/-!
DEFINITION. Machine/Memory.lean: the memory instructions of group 100 (R218 to R247).
-/
namespace Sys2Proof.Machine

/-! ## Places (R220) -/

/-- The outcome of the checks of R220 in one lane. -/
inductive Hit where
  | ok (p : Place)
  | nonres (a : Addr)
  | fail (f : Fail)
  deriving DecidableEq, Repr

def Hit.bad (c : Nat) (a : Int) : Hit := .fail (c, some (.ofNat 57 a.toNat))

/-- A global address (R220 steps 1 to 4); an atomic, a future and the like refuse host memory (R346). -/
def State.gHit (s : State) (ag : Ag) (a : Int) (n : Nat) (need : Need) (noHost : Bool) : Hit :=
  if a < 0 ∨ 2 ^ 57 < a + n then .bad cPROTECT a
  else if a.toNat % n ≠ 0 then .bad cALIGN a
  else match s.locate ag a.toNat n need with
    | .cause c => .bad c a
    | .nonres => .nonres (.ofNat 57 a.toNat)
    | .at_ (.phys pa) => if noHost && inHost pa n then .bad cPROTECT a else .ok (.glob (.phys pa))
    | .at_ l => .ok (.glob l)

/-- Owner bits and rings (R15, R205) of bytes in a core's scratchpad. -/
def State.spHit (s : State) (ck o n : Nat) (rings : Bool) (a : Int) : Hit :=
  let c := s.core ck
  if c.engineOwned o n then .bad cOWNER a
  else if rings && c.inRing o n then .bad cQUEUE a
  else .ok (.sp ck o)

/-- A scratchpad address; in handler mode `lds`, `sts` and `atoms` reach every byte of the group's scratchpad (R260), and `cass`
does not. -/
def State.sHit (s : State) (x : Sel) (a : Int) (n : Nat) (rings reach : Bool) : Hit :=
  let g := s.groupOf x
  let hm := reach && s.handler x
  let lim := if hm then g.skib * 1024 else g.sd
  if a < 0 ∨ (lim : Int) < a + n then .bad cBOUND a
  else if a.toNat % n ≠ 0 then .bad cALIGN a
  else if hm then .ok (.sp x.ck (g.sbase * 1024 + a.toNat))
  else s.spHit x.ck (g.sbase * 1024 + a.toNat) n rings a

/-- A cluster address (R19, R20). -/
def State.cHit (s : State) (x : Sel) (a : Int) (n : Nat) (rings : Bool) : Hit :=
  let g := s.groupOf x
  match (if a < 0 then none else clusterAt x.die g a.toNat n) with
  | none => .bad cBOUND a
  | some (ck, o) =>
    if a.toNat % n ≠ 0 then .bad cALIGN a
    else
      let m := (s.core ck).clusterGroup g.cid
      s.spHit ck (m.sbase * 1024 + o) n (rings || ck != x.ck) a

/-! ## Addresses (R218, R220) -/

/-- The address in a lane: BASE of `wide` registers, an index that is signed and scaled by the access size `sized`, or
by XSG and XSH. -/
def MemF.addr (f : MemF) (cx : Cx) (s : State) (wide : Nat) (sized : Option Nat) (l : Nat) : Int :=
  let v := cx.src s .B f.x 1 l
  let x : Int := if f.x = .none then 0 else
    match sized with
    | some n => sint32 v * n
    | none => (if f.xsg then sint32 v else (v : Int)) * 2 ^ f.xsh
  cx.src s .A f.base wide l + x + f.off.toInt

/-- The cause of a lane without a flag register; a lane with one goes on (R223). -/
def Hit.cause (flag : Opnd) : Hit → Option Fail
  | .ok _ => none
  | .nonres a => if flag = .none then some (cNOTRES, some a) else none
  | .fail f => some f

/-- The pages that accesses of a context found not resident are noted (R235). -/
def State.noteHits (s : State) (x : Sel) (hs : List Hit) : State :=
  hs.foldl (fun s h => match h with | .nonres a => s.noteAbsent (s.agent x).root a.toNat | _ => s) s

/-- A plan on the hits of its lanes: their causes, and the posts of those that raise `NOTRES` (R274). -/
def Plan.hits (p : Plan) (cx : Cx) (flag : Opnd) (hit : Nat → Hit) : Plan :=
  { p with
    lane := fun l => (hit l).cause flag
    always := fun _ s => (s.noteHits cx.sel (cx.act.map hit)).postCauses cx.sel (cx.act.filterMap (fun l => (hit l).cause flag)) }

/-! ## Loads and stores (R221, R223) -/

/-- R54: the value as its registers hold it. -/
def extend (z : MSize) (v : Nat) : Nat :=
  match z with
  | .s8 => if 128 ≤ v then v + (2 ^ 32 - 256) else v
  | .s16 => if 32768 ≤ v then v + (2 ^ 32 - 65536) else v
  | _ => v

/-- The flag word's register, if there is one. -/
def flagWrite (flag : Opnd) (l v : Nat) : FMap Word :=
  if flag = .none then [] else regWrites flag.code 1 l v

def State.touchAt (s : State) (ag : Ag) (a : Int) (p : Place) : State :=
  match p with
  | .glob l => s.touch ag a.toNat l
  | .sp _ _ => s

/-- The places that the lanes of an access meet, with their bytes. -/
def placesOf (n : Nat) (ls : List Nat) (hit : Nat → Hit) : List (LatePlace × Nat) :=
  ls.filterMap (fun l => match hit l with | .ok p => some (p.late, n) | _ => none)

/-- Lanes whose access crosses UCIe. -/
def State.farLanes (s : State) (ag : Ag) (ls : List Nat) (hit : Nat → Hit) : Mask :=
  maskOf (ls.filter (fun l => match hit l with | .ok p => s.far ag p | _ => false))

/-- A load: the values are those that stand now, its own context's stores among them, and reach their registers when it
completes. -/
def planLoad (cx : Cx) (s : State) (f : MemF) (addr : Nat → Int) (hit : Nat → Hit) : Plan :=
  let ag := s.agent cx.sel
  Plan.hits
    { run := fun ls s0 =>
        let s := s0.inOrder cx.sel (placesOf f.size.bytes ls hit)
        let ws := ls.flatMap (fun l => match hit l with
          | .ok p => regWrites f.d.code f.size.regs l (extend f.size (s.readAt ag p f.size.bytes)) ++ flagWrite f.flag l 0
          | _ => regWrites f.d.code f.size.regs l 0 ++ flagWrite f.flag l 1)
        let s1 := ls.foldl (fun s l => match hit l with | .ok p => s.touchAt ag (addr l) p | _ => s) s
        s1.under cx.sel true ws [] (s.farLanes (s.agent cx.sel) ls hit) } cx f.flag hit

/-- A store, lanes ascending: each lane is performed now or later. -/
def planStore (cx : Cx) (s : State) (f : MemF) (addr : Nat → Int) (hit : Nat → Hit) : Plan :=
  let ag := s.agent cx.sel
  Plan.hits
    { run := fun ls s0 =>
        let acc := (s0.wave cx.sel.wk).nextAcc
        let s1 := ls.foldl (fun s1 l => match hit l with
          | .ok p => (s1.touchAt ag (addr l) p).storeLane cx.sel ag acc l p f.size.bytes (cx.src s .C f.d f.size.regs l)
          | _ => s1) s0
        let ws := ls.flatMap (fun l => match hit l with | .ok _ => flagWrite f.flag l 0 | _ => flagWrite f.flag l 1)
        s1.under cx.sel false ws [] (s.farLanes (s.agent cx.sel) ls hit) } cx f.flag hit

def MemF.glob (f : MemF) (cx : Cx) (s : State) (need : Need) (l : Nat) : Hit :=
  s.gHit (s.agent cx.sel) (MemF.addr f cx s 2 none l) f.size.bytes need false
def MemF.scr (f : MemF) (cx : Cx) (s : State) (l : Nat) : Hit :=
  s.sHit cx.sel (MemF.addr f cx s 1 none l) f.size.bytes true true
def MemF.clu (f : MemF) (cx : Cx) (s : State) (l : Nat) : Hit :=
  s.cHit cx.sel (MemF.addr f cx s 1 none l) f.size.bytes true

def execLd (f : MemF) (s : State) : Host.Outcome State Fault Refusal := issue (.ld f) f.h s (fun cx s =>
  planLoad cx s f (MemF.addr f cx s 2 none) (MemF.glob f cx s .rd))
def execLds (f : MemF) (s : State) : Host.Outcome State Fault Refusal := issue (.lds f) f.h s (fun cx s =>
  planLoad cx s f (MemF.addr f cx s 1 none) (MemF.scr f cx s))
def execLdc (f : MemF) (s : State) : Host.Outcome State Fault Refusal := issue (.ldc f) f.h s (fun cx s =>
  planLoad cx s f (MemF.addr f cx s 1 none) (MemF.clu f cx s))
def execSt (f : MemF) (s : State) : Host.Outcome State Fault Refusal := issue (.st f) f.h s (fun cx s =>
  planStore cx s f (MemF.addr f cx s 2 none) (MemF.glob f cx s .wr))
def execSts (f : MemF) (s : State) : Host.Outcome State Fault Refusal := issue (.sts f) f.h s (fun cx s =>
  planStore cx s f (MemF.addr f cx s 1 none) (MemF.scr f cx s))
def execStc (f : MemF) (s : State) : Host.Outcome State Fault Refusal := issue (.stc f) f.h s (fun cx s =>
  planStore cx s f (MemF.addr f cx s 1 none) (MemF.clu f cx s))

/-- R225: it asks for a line and has no effect on any result. -/
def execPf (f : MemF) (s : State) : Host.Outcome State Fault Refusal := issue (.pf f) f.h s (fun _ _ => planNop)

/-! ## Tensor loads (R226 to R228) -/

/-- A view record (R227): BASEADDR, and extent and stride of each dimension. -/
structure View where
  base : Nat
  dims : List (Nat × Int)
  deriving DecidableEq, Repr

def sint64 (x : Nat) : Int := if 2 ^ 63 ≤ x then (x : Int) - 2 ^ 64 else x

def View.ofNat (n : Nat) : View :=
  ⟨n % 2 ^ 64, (List.range 7).map (fun i => (bits n (64 * i + 95) (64 * i + 64), sint32 (bits n (64 * i + 127) (64 * i + 96))))⟩

/-- The record's own access, by lane F. -/
def State.viewHit (s : State) (cx : Cx) (f : XF) : Hit :=
  s.gHit (s.agent cx.sel) (cx.src s .B f.b 2 cx.F) 64 .rd false

def regNum : Opnd → Nat
  | .v r => r
  | _ => 0

/-- The coordinates of a lane. -/
def tnCoord (cx : Cx) (s : State) (f : XF) (l i : Nat) : Int :=
  sint32 ((s.wave cx.sel.wk).regN (regNum f.a + i) l 1)

/-- The address of element j in a lane; none where it is out of bounds. -/
def tnAddr (cx : Cx) (s : State) (f : XF) (w : View) (l j : Nat) : Option Int :=
  let cs := (List.range f.tnCrd).map (fun i => tnCoord cx s f l i + (if i = 0 then (j : Int) else 0))
  let ds := w.dims.take f.tnCrd
  if (cs.zip ds).all (fun p => decide (0 ≤ p.1) && decide (p.1 < p.2.1)) then
    some (w.base + ((cs.zip ds).map (fun p => p.1 * p.2.2)).sum)
  else none

/-- The view that lane F reads, as a load of its context (R222). -/
def State.viewOf (s : State) (cx : Cx) (f : XF) : View :=
  match s.viewHit cx f with
  | .ok p => .ofNat ((s.inOrder cx.sel [(p.late, 64)]).readAt (s.agent cx.sel) p 64)
  | _ => ⟨0, []⟩

/-- The hits of a lane's elements in bounds. -/
def tnHits (cx : Cx) (s : State) (f : XF) (need : Need) (l : Nat) : List (Nat × Int × Hit) :=
  let w := s.viewOf cx f
  (List.range f.tnN).filterMap (fun j => (tnAddr cx s f w l j).map (fun a =>
    (j, a, s.gHit (s.agent cx.sel) a f.tnBytes need false)))

/-- The lowest cause among the elements of a lane. -/
def tnCause (f : XF) (hs : List (Nat × Int × Hit)) : Option Fail :=
  let cs := hs.filterMap (fun h => h.2.2.cause f.tFlag)
  match (cs.map Prod.fst).min? with
  | none => none
  | some m => cs.find? (fun c => decide (c.1 = m))

/-- The flag word: the elements not performed. -/
def tnFlag (hs : List (Nat × Int × Hit)) : Nat :=
  hs.foldl (fun v h => match h.2.2 with | .nonres _ => v + 2 ^ h.1 | _ => v) 0

def planTensor (cx : Cx) (s : State) (f : XF) (need : Need) (run : (Nat → List (Nat × Int × Hit)) → List Nat → State → State) :
    Plan :=
  let bad := (s.viewHit cx f).cause .none
  let fail := fun l => bad.orElse (fun _ => tnCause f (tnHits cx s f need l))
  { lane := fail
    always := fun _ s' => (s'.noteHits cx.sel (cx.act.flatMap (fun l => (tnHits cx s f need l).map (fun h => h.2.2)))).postCauses cx.sel (cx.act.filterMap fail)
    run := fun ls s0 =>
      run (tnHits cx s f need) ls (match s.viewHit cx f with
        | .ok p => (s0.inOrder cx.sel [(p.late, 64)]).touchAt (s.agent cx.sel) (cx.src s .B f.b 2 cx.F) p
        | _ => s0) }

/-- The elements of the lanes that reach memory. -/
def tnPlaces (f : XF) (ls : List Nat) (hits : Nat → List (Nat × Int × Hit)) : List (LatePlace × Nat) :=
  ls.flatMap (fun l => (hits l).filterMap (fun h => match h.2.2 with | .ok p => some (p.late, f.tnBytes) | _ => none))

/-- Lanes with an element that crosses UCIe. -/
def State.tnFar (s : State) (ag : Ag) (ls : List Nat) (hits : Nat → List (Nat × Int × Hit)) : Mask :=
  maskOf (ls.filter (fun l => (hits l).any (fun h => match h.2.2 with | .ok p => s.far ag p | _ => false)))

def execLdt (f : XF) (s : State) : Host.Outcome State Fault Refusal := issue (.ldt f) f.h s (fun cx s =>
  let ag := s.agent cx.sel
  planTensor cx s f .rd (fun hits ls s1 =>
    let s0 := s1.inOrder cx.sel (tnPlaces f ls hits)
    let val := fun l => (hits l).foldl (fun v h => match h.2.2 with
      | .ok p => v + 2 ^ (8 * h.1 * f.tnBytes) * s0.readAt ag p f.tnBytes
      | _ => v) 0
    let ws := ls.flatMap (fun l => regWrites (regNum f.d) f.tnReg l (val l) ++ flagWrite f.tFlag l (tnFlag (hits l)))
    let s2 := ls.foldl (fun s l => (hits l).foldl (fun s h => match h.2.2 with
      | .ok p => s.touchAt ag h.2.1 p | _ => s) s) s0
    s2.under cx.sel true ws [] (s.tnFar ag ls hits)))

def execStt (f : XF) (s : State) : Host.Outcome State Fault Refusal := issue (.stt f) f.h s (fun cx s =>
  let ag := s.agent cx.sel
  planTensor cx s f .wr (fun hits ls s0 =>
    let acc := (s0.wave cx.sel.wk).nextAcc
    let s1 := ls.foldl (fun s1 l =>
      let v := (s.wave cx.sel.wk).regN (regNum f.d) l f.tnReg
      (hits l).foldl (fun s1 h => match h.2.2 with
        | .ok p => (s1.touchAt ag h.2.1 p).storePiece cx.sel ag acc l (lateChoice s.tick l h.1) p f.tnBytes
            (v / 2 ^ (8 * h.1 * f.tnBytes) % 2 ^ (8 * f.tnBytes))
        | _ => s1) s1) s0
    let ws := ls.flatMap (fun l => flagWrite f.tFlag l (tnFlag (hits l)))
    s1.under cx.sel false ws [] (s.tnFar ag ls hits)))

/-! ## Atomics (R229 to R234) -/

/-- Lanes ascending, each one indivisible step on its word; the old values go to D (R230, R231), and each is known to the access when its
lane is performed. A lane that crosses to the other die is performed now or later, where its operation is `late`. -/
def planAtom (cx : Cx) (s : State) (f : MemF) (ret : Bool) (addr : Nat → Int) (hit : Nat → Hit)
    (op : State → Ag → Place → Nat → State) (late : Option (Nat × Nat × (Nat → Nat))) : Plan :=
  let ag := s.agent cx.sel
  let n := f.size.bytes
  Plan.hits
    { run := fun ls s0 =>
        let acc := (s0.wave cx.sel.wk).nextAcc
        let old := fun l v => if ret then regWrites f.d.code f.size.regs l v else []
        let due := ls.flatMap (fun l => (old l 0).map Prod.fst)
        ls.foldl (fun s0 l => match hit l with
          | .ok p =>
            let s1 := (s0.touchAt ag (addr l) p).inOrder cx.sel [(p.late, n)]
            match (if s.far ag p && lateChoice s.tick l 0 then late else none) with
            | some (kind, aop, v) =>
              s1.modWave cx.sel.wk (fun w => { w with late := w.late ++ [{ ctx := cx.sel.ctx, acc := acc, lane := l, place := p.late, n := n, v := v l,
                                                                           op := some (kind, aop), dst := if ret then some f.d.code else none }] })
            | none => (op s1 ag p l).gotOld cx.sel acc (old l (s1.readAt ag p n))
          | _ => s0) (s0.under cx.sel ret [] due (s.farLanes (s.agent cx.sel) ls hit)) } cx .none hit

def MemF.globA (f : MemF) (cx : Cx) (s : State) (need : Need) (l : Nat) : Hit :=
  s.gHit (s.agent cx.sel) (MemF.addr f cx s 2 (some f.size.bytes) l) f.size.bytes need true
def MemF.addrA (f : MemF) (cx : Cx) (s : State) (wide l : Nat) : Int := MemF.addr f cx s wide (some f.size.bytes) l

/-- The operand of an atomic: a register for one that returns, any source for `red`. -/
def MemF.operand (f : MemF) (cx : Cx) (s : State) (n l : Nat) : Nat := cx.src s .C f.d n l

def MemF.atomOp (f : MemF) (cx : Cx) (s0 : State) (s : State) (ag : Ag) (p : Place) (l : Nat) : State :=
  s.atomAt ag p f.size.bytes f.kind f.aop (MemF.operand f cx s0 f.size.regs l)

/-- R231: compare value in the low half of D, new value in the high half. -/
def MemF.casOp (f : MemF) (cx : Cx) (s0 : State) (s : State) (ag : Ag) (p : Place) (l : Nat) : State :=
  s.casAt ag p f.size.bytes (MemF.operand f cx s0 (2 * f.size.regs) l)

/-- What a lane of an atomic leaves to be performed later. -/
def MemF.atomLate (f : MemF) (cx : Cx) (s0 : State) : Option (Nat × Nat × (Nat → Nat)) :=
  some (f.kind, f.aop, MemF.operand f cx s0 f.size.regs)
def MemF.casLate (f : MemF) (cx : Cx) (s0 : State) : Option (Nat × Nat × (Nat → Nat)) :=
  some (0, 9, MemF.operand f cx s0 (2 * f.size.regs))

def execAtom (f : MemF) (s : State) : Host.Outcome State Fault Refusal := issue (.atom f) f.h s (fun cx s =>
  planAtom cx s f true (MemF.addrA f cx s 2) (MemF.globA f cx s .rdwr) (MemF.atomOp f cx s) (MemF.atomLate f cx s))
def execRed (f : MemF) (s : State) : Host.Outcome State Fault Refusal := issue (.red f) f.h s (fun cx s =>
  planAtom cx s f false (MemF.addrA f cx s 2) (MemF.globA f cx s .wr) (MemF.atomOp f cx s) (MemF.atomLate f cx s))
def execCas (f : MemF) (s : State) : Host.Outcome State Fault Refusal := issue (.cas f) f.h s (fun cx s =>
  planAtom cx s f true (MemF.addrA f cx s 2) (MemF.globA f cx s .rdwr) (MemF.casOp f cx s) (MemF.casLate f cx s))
def execAtoms (f : MemF) (s : State) : Host.Outcome State Fault Refusal := issue (.atoms f) f.h s (fun cx s =>
  planAtom cx s f true (MemF.addrA f cx s 1)
    (fun l => s.sHit cx.sel (MemF.addrA f cx s 1 l) f.size.bytes false true) (MemF.atomOp f cx s) none)
def execCass (f : MemF) (s : State) : Host.Outcome State Fault Refusal := issue (.cass f) f.h s (fun cx s =>
  planAtom cx s f true (MemF.addrA f cx s 1)
    (fun l => s.sHit cx.sel (MemF.addrA f cx s 1 l) f.size.bytes false false) (MemF.casOp f cx s) none)
def execAtomc (f : MemF) (s : State) : Host.Outcome State Fault Refusal := issue (.atomc f) f.h s (fun cx s =>
  planAtom cx s f true (MemF.addrA f cx s 1)
    (fun l => s.cHit cx.sel (MemF.addrA f cx s 1 l) f.size.bytes false) (MemF.atomOp f cx s) (MemF.atomLate f cx s))

/-! ## Reduction cells (R233, R234) -/

/-- R233: alignment first, then range, permission and residency, at the word's home. R355 names no permission for `rcell` and `rcfree`: the
model asks for RD and WR (log entry 55). `rcell` refuses host memory (R346), `rcfree` leaves its words as they are. -/
def State.cellHit (s : State) (ag : Ag) (noHost : Bool) (a : Nat) : Hit :=
  if a % 4 ≠ 0 then .bad cALIGN a
  else if 2 ^ 57 < a + 4 then .bad cPROTECT a
  else match s.home ag a 4 .rdwr with
    | .cause c => .bad c a
    | .nonres => .nonres (.ofNat 57 a)
    | .at_ (.phys pa) => if noHost && inHost pa 4 then .bad cPROTECT a else .ok (.glob (.phys pa))
    | .at_ l => .ok (.glob l)

def Hit.pa : Hit → Nat
  | .ok (.glob (.phys pa)) => pa
  | _ => 0

/-- A cell is declared, if its die's unit has one free. -/
def State.declareCell (s : State) (launch : Option Nat) (pa : Nat) : Bool × State :=
  match FMap.get none s.cells (pa / 4) with
  | some _ => (true, s)
  | none =>
    if 4096 ≤ (s.cells.filter (fun p => match p.2 with | some c => decide (c.die = s.homeDie pa) | none => false)).length then
      (false, s)
    else (true, { s with cells := s.cells.set none (pa / 4) (some (Cell.load (s.homeDie pa) launch (s.readPhys pa 4))) })

/-- A cell is released: its rounded value stays in the word. -/
def State.freeCell (s : State) (pa : Nat) : State :=
  match FMap.get none s.cells (pa / 4) with
  | none => s
  | some c =>
    let s1 : State := { s with cells := s.cells.set none (pa / 4) none }
    (List.range 4).foldl (fun s i => s.storeByte (pa / 4 * 4 + i) (.ofNat 8 (c.value / 2 ^ (8 * i)))) s1

def execRcell (f : XF) (s : State) : Host.Outcome State Fault Refusal := issue (.rcell f) f.h s (fun cx s =>
  let hit := fun l => s.cellHit (s.agent cx.sel) true (cx.src s .A f.a 2 l)
  Plan.hits
    { run := fun ls s0 =>
        let r := ls.foldl (fun (r : State × FMap Nat) l =>
          let d := r.1.declareCell (s.agent cx.sel).launch (hit l).pa
          (d.2, (l, d.1.toNat) :: r.2)) (s0.inOrder cx.sel (placesOf 4 ls hit), [])
        cx.putD f.d 1 ls (fun l => FMap.get 0 r.2 l) r.1 } cx .none hit)

def execRcfree (f : XF) (s : State) : Host.Outcome State Fault Refusal := issue (.rcfree f) f.h s (fun cx s =>
  let hit := fun l => s.cellHit (s.agent cx.sel) false (cx.src s .A f.a 2 l)
  Plan.hits { run := fun ls s => ls.foldl (fun s l => s.freeCell (hit l).pa) (s.inOrder cx.sel (placesOf 4 ls hit)) } cx .none hit)

/-! ## Futures (R235 to R237) -/

/-- The hit of a future; a page that is not resident answers with flag bit 0. -/
def MemF.futHit (f : MemF) (cx : Cx) (s : State) (l : Nat) : Hit := MemF.globA f cx s .rdwr l

/-- The tag of the word at a place is empty. -/
def State.isEmpty (s : State) (ag : Ag) : Place → Bool
  | .glob l => s.tagEmpty ag l
  | .sp _ _ => false

/-- The requests that a slice holds. -/
def State.deferred (s : State) (slice : Nat) : Nat := (s.defer.filter (fun d => decide (d.slice = slice))).length

/-- What a lane's request meets at once: its answer (value, flag word), or a place in the deferral buffer. -/
def State.futAsk (s : State) (x : Sel) (ag : Ag) (l : Nat) (h : Hit) : Option (Nat × Nat) × State :=
  match h with
  | .ok (.glob loc) =>
    if s.tagEmpty ag loc then
      let p := s.sliceOf loc
      if 64 ≤ s.deferred p.1 then (some (0, 2), s)
      else (none, { s with defer := s.defer ++ [⟨p.1, x, l, p.2.1, p.2.2, none⟩] })
    else (some (s.readLoc ag loc 8, 0), s)
  | _ => (some (0, 1), s)

/-- All lanes ask, in ascending order. -/
def State.futAskAll (s : State) (cx : Cx) (f : MemF) (lanes : List Nat) : List (Nat × Nat × Nat) × State :=
  lanes.foldl (fun r l =>
    let h := MemF.futHit f cx s l
    let ag := s.agent cx.sel
    let s1 := match h with | .ok p => r.2.touchAt ag (MemF.addrA f cx s 2 l) p | _ => r.2
    let a := s1.futAsk cx.sel ag l h
    (match a.1 with | some v => r.1 ++ [(l, v.1, v.2)] | none => r.1, a.2))
    ([], s.inOrder cx.sel (placesOf 8 lanes (MemF.futHit f cx s)))

def futWrites (f : MemF) (as : List (Nat × Nat × Nat)) (lanes : List Nat) : FMap Word :=
  lanes.flatMap (fun l => match as.find? (fun a => decide (a.1 = l)) with
    | some a => regWrites f.d.code 2 l a.2.1 ++ flagWrite f.flag l a.2.2
    | none => [])

/-- A `futld` that has waited counted when it issued (R95). -/
def State.uncounted (s : State) (x : Sel) : State :=
  if (s.ctx x).fut.isSome then s.bump x .ld (· - 1) else s

def execFutld (f : MemF) (s : State) : Host.Outcome State Fault Refusal := issue (.futld f) f.h s (fun cx s =>
  let hit := MemF.futHit f cx s
  let asked := match (s.ctx cx.sel).fut with
    | some as => (as, s)
    | none =>
      let r := s.futAskAll cx f cx.act
      (r.1, (r.2.modCtx cx.sel (fun c => { c with fut := some r.1, ld := c.ld + 1 })).moved)
  Plan.hits
    { whole := cx.act.any (fun l => match hit l with | .ok p => s.isEmpty (s.agent cx.sel) p | _ => false)
      wait := if cx.act.all (fun l => asked.1.any (fun a => decide (a.1 = l))) then none else some asked.2
      run := fun ls s =>
        let r := match (s.ctx cx.sel).fut with | some as => (as, s) | none => s.futAskAll cx f ls
        (r.2.uncounted cx.sel).under cx.sel true (futWrites f r.1 ls) [] (s.farLanes (s.agent cx.sel) ls hit) } cx f.flag hit)

def execFuttry (f : MemF) (s : State) : Host.Outcome State Fault Refusal := issue (.futtry f) f.h s (fun cx s =>
  let ag := s.agent cx.sel
  let hit := MemF.futHit f cx s
  Plan.hits
    { run := fun ls s0 =>
        let s1 := ls.foldl (fun t l => match hit l with | .ok p => t.touchAt ag (MemF.addrA f cx s 2 l) p | _ => t)
          (s0.inOrder cx.sel (placesOf 8 ls hit))
        let as := ls.map (fun l => match hit l with
          | .ok p => if s1.isEmpty ag p then (l, 0, 2) else (l, s1.readAt ag p 8, 0)
          | _ => (l, 0, 1))
        s1.under cx.sel true (futWrites f as ls) [] (s.farLanes (s.agent cx.sel) ls hit) } cx f.flag hit)

/-- A plan whose effect publishes what its context stored before it (R373). -/
def Plan.publishing (p : Plan) (cx : Cx) : Plan := { p with run := fun ls s => p.run ls (s.publish cx.sel) }

def execFutst (f : MemF) (s : State) : Host.Outcome State Fault Refusal := issue (.futst f) f.h s (fun cx s =>
  (planAtom cx s f false (MemF.addrA f cx s 2) (MemF.futHit f cx s)
    (fun s1 ag p l => s1.writeAt ag p 8 (cx.src s .C f.d 2 l)) none).publishing cx)

def execFutclr (f : MemF) (s : State) : Host.Outcome State Fault Refusal := issue (.futclr f) f.h s (fun cx s =>
  planAtom cx s f false (MemF.addrA f cx s 2) (MemF.futHit f cx s)
    (fun s1 ag p _ => match p with
      | .glob l => (s1.putLoc ag l 8 0).setEmpty l
      | .sp _ _ => s1) none)

/-! ## Objects and fences (R238 to R243) -/

/-- The range [a, a + len) meets a range of the table. -/
def BindRange.meets (a len : Nat) (r : BindRange) : Bool := decide (r.start < a + len) && decide (a < r.start + r.len)

/-- The status of R238, and the table after it. -/
def bindRange (t : List BindRange) (a len obj : Nat) : Nat × List BindRange :=
  if t.any (fun r => r.meets a len && decide (r.obj ≠ obj)) then (2, t)
  else
    let old := t.filter (fun r => r.meets a len)
    let rest := t.filter (fun r => !r.meets a len)
    let lo := old.foldl (fun m r => min m r.start) a
    let hi := old.foldl (fun m r => max m (r.start + r.len)) (a + len)
    if 256 < rest.length + 1 then (1, t) else (0, rest ++ [⟨lo, hi - lo, obj⟩])

/-- The address translates to host memory for the agent (R346), whatever its permissions. -/
def State.isHost (s : State) (ag : Ag) (a : Nat) : Bool :=
  match ag.root with
  | none => inHost a 1
  | some root => match s.translate ag.ck root a with
    | some t => t.res && inHost (t.pa + (a - t.va)) 1
    | none => false

def execSbind (f : XF) (s : State) : Host.Outcome State Fault Refusal := issue (.sbind f) f.h s (fun cx s =>
  let a := cx.src s .A f.a 2 cx.F
  let o := cx.src s .B f.b 2 cx.F
  let ag := s.agent cx.sel
  let r := bindRange (s.wave cx.sel.wk).table a (f.len * 64) o
  { lane := fun l =>
      if a % 64 ≠ 0 then some (cALIGN, some (.ofNat 57 a))
      else if o % 8 ≠ 0 then some (cALIGN, some (.ofNat 57 o))
      else if l = cx.F ∧ s.isHost ag a then some (cPROTECT, some (.ofNat 57 a))
      else if l = cx.F ∧ s.isHost ag o then some (cPROTECT, some (.ofNat 57 o))
      else none
    whole := true
    run := fun ls s => cx.putD f.d 1 ls (fun _ => r.1) (s.modWave cx.sel.wk (fun w => { w with table := r.2 })) })

def execSfree (f : XF) (s : State) : Host.Outcome State Fault Refusal := issue (.sfree f) f.h s (fun cx s =>
  let o := cx.src s .B f.b 2 cx.F
  { run := fun _ s => s.modWave cx.sel.wk (fun w => { w with table := w.table.filter (fun r => r.obj ≠ o) }) })

/-- The address of the object of `acq` and `rel` in a lane (R220), which have no index (R219). -/
def MemF.objAddr (f : MemF) (cx : Cx) (s : State) (l : Nat) : Int := cx.src s .A f.base 2 l + f.off.toInt

def MemF.obj (f : MemF) (cx : Cx) (s : State) (need : Need) (l : Nat) : Hit :=
  s.gHit (s.agent cx.sel) (MemF.objAddr f cx s l) 8 need false

/-- R241: the value read is interlocked, not counted. -/
def execAcq (f : MemF) (s : State) : Host.Outcome State Fault Refusal := issue (.acq f) f.h s (fun cx s =>
  let ag := s.agent cx.sel
  let hit := MemF.obj f cx s .rd
  Plan.hits
    { run := fun ls s0 =>
        let s := s0.inOrder cx.sel (placesOf 8 ls hit)
        let val := fun l => match hit l with | .ok p => s.readAt ag p 8 | _ => 0
        let s1 := ls.foldl (fun s l => match hit l with | .ok p => s.touchAt ag (MemF.objAddr f cx s l) p | _ => s) s
        cx.putD f.d 2 ls val s1 } cx .none hit)

/-- R240: the object takes the data pair, or its old value plus 1. -/
def execRel (f : MemF) (s : State) : Host.Outcome State Fault Refusal := issue (.rel f) f.h s (fun cx s =>
  let ag := s.agent cx.sel
  let hit := MemF.obj f cx s (if f.d = .none then .rdwr else .wr)
  (Plan.hits
    { run := fun ls s0 => ls.foldl (fun s1 l => match hit l with
        | .ok p =>
          let s2 := s1.touchAt ag (MemF.objAddr f cx s l) p
          s2.writeAt ag p 8 (if f.d = .none then (s2.readAt ag p 8 + 1) % 2 ^ 64 else cx.src s .C f.d 2 l)
        | _ => s1) s0 } cx .none hit).publishing cx)

/-- R242: what the context stored before is performed; every other access is performed at its issue (log entry 3). -/
def execFence (f : MemF) (s : State) : Host.Outcome State Fault Refusal := issue (.fence f) f.h s (fun cx _ => planNop.publishing cx)

/-! ## Ranges, code, residency and phase (R244 to R247, R351) -/

/-- A dirty line's bytes go home in one masked write and the line becomes clean, or the cause that its page raises. -/
def State.writeBackLine (s : State) (ag : Ag) (ri k : Nat) : Except Fail State :=
  let r := s.region ri
  let va := r.vbase + 64 * k
  let c := (r.lines.find? k).getD {}
  match s.home ag va 64 .wr with
  | .cause e => .error (e, some (.ofNat 57 va))
  | .nonres => .error (cNOTRES, some (.ofNat 57 va))
  | .at_ (.phys pa) =>
    let s1 := s.storeMasked pa c.dirty c.data
    let r' : Region := { r with lines := r.lines.insert k { c with dirty := 0 } }
    .ok (State.answer { s1 with regions := s1.regions.set ri r' })
  | .at_ _ => .ok s

/-- The dirty lines of the agent's regions on its die inside a range, ascending: region and line. -/
def State.dirtyLines (s : State) (ag : Ag) (a len : Nat) : List (Nat × Nat) :=
  let l := (List.range s.regions.length).flatMap (fun ri =>
    let r := s.region ri
    if r.die = ag.die ∧ some r.launch = ag.launch then
      (r.lines.filter (fun p => p.2.dirty ≠ 0 && decide (a ≤ r.vbase + 64 * p.1) && decide (r.vbase + 64 * p.1 < a + len))).map
        (fun p => (ri, p.1))
    else [])
  l.mergeSort (fun p q => decide ((s.region p.1).vbase + 64 * p.2 ≤ (s.region q.1).vbase + 64 * q.2))

/-- R351: line by line up to the first that fails. -/
def State.writeBack (s : State) (ag : Ag) : List (Nat × Nat) → Option Fail × State
  | [] => (none, s)
  | p :: r => match s.writeBackLine ag p.1 p.2 with
    | .ok s' => s'.writeBack ag r
    | .error e => (some e, s)

/-- R244: the alignment of a range. -/
def rangeFail (a len : Nat) : Option Fail :=
  if a % 64 ≠ 0 ∨ len % 64 ≠ 0 then some (cALIGN, some (.ofNat 57 a)) else none

def execRwb (f : XF) (s : State) : Host.Outcome State Fault Refusal := issue (.rwb f) f.h s (fun cx s =>
  let a := cx.src s .A f.a 2 cx.F
  let len := cx.src s .B f.b 1 cx.F
  let ag := s.agent cx.sel
  match rangeFail a len with
  | some e => { lane := fun _ => some e, run := fun _ s => s }
  | none =>
    let s1 := s.publish cx.sel
    let e := (s1.writeBack ag (s1.dirtyLines ag a len)).1
    { lane := fun _ => e
      always := fun _ s => (let s1 := s.publish cx.sel
        (s1.writeBack ag (s1.dirtyLines ag a len)).2).postCauses cx.sel e.toList
      run := fun _ s => s })

def execRinv (f : XF) (s : State) : Host.Outcome State Fault Refusal := issue (.rinv f) f.h s (fun cx s =>
  let a := cx.src s .A f.a 2 cx.F
  let len := cx.src s .B f.b 1 cx.F
  let ag := s.agent cx.sel
  { lane := fun _ => rangeFail a len
    run := fun _ s =>
      let s1 := s.publish cx.sel
      { s1 with regions := s1.regions.map (fun r =>
        if r.die = ag.die ∧ some r.launch = ag.launch then
          { r with lines := r.lines.filter (fun p =>
              !(decide (a ≤ r.vbase + 64 * p.1) && decide (r.vbase + 64 * p.1 < a + len))) }
        else r) } })

def execIcinv (f : XF) (s : State) : Host.Outcome State Fault Refusal := issue (.icinv f) f.h s (fun cx s =>
  let a := cx.src s .A f.a 2 cx.F
  let len := cx.src s .B f.b 1 cx.F
  { lane := fun _ => rangeFail a len
    run := fun _ s => s.modCore cx.sel.ck (fun c =>
      { c with fbuf := c.fbuf.filter (fun b => !(decide (a ≤ b.addr) && decide (b.addr < a + len))) }) })

/-- What a residency request meets (R246). -/
def State.resHit (s : State) (ag : Ag) (a : Int) : Hit :=
  if a < 0 ∨ 2 ^ 57 < a + 1 then .bad cPROTECT a
  else match s.home ag a.toNat 1 .rd with
    | .cause c => .bad c a
    | .nonres => .nonres (.ofNat 57 a.toNat)
    | .at_ l => .ok (.glob l)

def execResreq (f : MemF) (s : State) : Host.Outcome State Fault Refusal := issue (.resreq f) f.h s (fun cx s =>
  let hit := fun l => s.resHit (s.agent cx.sel) (MemF.addr f cx s 2 none l)
  { lane := fun l => match hit l with | .fail e => some e | _ => none
    run := fun ls s0 =>
      let r := ls.foldl (fun (r : State × FMap Nat) l => match hit l with
        | .nonres a =>
          let p := r.1.post cx.sel.die cx.sel.core (s.agent cx.sel).root (r.1.wave cx.sel.wk).ctxid 1 a.toNat
          (p.2, (l, p.1) :: r.2)
        | _ => r) (s0, [])
      cx.putD f.d 1 ls (fun l => FMap.get 0 r.2 l) r.1 })

def execPhase (f : PlainI) (s : State) : Host.Outcome State Fault Refusal := issue (.phase f) f.h s (fun cx _ =>
  { run := fun _ s => s.modWave cx.sel.wk (fun w => { w with bwphase := bits f.imm.toNat 2 0 }) })

end Sys2Proof.Machine
end

