-- ==== Sys2Proof/Machine/Place.lean ====
section
/-!
DEFINITION. Machine/Place.lean: what is free on a core (R74 CSTAT), and where a group fits (R75, R76).
-/
namespace Sys2Proof.Machine

/-! ## Runs -/

/-- The longest run of positions below n that the test accepts. -/
def longestRun (n : Nat) (p : Nat → Bool) : Nat :=
  ((List.range n).foldl (fun (r : Nat × Nat) i => if p i then (max r.1 (r.2 + 1), r.2 + 1) else (r.1, 0)) (0, 0)).1

/-- The lowest start of a run of `len` accepted positions below n. -/
def firstRun (n len : Nat) (p : Nat → Bool) : Option Nat :=
  if n < len then none
  else lowest (n + 1 - len) (fun i => (List.range len).all (fun j => p (i + j)))

/-! ## What is free -/

/-- Waves that hold a slot of the core. -/
def State.residents (s : State) (ck : Nat) : List (Nat × Wave) :=
  (List.range 64).filterMap (fun w => if (s.wave (ck * 64 + w)).valid then some (w, s.wave (ck * 64 + w)) else none)

def State.freeSlots (s : State) (ck : Nat) : Nat := 64 - (s.residents ck).length

/-- Register blocks of 8 rows in a quadrant (R72, R74). -/
def Core.regBlocks (c : Core) : Nat := 8 * c.regg

/-- Block b of a quadrant is free. -/
def blockFree (ws : List (Nat × Wave)) (quad b : Nat) : Bool :=
  !ws.any (fun p => decide (p.1 / 16 = quad) && decide (p.2.row / 8 ≤ b) && decide (b < (p.2.row + p.2.n) / 8))

/-- KiB of the scratchpad share (R72). -/
def Core.scrKib (c : Core) : Nat := 32 * c.scrg

def Core.kibFree (c : Core) (k : Nat) : Bool :=
  !c.groups.any (fun g => decide (g.sbase ≤ k) && decide (k < g.sbase + g.skib))

def Core.barFree (c : Core) (i : Nat) : Bool :=
  !c.groups.any (fun g => decide (g.bbase ≤ i) && decide (i < g.bbase + g.nb))

def State.freeTails (s : State) (ck : Nat) : Nat :=
  ((List.range 32).filter (fun t => !(s.tail (ck * 32 + t)).valid)).length

/-- CSTAT (R74). -/
def State.cstat (s : State) (ck : Nat) : Nat :=
  let c := s.core ck
  let ws := s.residents ck
  let reg := ((List.range 4).map (fun q => longestRun c.regBlocks (blockFree ws q))).foldl max 0
  s.freeTails ck * 2 ^ 36 + longestRun 256 c.barFree * 2 ^ 27 + longestRun c.scrKib c.kibFree * 2 ^ 16
    + reg * 2 ^ 7 + s.freeSlots ck

/-! ## Where waves go (R76) -/

/-- A place of a wave: its slot and its first row. -/
abbrev WavePlace := Nat × Nat

/-- A wave of n registers goes to the quadrant with the most free slots among those with a free run, to its lowest run
and lowest free slot. -/
def placeWave (blocks n : Nat) (ws : List (Nat × Wave)) : Option WavePlace :=
  let free := fun q => (List.range 16).filter (fun i => !ws.any (fun p => decide (p.1 = q * 16 + i)))
  let qs := (List.range 4).filter (fun q => !(free q).isEmpty && (firstRun blocks (n / 8) (blockFree ws q)).isSome)
  match qs.foldl (fun (b : Option Nat) q => match b with
      | none => some q
      | some q' => if (free q').length < (free q).length then some q else some q') none with
  | none => none
  | some q => match firstRun blocks (n / 8) (blockFree ws q), (free q).head? with
    | some b, some i => some (q * 16 + i, b * 8)
    | _, _ => none

/-- All waves of a group, one at a time. -/
def placeWaves (blocks n : Nat) : Nat → List (Nat × Wave) → Option (List WavePlace)
  | 0, _ => some []
  | k + 1, ws => match placeWave blocks n ws with
    | none => none
    | some p => (placeWaves blocks n k ((p.1, { valid := true, n := n, row := p.2 }) :: ws)).map (p :: ·)

end Sys2Proof.Machine
end

