-- ==== Sys2Proof/Machine/Window.lean ====
section
/-!
DEFINITION. Machine/Window.lean: the management window of a shader core (R254 to R257) with the layouts of the
divergence entries (R84), return stacks (R169), tail slots (R183), queue records (R197) and barriers (R210).
-/
namespace Sys2Proof.Machine

/-! ## Layouts -/

/-- R84. -/
def DivEntry.toNat (e : DivEntry) : Nat :=
  e.bbc.toNat * 2 ^ 114 + e.kind.toNat * 2 ^ 112 + e.depth.toNat * 2 ^ 96 + e.mask.toNat * 2 ^ 64 + e.pc.toNat
def DivEntry.ofNat (n : Nat) : DivEntry :=
  ⟨.ofNat 6 (bits n 119 114), .ofNat 2 (bits n 113 112), .ofNat 16 (bits n 111 96), .ofNat 32 (bits n 95 64), .ofNat 57 n⟩

/-- R169. -/
def LaneStack.word (l : LaneStack) : Nat := l.spcnt * 2 ^ 16 + l.oncnt
/-- ONCNT above 4 is no count and is not stored. -/
def LaneStack.setWord (l : LaneStack) (n : Nat) : LaneStack :=
  { l with spcnt := bits n 31 16, oncnt := if bits n 2 0 ≤ 4 then bits n 2 0 else l.oncnt }

/-- R197, with MXP. -/
def QRec.word0 (r : QRec) (mxp : Bool) : Nat :=
  r.depth * 2 ^ 35 + r.base / 128 * 2 ^ 22 + r.dir * 2 ^ 20 + r.pcnt * 2 ^ 15 + r.ccnt * 2 ^ 10 + mxp.toNat * 4
    + r.closed.toNat * 2 + r.valid.toNat
def QRec.word1 (r : QRec) : Nat := r.count * 2 ^ 24 + r.tail * 2 ^ 12 + r.head
def QRec.setWord0 (r : QRec) (n : Nat) : QRec :=
  { r with depth := bits n 47 35, base := bits n 34 22 * 128, dir := bits n 21 20, pcnt := bits n 19 15
           ccnt := bits n 14 10, closed := bitN n 1, valid := bitN n 0 }
def QRec.setWord1 (r : QRec) (n : Nat) : QRec :=
  { r with count := bits n 36 24, tail := bits n 23 12, head := bits n 11 0 }

/-- R210. -/
def Bar.word0 (b : Bar) : Nat :=
  b.phase.toNat * 2 ^ 48 + b.bytes.toNat * 2 ^ 16 + b.arr * 16 + b.kind * 4 + b.rwait.toNat * 2
def Bar.setWord0 (b : Bar) (n : Nat) : Bar :=
  { b with phase := .ofNat 16 (bits n 63 48), bytes := .ofNat 32 (bits n 47 16), arr := bits n 15 4
           kind := bits n 3 2, rwait := bitN n 1 }

/-- R183. -/
def Tail.tstat (t : Tail) : Nat :=
  t.lanes.toNat * 2 ^ 32 + t.fs.toNat * 2 ^ 23 + t.fb.toNat * 2 ^ 14 + t.wave * 2 ^ 8 + t.valid.toNat * 2 ^ 7
    + t.stack.length
def Tail.tcnt (t : Tail) : Nat := t.ctx.st * 2 ^ 6 + t.ctx.ld

/-- Entry i of a divergence state, 0 the lowest; entries at or above DIVCNT stand apart. -/
def divGet (stack : List DivEntry) (above : FMap DivEntry) (i : Nat) : DivEntry :=
  if i < stack.length then (stack[stack.length - 1 - i]?).getD {} else FMap.get {} above i

/-- Entry i replaced. -/
def divPut (stack : List DivEntry) (above : FMap DivEntry) (i : Nat) (e : DivEntry) : List DivEntry × FMap DivEntry :=
  if i < stack.length then (stack.set (stack.length - 1 - i) e, above) else (stack, above.set {} i e)

/-- DIVCNT replaced: the same 64 entries, of which the lowest n are in use. -/
def divCnt (stack : List DivEntry) (above : FMap DivEntry) (n : Nat) : List DivEntry × FMap DivEntry :=
  let all := (List.range 64).map (divGet stack above)
  ((all.take n).reverse, FMap.setMany {} [] (((List.range 64).zip all).drop n))

/-- FPCTL as a write stores it (R129). -/
def fpctlOf (n : Nat) : Word :=
  .ofNat 32 (bits n 12 8 * 2 ^ 8 + (if 1 ≤ bits n 2 0 ∧ bits n 2 0 ≤ 4 then bits n 2 0 else 1))

/-- LATCHLIVE (R255). A just-written entry counts as live for two. -/
def Div.liveBits (d : Div) : Nat :=
  (List.range 3).foldl (fun v e => v + min 2 (FMap.get 0 d.live e) * 4 ^ e) 0
/-- A liveness of 3 is no value and is not stored. -/
def Div.setLive (d : Div) (n : Nat) : Div :=
  { d with live := (List.range 3).foldl (fun m e =>
      if bits n (2 * e + 1) (2 * e) ≤ 2 then FMap.set 0 m e (bits n (2 * e + 1) (2 * e)) else m) d.live }

/-- All exception flags of a wave, those of its running tails too (R131). -/
def State.allFlags (s : State) (ck w : Nat) : Word :=
  (s.tailsOf ck w).foldl (fun v t => v ||| (s.tail (ck * 32 + t)).flags) (s.wave (ck * 64 + w)).fpflags

/-- The counters word of R255. -/
def Wave.counters (w : Wave) : Nat := w.mx * 2 ^ 18 + w.cp * 2 ^ 12 + w.main.st * 2 ^ 6 + w.main.ld

/-- WSTAT (R256). -/
def Wave.wstat (w : Wave) : Nat :=
  w.cause * 2 ^ 56 + w.number.toNat * 2 ^ 40 + w.wctx * 2 ^ 34 + w.async.toNat * 2 ^ 33 + w.state

/-- Word k of 32 bits. -/
def word32 (n k : Nat) : Nat := n / 2 ^ (32 * k) % 2 ^ 32

/-! ## Reading: 32 bits at an offset that is a multiple of 4 -/

/-- A wave window (R255). -/
def State.waveWin (s : State) (ck wv o : Nat) : Nat :=
  let w := s.wave (ck * 64 + wv)
  if o < 8 then word32 w.wstat (o / 4)
  else if o = 8 then w.div.tmode.toNat
  else if o = 0xC then w.faultmask.toNat
  else if o = 0x10 then w.effmask.toNat
  else if 0x18 ≤ o ∧ o < 0x20 then word32 w.faultpc.toNat ((o - 0x18) / 4)
  else if o = 0x20 then w.fpctl.toNat
  else if o = 0x24 then (s.allFlags ck wv).toNat
  else if o = 0x28 then w.counters
  else if o = 0x2C then w.bwphase + w.div.stack.length * 2 ^ 8 + w.div.liveBits * 2 ^ 16
  else if o = 0x30 then w.heldarr.toNat
  else if 0x40 ≤ o ∧ o < 0x80 then
    (w.bind ((o - 0x40) / 2)).toNat + 2 ^ 16 * (w.bind ((o - 0x40) / 2 + 1)).toNat
  else if 0x400 ≤ o ∧ o < 0x500 then word32 (FMap.get 0 w.faddr ((o - 0x400) / 8)).toNat (o / 4 % 2)
  else if 0x10000 ≤ o ∧ o < 0x1C000 then
    if (o - 0x10000) / 0x80 < w.n then (w.reg ((o - 0x10000) / 0x80) (o / 4 % 32)).toNat else 0
  else if 0x1C000 ≤ o ∧ o < 0x1C400 then (w.reg (420 + (o - 0x1C000) / 0x80) (o / 4 % 32)).toNat
  else if 0x1C400 ≤ o ∧ o < 0x1C580 then (FMap.get 0 w.div.latch ((o - 0x1C400) / 4)).toNat
  else if 0x1C580 ≤ o ∧ o < 0x1C600 then (w.ret ((o - 0x1C580) / 4)).word
  else if 0x1C600 ≤ o ∧ o < 0x1CE00 then
    word32 (FMap.get {} (w.ret ((o - 0x1C600) / 0x40)).ent (o / 0x10 % 4)).toNat (o / 4 % 4)
  else if 0x1CE00 ≤ o ∧ o < 0x1D600 then word32 (divGet w.div.stack w.div.above ((o - 0x1CE00) / 0x20)).toNat (o / 4 % 8)
  else 0

/-- A tail slot (R183). -/
def tailWin (t : Tail) (o : Nat) : Nat :=
  if o < 8 then word32 t.tstat (o / 4)
  else if o = 8 then t.tcnt
  else if 0x800 ≤ o then word32 (divGet t.stack t.above ((o - 0x800) / 0x20)).toNat (o / 4 % 8)
  else 0

/-- The window of a shader core (R254); a reserved offset reads 0. -/
def State.winGet (s : State) (ck o : Nat) : Nat :=
  let c := s.core ck
  if o = 0 then c.l1g * 2 ^ 10 + c.scrg * 2 ^ 5 + c.regg
  else if o = 8 ∨ o = 0xC then word32 (s.cstat ck) (o / 4 % 2)
  else if o = 0x10 ∨ o = 0x14 then word32 c.fragidle.toNat (o / 4 % 2)
  else if o = 0x18 then c.tlFast.toNat
  else if o = 0x1C then c.tlSlow.toNat
  else if 0x100 ≤ o ∧ o < 0x168 then
    (List.range 32).foldl (fun v i => if FMap.get false c.owner ((o - 0x100) * 8 + i) then v + 2 ^ i else v) 0
  else if 0x10000 ≤ o ∧ o < 0x10400 then
    let i := (o - 0x10000) / 16
    let r := FMap.get {} c.queues i
    word32 (r.word0 (s.mxp ck i) + 2 ^ 64 * r.word1) (o / 4 % 4)
  else if 0x20000 ≤ o ∧ o < 0x21000 then
    let b := s.bar ck ((o - 0x20000) / 16)
    word32 (b.word0 + 2 ^ 64 * b.exparr) (o / 4 % 4)
  else if 0x40000 ≤ o ∧ o < 0x60000 then tailWin (s.tail (ck * 32 + (o - 0x40000) / 0x1000)) (o % 0x1000)
  else if 0x800000 ≤ o then s.waveWin ck ((o - 0x800000) / 0x20000) (o % 0x20000)
  else 0

/-! ## Writing (R257) -/

/-- STATE 1, 2 or 4. -/
def Wave.stopped (w : Wave) : Bool := w.valid && (w.state == 1 || w.state == 2 || w.state == 4)

/-- Word k of a number replaced. -/
def put32 (n k v : Nat) : Nat := spliceBytes n (4 * k) 4 v

/-- The wave's held arrival becomes another: it leaves its barrier, or joins the one named, where it stays held until the phase advances
(R213, R217, R255). -/
def State.setHeld (s : State) (x : Sel) (v : Half) : State :=
  let drop := fun (s : State) (ck : Nat) => s.modCore ck (fun c => { c with held := c.held.filter (fun h => h.wave ≠ some x.wk) })
  let g := s.groupOf x
  let s1 := drop (drop s x.ck) (coreKey x.die g.cbase)
  let s2 := s1.modWave x.wk (fun w => { w with heldarr := v &&& 0x80FF, heldtok := none })
  let b := v.toNat % 256
  if v.getLsbD 15 then
    match s2.barAt x b ((s2.bar x.ck (g.bbase + b)).kind != 1) with
    | some (ck, i) => s2.modCore ck (fun c => { c with held := c.held ++ [⟨i, some x.wk, 1, 0⟩] })
    | none => s2
  else s2

/-- A write to the window of a stopped wave. -/
def State.wavePut (s : State) (x : Sel) (o v : Nat) : State :=
  let w := s.wave x.wk
  let mod := fun (f : Wave → Wave) => s.modWave x.wk f
  let setDiv := fun (f : Div → Div) => mod (fun w => { w with div := f w.div })
  if !w.stopped then s
  else if o = 8 then setDiv (fun d => { d with tmode := .ofNat 32 v })
  else if o = 0x20 then mod (fun w => { w with fpctl := fpctlOf v })
  else if o = 0x24 then
    (s.tailsOf x.ck x.wave).foldl (fun s t => s.modTail (x.ck * 32 + t) (fun t => { t with flags := 0 }))
      (mod (fun w => { w with fpflags := .ofNat 32 (v % 32) }))
  else if o = 0x2C then
    let n := bits v 15 8
    let d := if 1 ≤ n ∧ n ≤ 64 then divCnt w.div.stack w.div.above n else (w.div.stack, w.div.above)
    mod (fun w => { w with bwphase := bits v 2 0, div := ({ w.div with stack := d.1, above := d.2 }).setLive (bits v 21 16) })
  else if o = 0x30 then s.setHeld x (.ofNat 16 v)
  else if 0x40 ≤ o ∧ o < 0x80 then
    let q := (o - 0x40) / 2
    mod (fun w => { w with binds := (w.binds.set 0 q (.ofNat 16 (v / 128 % 512 * 128))).set 0 (q + 1)
                                      (.ofNat 16 (v / 2 ^ 23 % 512 * 128)) })
  else if 0x10000 ≤ o ∧ o < 0x1C000 then
    if (o - 0x10000) / 0x80 < w.n then mod (fun w => w.put s.tick ((o - 0x10000) / 0x80) (o / 4 % 32) (.ofNat 32 v)) else s
  else if 0x1C000 ≤ o ∧ o < 0x1C400 then mod (fun w => w.put s.tick (420 + (o - 0x1C000) / 0x80) (o / 4 % 32) (.ofNat 32 v))
  else if 0x1C400 ≤ o ∧ o < 0x1C580 then setDiv (fun d => { d with latch := d.latch.set 0 ((o - 0x1C400) / 4) (.ofNat 32 v) })
  else if 0x1C580 ≤ o ∧ o < 0x1C600 then
    let l := (o - 0x1C580) / 4
    mod (fun w => { w with div := { w.div with rets := w.div.rets.set {} l ((w.ret l).setWord v) } })
  else if 0x1C600 ≤ o ∧ o < 0x1CE00 then
    let l := (o - 0x1C600) / 0x40
    let i := o / 0x10 % 4
    let e := RetEntry.ofNat (put32 (FMap.get {} (w.ret l).ent i).toNat (o / 4 % 4) v)
    mod (fun w => { w with div := { w.div with rets := w.div.rets.set {} l { w.ret l with ent := (w.ret l).ent.set {} i e } } })
  else if 0x1CE00 ≤ o ∧ o < 0x1D600 then
    let i := (o - 0x1CE00) / 0x20
    let d := divPut w.div.stack w.div.above i (.ofNat (put32 (divGet w.div.stack w.div.above i).toNat (o / 4 % 8) v))
    setDiv (fun k => { k with stack := d.1, above := d.2 })
  else s

/-- A write to a tail slot whose wave is stopped; a free slot belongs to no wave. -/
def State.tailPut (s : State) (ck t o v : Nat) : State :=
  let tl := s.tail (ck * 32 + t)
  let set := fun (x : Tail) => s.setTail (ck * 32 + t) x
  if tl.valid && !(s.wave (ck * 64 + tl.wave)).stopped then s
  else if o < 8 then
    let n := put32 tl.tstat (o / 4) v
    let d := if bits n 6 0 ≤ 64 then divCnt tl.stack tl.above (bits n 6 0) else (tl.stack, tl.above)
    set { tl with lanes := .ofNat 32 (bits n 63 32), fs := .ofNat 9 (bits n 31 23), fb := .ofNat 9 (bits n 22 14)
                  wave := bits n 13 8, valid := bitN n 7, stack := d.1, above := d.2 }
  else if o = 8 then set { tl with ctx := { tl.ctx with st := bits v 11 6, ld := bits v 5 0 } }
  else if 0x800 ≤ o then
    let i := (o - 0x800) / 0x20
    let d := divPut tl.stack tl.above i (.ofNat (put32 (divGet tl.stack tl.above i).toNat (o / 4 % 8) v))
    set { tl with stack := d.1, above := d.2 }
  else s

/-- Every wave that binds a record is stopped (R197). -/
def State.recStopped (s : State) (ck i : Nat) : Bool :=
  (s.residents ck).all (fun p => p.2.stopped || !p.2.binds.any (fun b => bnd b.2 && decide (bRec b.2 = i)))

/-- Every wave of the group, or of the cluster, that a barrier belongs to is stopped (R210); a member that has ended is no wave. -/
def State.barStopped (s : State) (ck i : Nat) : Bool :=
  let g := (s.core ck).barGroup i
  let stop := fun (k : Nat) (g : Group) => g.waves.all (fun w =>
    let v := s.wave (k * 64 + w)
    !v.valid || v.gid != g.id || v.stopped)
  if (s.bar ck i).kind ≤ 1 then stop ck g
  else (List.range 8).all (fun m =>
    let k := coreKey (ck / 99) (g.cbase + m)
    stop k ((s.core k).clusterGroup g.cid))

/-- A write of 32 bits to the window of a core. -/
def State.winPut (s : State) (die core o v : Nat) : State :=
  let ck := coreKey die core
  let c := s.core ck
  if o = 0x10 ∨ o = 0x14 then s.setCore ck { c with fragidle := .ofNat 64 (put32 c.fragidle.toNat (o / 4 % 2) v) }
  else if o = 0x18 then s.setCore ck { c with tlFast := .ofNat 32 v }
  else if o = 0x1C then s.setCore ck { c with tlSlow := .ofNat 32 v }
  else if 0x100 ≤ o ∧ o < 0x168 then
    if (s.residents ck).all (fun p => p.2.stopped) then
      s.setCore ck { c with owner := FMap.setMany false c.owner ((List.range 32).map (fun i => ((o - 0x100) * 8 + i, bitN v i))) }
    else s
  else if 0x10000 ≤ o ∧ o < 0x10400 then
    let i := (o - 0x10000) / 16
    let r := FMap.get {} c.queues i
    if s.recStopped ck i then
      let n := put32 (r.word0 false + 2 ^ 64 * r.word1) (o / 4 % 4) v
      s.setCore ck { c with queues := c.queues.set {} i ((r.setWord0 n).setWord1 (n / 2 ^ 64)) }
    else s
  else if 0x20000 ≤ o ∧ o < 0x21000 then
    let i := (o - 0x20000) / 16
    let b := s.bar ck i
    if s.barStopped ck i then
      let n := put32 (b.word0 + 2 ^ 64 * b.exparr) (o / 4 % 4) v
      s.setBar ck i { b.setWord0 n with exparr := bits n 75 64 }
    else s
  else if 0x40000 ≤ o ∧ o < 0x60000 then s.tailPut ck ((o - 0x40000) / 0x1000) (o % 0x1000) v
  else if 0x800000 ≤ o then s.wavePut ⟨die, core, (o - 0x800000) / 0x20000, 63⟩ (o % 0x20000) v
  else s

end Sys2Proof.Machine
end

