-- ==== Sys2Proof/Machine/System.lean ====
section
/-!
DEFINITION. Machine/System.lean: the system instructions of group 111 (R261 to R273), with the save blocks (R263 to R266)
and the resumption of a wave (R268).
-/
namespace Sys2Proof.Machine

/-- FMTGEN: the save format generation of the device (R270). -/
def fmtGen : Nat := 0x0003

/-! ## Subjects (R262) -/

/-- The core that a selector names for a management-core wave: one of its clusters', every reserved bit 0. -/
def selCore (x : Sel) (sel : Nat) : Option Nat :=
  let c := bits sel 14 8
  if bits sel 31 15 = 0 ∧ bits sel 7 6 = 0 ∧ c < 96 ∧ c / 32 = x.core - 96 then some c else none

/-- The subject of an instruction, or the cause that its operand B raises in every active lane. -/
def Cx.subject (cx : Cx) (s : State) (b : Opnd) : Except Nat (Option Sel) :=
  if cx.sel.mgmt then
    if b = .none then .error cPRIV
    else
      let sel := cx.src s .B b 1 cx.F
      match selCore cx.sel sel with
      | none => .ok none
      | some c =>
        let y : Sel := ⟨cx.sel.die, c, sel % 64, 63⟩
        .ok (if (s.wave y.wk).valid then some y else none)
  else if b ≠ .none then .error cPROTECT
  else .ok (some { cx.sel with ctx := 63 })

/-- The core whose window an instruction reaches. -/
def Cx.windowCore (cx : Cx) (s : State) (b : Opnd) : Except Nat (Option Nat) :=
  if cx.sel.mgmt then
    if b = .none then .error cPRIV else .ok (selCore cx.sel (cx.src s .B b 1 cx.F))
  else if b ≠ .none then .error cPROTECT
  else .ok (some cx.sel.core)

/-- The same cause, without an address, in every active lane. -/
def planCause (c : Nat) : Plan := { lane := fun _ => some (c, none), whole := true, run := fun _ s => s }

/-- A plan on the subject. -/
def Cx.on {α : Type} (e : Except Nat α) (p : α → Plan) : Plan :=
  match e with
  | .error c => planCause c
  | .ok y => p y

/-- The result stands in D before the wave issues again (R261). -/
def Cx.putNow (cx : Cx) (o : Opnd) (n : Nat) (lanes : List Nat) (val : Nat → Nat) (s : State) : State :=
  match o with
  | .v r => s.modWave cx.sel.wk (fun w => lanes.foldl (fun w l => w.putN s.tick r l n (val l)) w)
  | .k j => s.modWave cx.sel.wk (fun w => lanes.foldl (fun w l => w.putN s.tick (420 + j) l n (val l)) w)
  | _ => s

/-- A status in every active lane. -/
def Cx.status (cx : Cx) (f : XF) (lanes : List Nat) (v : Nat) (s : State) : State := cx.putNow f.d 1 lanes (fun _ => v) s

/-- Nothing but a status. -/
def Cx.only (cx : Cx) (f : XF) (v : Nat) : Plan := { run := fun ls s => cx.status f ls v s }

/-! ## Blocks in memory -/

/-- What a piece of a block meets; blocks reach as far as `ld` and `st` do, whatever their alignment. -/
def State.pieceHit (s : State) (ag : Ag) (a n : Nat) (need : Need) : Hit :=
  if 2 ^ 57 < a + n then .bad cPROTECT a
  else match s.locate ag a n need with
    | .cause c => .bad c a
    | .nonres => .nonres (.ofNat 57 a)
    | .at_ l => .ok (.glob l)

/-- A block in pieces of at most 32 bytes, none of which crosses a line: offset, bytes, hit. -/
def State.pieces (s : State) (ag : Ag) (a len : Nat) (need : Need) : List (Nat × Nat × Hit) :=
  (List.range ((len + 31) / 32)).map (fun i =>
    let n := min 32 (len - 32 * i)
    (32 * i, n, s.pieceHit ag (a + 32 * i) n need))

/-- The first piece that fails. -/
def blockFail (ps : List (Nat × Nat × Hit)) : Option Fail := ps.findSome? (fun p => p.2.2.cause .none)

/-- The bytes of a block that may be accessed, in pieces. -/
def blockSpots (ps : List (Nat × Nat × Hit)) : List (LatePlace × Nat) :=
  ps.filterMap (fun p => match p.2.2 with | .ok pl => some (pl.late, p.2.1) | _ => none)

/-- A block is read: absent lines of carved copies are filled, and translations held (R350, R356). -/
def State.touchBlock (s : State) (ag : Ag) (a len : Nat) : State :=
  (s.pieces ag a len .rd).foldl (fun s p => match p.2.2 with
    | .ok pl => s.touchAt ag (a + p.1) pl
    | _ => s) s

def State.readBlock (s : State) (ag : Ag) (a len : Nat) : Nat :=
  ofBytes ((s.pieces ag a len .rd).flatMap (fun p => match p.2.2 with
    | .ok pl => toBytes p.2.1 (s.readAt ag pl p.2.1)
    | _ => []))

def State.writeBlock (s : State) (ag : Ag) (a len v : Nat) : State :=
  (s.pieces ag a len .wr).foldl (fun s p => match p.2.2 with
    | .ok pl => (s.touchAt ag (a + p.1) pl).writeAt ag pl p.2.1 (v / 2 ^ (8 * p.1) % 2 ^ (8 * p.2.1))
    | _ => s) s

/-- A block as a context reads it: its own earlier stores to those bytes come first (R222). -/
def State.seeBlock (s : State) (x : Sel) (a len : Nat) : Nat :=
  let ag := s.agent x
  (s.inOrder x (blockSpots (s.pieces ag a len .rd))).readBlock ag a len

/-- A block as a context writes it, after its own earlier stores to those bytes (R222). -/
def State.putBlock (s : State) (x : Sel) (a len v : Nat) : State :=
  let ag := s.agent x
  (s.inOrder x (blockSpots (s.pieces ag a len .wr))).writeBlock ag a len v

/-- A plan on a block: its alignment and its pages first. -/
def Plan.block (p : Plan) (cx : Cx) (a al : Nat) (ps : List (Nat × Nat × Hit)) : Plan :=
  let e : Option Fail := if a % al ≠ 0 then some (cALIGN, some (.ofNat 57 a)) else blockFail ps
  { p with lane := fun _ => e, whole := true, always := fun _ s => s.postCauses cx.sel e.toList }

/-- Values at byte offsets as one number. -/
def pack (l : List (Nat × Nat)) : Nat := l.foldl (fun v p => v + p.2 * 2 ^ (8 * p.1)) 0

/-! ## svdiv and rsdiv (R263, R264) -/

/-- Every counter of every context of a wave reads 0. -/
def State.drained (s : State) (x : Sel) : Bool :=
  let w := s.wave x.wk
  w.main.ld == 0 && w.main.st == 0 && w.cp == 0 && w.mx == 0 &&
    (s.tailsOf x.ck x.wave).all (fun t =>
      let c := (s.tail (x.ck * 32 + t)).ctx
      c.ld == 0 && c.st == 0)

/-- The divergence state that the save block holds: the parked one of a redirected wave. -/
def Wave.subjectDiv (w : Wave) : Div := w.parked.getD w.div

/-- A redirected wave, acting on its parked state, or a stopped subject of a management-core wave (R262). -/
def State.ready (s : State) (cx : Cx) (y : Sel) : Bool := !cx.sel.mgmt || (s.wave y.wk).stopped

def divPack (base : Nat) (stack : List DivEntry) : List (Nat × Nat) :=
  (List.range (min 64 stack.length)).map (fun i => (base + 0x20 * i, (divGet stack [] i).toNat))

/-- The save block of a wave (R263). -/
def State.saveBlock (s : State) (y : Sel) : Nat :=
  let w := s.wave y.wk
  let d := w.subjectDiv
  let ts := s.tailsOf y.ck y.wave
  pack ([(0, fmtGen), (2, d.stack.length), (3, ts.length), (4, d.tmode.toNat), (8, w.fpctl.toNat),
      (0xC, (s.allFlags y.ck y.wave).toNat), (0x10, w.bwphase), (0x11, d.liveBits), (0x12, w.heldarr.toNat)]
    ++ (List.range 96).map (fun k => (0x40 + 4 * k, (FMap.get 0 d.latch k).toNat))
    ++ (List.range 32).map (fun l => (0x1C0 + 4 * l, (FMap.get {} d.rets l).word))
    ++ (List.range 128).map (fun k => (0x240 + 0x10 * k, (FMap.get {} (FMap.get {} d.rets (k / 4)).ent (k % 4)).toNat))
    ++ divPack 0xA40 d.stack
    ++ (List.range ts.length).flatMap (fun t =>
        let tl := s.tail (y.ck * 32 + (ts[t]?).getD 0)
        (0x1240 + 0x840 * t, { tl with wave := 0 }.tstat) :: divPack (0x1280 + 0x840 * t) tl.stack))

def blockSize (ntail : Nat) : Nat := 0x1240 + 0x840 * ntail

def execSvdiv (f : XF) (s : State) : Host.Outcome State Fault Refusal := issue (.svdiv f) f.h s (fun cx s =>
  let a := cx.src s .A f.a 2 cx.F
  let ag := s.agent cx.sel
  Cx.on (cx.subject s f.b) (fun (y : Option Sel) => match y with
    | none => cx.only f 0
    | some y =>
      if !s.ready cx y then cx.only f 0
      else
        let n := blockSize (s.tailsOf y.ck y.wave).length
        Plan.block
          { wait := if s.drained y then none else some s
            run := fun ls s => cx.status f ls n (s.putBlock cx.sel a n (s.saveBlock y)) } cx a 64 (s.pieces ag a n .wr)))

/-- R281: RFAULT of the management core that serves the subject records a refused generation. -/
def State.restoreFault (s : State) (y : Sel) (gen : Nat) : State :=
  s.modCore (mgmtOf y.die y.core) (fun c =>
    { c with rfault := .ofNat 64 (2 ^ 63 + gen % 65536 * 2 ^ 32 + (s.wave y.wk).ctxid % 65536 * 2 ^ 16) })

/-- A redirected wave whose restore is refused stops with STATE 4 at the next instruction boundary, with no record. R281 and R287 give no
FAULTPC, FAULTMASK, ASYNC or CAUSE to this stop: the model records the next slot, no lane, 0 and 0 (log entry 89). -/
def State.refused (s : State) (cx : Cx) (y : Sel) (gen : Nat) : State :=
  let s1 := s.restoreFault y gen
  if cx.sel.mgmt then s1
  else s1.modWave cx.sel.wk (fun w =>
    { w with state := 4, cause := 0, number := 0, wctx := 63, async := false, faultmask := 0, effmask := 0
             faultpc := (nextPc cx.run.pc).getD cx.run.pc, faddr := [], actmask := 0, posted := true, redo := [] })

/-- The divergence state, latch entries and return stacks of a save block. -/
def divOf (b : Nat) : Div :=
  let at32 := fun o => b / 2 ^ (8 * o) % 2 ^ 32
  let n := min 64 (bits b 23 16)
  ({ stack := ((List.range n).map (fun i => DivEntry.ofNat (b / 2 ^ (8 * (0xA40 + 0x20 * i)) % 2 ^ 256))).reverse
     tmode := .ofNat 32 (at32 4)
     latch := FMap.setMany 0 [] ((List.range 96).map (fun k => (k, .ofNat 32 (at32 (0x40 + 4 * k)))))
     rets := FMap.setMany {} [] ((List.range 32).map (fun l =>
       (l, ({ ent := FMap.setMany {} [] ((List.range 4).map (fun i =>
                (i, RetEntry.ofNat (b / 2 ^ (8 * (0x240 + 0x40 * l + 0x10 * i)) % 2 ^ 128)))) } : LaneStack).setWord
              (at32 (0x1C0 + 4 * l))))) } : Div).setLive (bits b (8 * 0x11 + 7) (8 * 0x11))

/-- A tail of a save block. -/
def tailOf (b t wave : Nat) : Tail :=
  let ts := b / 2 ^ (8 * (0x1240 + 0x840 * t)) % 2 ^ 64
  { valid := true, wave := wave, fb := .ofNat 9 (bits ts 22 14), fs := .ofNat 9 (bits ts 31 23)
    lanes := .ofNat 32 (bits ts 63 32)
    stack := ((List.range (min 64 (bits ts 6 0))).map (fun i =>
      DivEntry.ofNat (b / 2 ^ (8 * (0x1280 + 0x840 * t + 0x20 * i)) % 2 ^ 256))).reverse }

/-- The block becomes the subject's state (R264): its parked state where it has one, for a management-core wave's subject that stopped in its
handler too (log entry 88). -/
def State.restoreBlock (s : State) (y : Sel) (b : Nat) : State :=
  let d := divOf b
  let free := (List.range 32).filter (fun t => !(s.tail (y.ck * 32 + t)).valid)
  let s1 := (List.range (bits b 31 24)).foldl (fun s t => match free[t]? with
    | some slot => s.setTail (y.ck * 32 + slot) (tailOf b t y.wave)
    | none => s) s
  let s2 := s1.modWave y.wk (fun w =>
    let w1 := match w.parked with
      | some p => { w with parked := some { d with can := p.can, redo := FMap.setMany (~~~0) [] (p.redo.map (fun (r : Nat × Mask) =>
                      (if 64 ≤ r.1 then (free[r.1 - 64]?).getD 63 else r.1, r.2))) } }
      | none => { w with div := { d with can := w.div.can } }
    { w1 with fpctl := fpctlOf (b / 2 ^ 64 % 2 ^ 32), fpflags := .ofNat 32 (b / 2 ^ 96 % 32), bwphase := bits b 130 128 })
  s2.setHeld y (.ofNat 16 (b / 2 ^ (8 * 0x12) % 2 ^ 16))

def execRsdiv (f : XF) (s : State) : Host.Outcome State Fault Refusal := issue (.rsdiv f) f.h s (fun cx s =>
  let a := cx.src s .A f.a 2 cx.F
  let ag := s.agent cx.sel
  Cx.on (cx.subject s f.b) (fun (y : Option Sel) => match y with
    | none => cx.only f 0
    | some y =>
      if !s.ready cx y then cx.only f 0
      else
        let hd := s.seeBlock cx.sel a 32
        let nt := bits hd 31 24
        let ok := hd % 2 ^ 16 == fmtGen && decide (nt ≤ s.freeTails y.ck) && (s.tailsOf y.ck y.wave).isEmpty
        let n := if ok then blockSize nt else 32
        let b := s.seeBlock cx.sel a n
        Plan.block
          { run := fun ls s0 =>
              let s := s0.touchBlock ag a n
              if ok then cx.status f ls 1 (s.restoreBlock y b)
              else
                let s1 := cx.status f ls 0 s
                if hd % 2 ^ 16 = fmtGen then s1 else s1.refused cx y (hd % 2 ^ 16) } cx a 64 (s.pieces ag a n .rd)))

/-! ## qsave and qrest (R265) -/

/-- The block of a binding, and its size. -/
def State.queueBlock (s : State) (y : Sel) (qn : Nat) : Nat × Nat :=
  let b := (s.wave y.wk).bind qn
  let c := s.core y.ck
  let r := FMap.get {} c.queues (bRec b)
  if bnd b then
    (0x20 + 4 * r.count, pack ([(0, fmtGen), (2, b.toNat), (8, r.word0 (s.mxp y.ck (bRec b))), (0x10, r.word1)]
      ++ (List.range r.count).map (fun i => (0x20 + 4 * i, (c.scratchWord (c.ringAt r ((r.head + i) % r.depth))).toNat))))
  else (0x20, fmtGen)

def execQsave (f : XF) (s : State) : Host.Outcome State Fault Refusal := issue (.qsave f) f.h s (fun cx s =>
  let a := cx.src s .A f.a 2 cx.F
  let ag := s.agent cx.sel
  let qn := f.e 4 0
  Cx.on (cx.subject s f.b) (fun (y : Option Sel) => match y with
    | none => cx.only f 0
    | some y =>
      let b := s.queueBlock y qn
      Plan.block
        { wait := if (s.core y.ck).pushing y.wave (bRec ((s.wave y.wk).bind qn)) then some s else none
          run := fun ls s => cx.status f ls b.1 (s.putBlock cx.sel a b.1 b.2) } cx a 32 (s.pieces ag a b.1 .wr)))

/-- A saved record and role that keep the limits of R197 and R198. -/
def QRec.sound (r : QRec) (role : Nat) : Bool :=
  decide (32 ≤ r.depth) && decide (r.depth ≤ 4096) && decide (r.dir ≠ 3) && decide (role ≠ 0)
    && (r.dir != 1 || role == 1) && (r.dir != 2 || role == 2) && r.base % 128 == 0
    && decide (r.head < r.depth) && decide (r.tail < r.depth) && decide (r.count ≤ r.depth)
    && r.tail == (r.head + r.count) % r.depth

/-- PCNT and CCNT of a group's records are counted again from the bindings; a record of no binding is freed (R200). -/
def State.recount (s : State) (ck gid : Nat) : State :=
  let ws := (s.residents ck).filter (fun p => decide (p.2.gid = gid))
  let again := fun (m : FMap QRec) (p : Nat × QRec) =>
    let r := FMap.get ({} : QRec) m p.1
    let roles := ws.flatMap (fun q => (q.2.binds.filter (fun b => bnd b.2 && decide (bRec b.2 = p.1))).map (fun b => bRole b.2))
    let pc := (roles.filter roleProd).length
    let cc := (roles.filter roleCons).length
    FMap.set ({} : QRec) m p.1 (QRec.orphan { r with pcnt := pc, ccnt := cc })
  s.modCore ck (fun c => { c with queues := (c.ownRecs gid).foldl again c.queues })

/-- qN is bound to a saved record: one of the group's with the same ring, or a new one with the saved words and
elements. -/
def State.restoreQueue (s : State) (y : Sel) (qn role : Nat) (r : QRec) (elems : List Word) : State :=
  let w := s.wave y.wk
  let s0 := s.modWave y.wk (fun w => { w with binds := w.binds.set 0 qn 0 })
  let c := s.core y.ck
  let s1 := match c.joins w.gid r.base with
    | some (qi, q) => (s0.modCore y.ck (fun c => { c with queues := c.queues.set {} qi { q with closed := q.closed && !roleProd role } })).modWave
        y.wk (fun w => { w with binds := w.binds.set 0 qn (mkBind role qi) })
    | none =>
      let qi := (lowest 64 (fun i => !(FMap.get ({} : QRec) c.queues i).valid)).getD 0
      let r' := { r with valid := true, gid := w.gid }
      (s0.modCore y.ck (fun c =>
        let c1 := ((List.range r.count).zip elems).foldl (fun (c : Core) (p : Nat × Word) =>
          c.setScratchWord (c.ringAt r' ((r.head + p.1) % r.depth)) p.2) c
        { c1 with queues := c1.queues.set {} qi r' })).modWave y.wk (fun w =>
          { w with binds := w.binds.set 0 qn (mkBind role qi) })
  s1.recount y.ck w.gid

def execQrest (f : XF) (s : State) : Host.Outcome State Fault Refusal := issue (.qrest f) f.h s (fun cx s =>
  let a := cx.src s .A f.a 2 cx.F
  let ag := s.agent cx.sel
  let qn := f.e 4 0
  Cx.on (cx.subject s f.b) (fun (y : Option Sel) => match y with
    | none => cx.only f 0
    | some y =>
      let hd := s.seeBlock cx.sel a 32
      let saved : Half := .ofNat 16 (bits hd 31 16)
      let r : QRec := (QRec.setWord0 {} (bits hd 127 64)).setWord1 (bits hd 191 128)
      let b := (s.wave y.wk).bind qn
      if hd % 2 ^ 16 ≠ fmtGen then
        Plan.block { run := fun ls s => (cx.status f ls 0 (s.touchBlock ag a 32)).refused cx y (hd % 2 ^ 16) } cx a 32
          (s.pieces ag a 32 .rd)
      else if !bnd saved then
        Plan.block
          { wave := if bnd b && s.freeBarred y b then some cQUEUE else none
            run := fun ls s0 =>
              let s := s0.touchBlock ag a 32
              cx.status f ls 1 (if bnd b then s.freeBinding y qn else s) } cx a 32 (s.pieces ag a 32 .rd)
      else if r.sound (bRole saved) && s.bindOk y qn r.base r.depth r.dir then
        let n := 0x20 + 4 * r.count
        let v := s.seeBlock cx.sel a n
        Plan.block
          { run := fun ls s =>
              cx.status f ls 1 ((s.touchBlock ag a n).restoreQueue y qn (bRole saved) r
                ((List.range r.count).map (fun i => .ofNat 32 (word32 v (8 + i))))) } cx a 32 (s.pieces ag a n .rd)
      else Plan.block { run := fun ls s => cx.status f ls 0 (s.touchBlock ag a 32) } cx a 32 (s.pieces ag a 32 .rd)))

/-! ## bsave and brest (R266) -/

/-- KIND of a group's barrier as its placement sets it; a cluster barrier's is that of its home (R209). -/
def Group.placedKind (g : Group) (b : Nat) : Nat := if g.clu && decide (b < g.nc) then 2 else 1

/-- The barrier of a group by its index: for a cluster barrier the home of the die. -/
def State.groupBar (s : State) (y : Sel) (b : Nat) : Option (Nat × Nat) :=
  let g := s.groupOf y
  if g.nb ≤ b then none
  else if g.placedKind b = 2 then
    some (coreKey y.die g.cbase, ((s.core (coreKey y.die g.cbase)).clusterGroup g.cid).bbase + b)
  else some (y.ck, g.bbase + b)

def execBsave (f : XF) (s : State) : Host.Outcome State Fault Refusal := issue (.bsave f) f.h s (fun cx s =>
  let a := cx.src s .A f.a 2 cx.F
  let ag := s.agent cx.sel
  Cx.on (cx.subject s f.b) (fun (y : Option Sel) => match y with
    | none => cx.only f 0
    | some y => match s.groupBar y (f.e 7 0) with
      | none => Plan.block (cx.only f 0) cx a 32 []
      | some (ck, i) =>
        let b := s.bar ck i
        let v := pack [(0, fmtGen), (2, f.e 7 0), (8, b.word0), (0x10, b.exparr)]
        Plan.block { run := fun ls s => cx.status f ls 32 (s.putBlock cx.sel a 32 v) } cx a 32 (s.pieces ag a 32 .wr)))

def execBrest (f : XF) (s : State) : Host.Outcome State Fault Refusal := issue (.brest f) f.h s (fun cx s =>
  let a := cx.src s .A f.a 2 cx.F
  let ag := s.agent cx.sel
  Cx.on (cx.subject s f.b) (fun (y : Option Sel) => match y with
    | none => cx.only f 0
    | some y =>
      match s.groupBar y (f.e 7 0) with
      | none => Plan.block (cx.only f 0) cx a 32 []
      | some (ck, i) =>
        let v := s.seeBlock cx.sel a 32
        Plan.block
          { run := fun ls s0 =>
              let s := s0.touchBlock ag a 32
              let b := s.bar ck i
              if v % 2 ^ 16 ≠ fmtGen then (cx.status f ls 0 s).refused cx y (v % 2 ^ 16)
              else if bits v 67 66 ≠ (s.groupOf y).placedKind (f.e 7 0) then cx.status f ls 0 s
              else cx.status f ls 1 (s.setBar ck i { b.setWord0 (bits v 127 64) with exparr := bits v 139 128 }) }
          cx a 32 (s.pieces ag a 32 .rd)))

/-! ## kmov (R267) -/

def execKmov (f : XF) (s : State) : Host.Outcome State Fault Refusal := issue (.kmov f) f.h s (fun cx s =>
  let kn := 420 + f.e 2 0
  let put := f.e 3 3 == 1
  Cx.on (cx.subject s f.b) (fun (y : Option Sel) =>
    let on := match y with | some y => (s.wave y.wk).stopped | none => false
    let yk := match y with | some y => y.wk | none => 0
    { run := fun ls s =>
        if put then
          if on then s.modWave yk (fun w => ls.foldl (fun w l => w.put s.tick kn l (.ofNat 32 (cx.src s .A f.a 1 l))) w) else s
        else cx.putNow f.d 1 ls (fun l => if on then ((s.wave yk).reg kn l).toNat else 0) s }))

/-! ## hret (R268) -/

/-- The invariants of R85, as a resume checks them. -/
def divSound : List DivEntry → Bool
  | [] => true
  | e :: below =>
    (if e.kind = 2 then below.all (fun j => j.kind != 2 || e.mask &&& j.mask == 0 || e.mask &&& ~~~j.mask == 0)
     else e.kind != 3 && e.mask != 0 &&
      below.all (fun j => if j.kind = 2 then e.mask &&& j.mask == 0 || e.mask &&& ~~~j.mask == 0 else e.mask &&& j.mask == 0))
    && divSound below

/-- Exactly one RUN entry, on top, and the masks of R85. -/
def stackSound (l : List DivEntry) : Bool :=
  match l with
  | [] => false
  | t :: r => t.kind == 0 && r.all (fun e => e.kind != 0) && divSound l

/-- Windows of R268 of a wave's tails. -/
def tailsSound (n : Nat) (ts : List Tail) : Bool :=
  ts.all (fun t => decide (1 ≤ t.fs.toNat) && decide (t.fs.toNat ≤ 384) && decide (t.fb.toNat + t.fs.toNat ≤ n) && t.lanes != 0
    && (t.stack.isEmpty || stackSound t.stack)) &&
  (List.range ts.length).all (fun i => (List.range i).all (fun j =>
    match ts[i]?, ts[j]? with
    | some a, some b => a.lanes &&& b.lanes == 0
        || decide (a.fb.toNat + a.fs.toNat ≤ b.fb.toNat) || decide (b.fb.toNat + b.fs.toNat ≤ a.fb.toNat)
    | _, _ => true))

/-- Everything that a resume checks, for a main context that has not ended and for every tail; a cluster barrier at its home
on the wave's die (R209, R210). -/
def State.sound (s : State) (y : Sel) : Bool :=
  let w := s.wave y.wk
  let g := s.groupOf y
  (w.div.stack.isEmpty || stackSound w.div.stack)
    && tailsSound w.n ((s.tailsOf y.ck y.wave).map (fun t => s.tail (y.ck * 32 + t)))
    && w.binds.all (fun b => !bnd b.2 ||
        (let r := FMap.get {} (s.core y.ck).queues (bRec b.2)
         decide (r.tail = (r.head + r.count) % r.depth) && decide (r.count ≤ r.depth)))
    && (List.range g.nb).all (fun i => match s.groupBar y i with
      | some (ck, k) => decide ((s.bar ck k).arr ≤ (s.bar ck k).exparr)
      | none => true)

/-- The n-th cause of R70's table, of which there are 22. -/
def anyCause (n : Nat) : Nat := if n % 22 < 20 then n % 22 + 1 else n % 22 + 12

/-- A resume that is refused: STATE 4, and a record with REFUSED and the original cause. A wave that no trap had stopped has none, and
CAUSE is then any code of R70 but 0x00, which is never reported (R71, log entry 42). -/
def State.refuseResume (s : State) (y : Sel) : State :=
  s.modWave y.wk (fun w => { w with state := 4, posted := false, stopTick := s.tick, cause := if w.cause = 0 then anyCause (Config.pick s.tick 22) else w.cause })

/-- A settled stack of a context that goes on after its handler (R87); a change of its RUN entry ends the latch entries
(R94). -/
def State.settleCtx (s : State) (x : Sel) : State :=
  let l := settle (s.wave x.wk).div.tmode (s.stack x)
  let same := match l, s.stack x with
    | a :: l', b :: l'' => a.mask == b.mask && a.kind == b.kind && l'.length == l''.length
    | [], [] => true
    | _, _ => false
  let s1 := s.setStack x l
  if x.main && !same then s1.modWave x.wk Wave.killLatch else s1

/-- A resumed wave's contexts are settled. -/
def State.settleAll (s : State) (y : Sel) : State :=
  (s.tailsOf y.ck y.wave).foldl (fun s t => s.settleCtx { y with ctx := t }) (s.settleCtx y)

/-- The instruction that the context waited in executes no more: what it had done of its effect is not gone on with (R213, R214). -/
def State.leaves (s : State) (x : Sel) : State :=
  if x.main then s.modWave x.wk (fun w => { w with main := { w.main with sync := none }, div := { w.div with can := none } }) else s

/-- The reporting context goes on after FAULTPC (R268), whose instruction has executed (R94); at the last slot of the address
space it traps again (R36), with the lanes in which that instruction took effect. -/
def State.afterFault (s : State) (x : Sel) : State :=
  match s.advance x with
  | some s' => (s'.settled x (s.run x) false).settleAll { x with ctx := 63 }
  | none => s.stop x { s.waveTrap x cILL_LINE (s.wave x.wk).actmask with eff := (s.wave x.wk).effmask }

/-- `hret` of a management-core wave on a subject (R268). A main context all of whose lanes have exited only ends (R304). Where a window
write has given the RUN entry of the reporting context another PC than FAULTPC, the context goes on at that PC in every lane, whatever REPLAY
(log entry 87). A wave that stops as it is resumed before its record is posted posts none for that stop (log entry 84). -/
def State.resumeWave (s : State) (y : Sel) (replay : Bool) : State :=
  let w := s.wave y.wk
  let x : Sel := { y with ctx := w.wctx }
  if w.state ≠ 1 ∧ w.state ≠ 4 then s
  else if !s.sound y then s.refuseResume y
  else if (s.run x).pc != w.faultpc then ((s.resume y.wk none).leaves x).settleAll y
  else if w.async then (s.resume y.wk none).settleAll y
  else if replay then (s.resume y.wk (some (w.actmask &&& ~~~w.effmask))).settleAll y
  else ((s.resume y.wk none).leaves x).afterFault x

/-- `hret` of a redirected wave: the parked state becomes the live state (R268). -/
def State.leaveHandler (s : State) (y : Sel) : State :=
  let s1 := s.modWave y.wk (fun w =>
    { w with div := { w.parked.getD {} with redo := [] }, redo := (w.parked.getD {}).redo, parked := none, state := 0 })
  let s2 := if (s1.stack y).isEmpty then s1.lastLane y else s1
  if (s1.stack y).isEmpty && (s1.tailsOf y.ck y.wave).isEmpty then s2
  else if s1.sound y then s2.settleAll y
  else s1.refuseResume y

def execHret (f : XF) (s : State) : Host.Outcome State Fault Refusal := issue (.hret f) f.h s (fun cx s =>
  Cx.on (cx.subject s f.b) (fun (y : Option Sel) => match y with
    | none => planNop
    | some y =>
      if cx.sel.mgmt then { run := fun _ s => (s.publish cx.sel).resumeWave y (f.e 0 0 == 1) }
      else { fresh := true, run := fun _ s => (s.publish cx.sel).leaveHandler y }))

/-! ## halt (R269) -/

/-- The wave ends as `exit` ends it: its lanes and its tails are gone, and the Funel counts it as pre-empted. -/
def State.haltWave (s : State) (y : Sel) : State :=
  let s1 := (s.tailsOf y.ck y.wave).foldl (fun s t => s.modTail (y.ck * 32 + t) Tail.freed) s
  let s2 := s1.setHeld y 0
  (s2.modWave y.wk (fun w => { w with
    div := { w.div with stack := [] }, parked := none, state := 0
    funel := { w.funel with
      halted := true, ended := w.funel.ended ||| ~~~(liveMask w.subjectDiv.stack), tails := (s.tailsOf y.ck y.wave).length, table := w.table
      redo := FMap.setMany (~~~0) [] (w.subjectDiv.redo.filterMap (fun r => if r.1 = 63 then some r
        else ((s.tailsOf y.ck y.wave).idxOf? r.1).map (fun k => (64 + k, r.2)))), can := w.subjectDiv.can } })).lastLane y

def execHalt (f : XF) (s : State) : Host.Outcome State Fault Refusal := issue (.halt f) f.h s (fun cx s =>
  if cx.sel.mgmt then { wait := if (s.core cx.sel.ck).trapq.isEmpty then some s else none, run := fun _ s => s }
  else
    { wait := if s.drained cx.sel then none else some s
      moved := true
      run := fun _ s => s.haltWave cx.sel })

/-! ## System registers (R270, R253, R273, R275) -/

/-- A trap queue record as TRAPQ shows it (R253). -/
def TrapRec.toNat (r : TrapRec) : Nat :=
  2 ^ 63 + r.refused.toNat * 2 ^ 62 + r.cause * 2 ^ 40 + r.ctx * 2 ^ 34 + r.core * 2 ^ 27 + r.wave * 2 ^ 21

/-- A read of a system register, and what it leaves. -/
def State.sysRead (s : State) (x : Sel) (r : Nat) : Nat × State :=
  let c := s.core x.ck
  let d := s.die x.die
  if r = 1 then (fmtGen, s)
  else if !x.mgmt then (0, s)
  else match r with
    | 0 => match c.trapq with
      | [] => (0, s)
      | t :: q => (t.toNat, s.setCore x.ck { c with trapq := q })
    | 2 => (d.fbovf.toNat * 2 ^ 9 + d.fbgen.toNat, s)
    | 3 => (d.fbhead.toNat, s)
    | 4 => (d.fbtail.toNat, s)
    | 5 => (c.mclog.toNat, s)
    | 6 => (c.rfault.toNat, s)
    | _ => (0, s)

/-- The flush of R275. -/
def Die.flush (d : Die) : Die := { d with fbhead := d.fbtail, fbgen := d.fbgen + 1 }

/-- A write of a system register. -/
def State.sysWrite (s : State) (x : Sel) (r v : Nat) : State :=
  if !x.mgmt then s
  else match r with
    | 2 => s.modDie x.die (fun d =>
        let d1 := if bitN v 8 then d.flush else d
        if bitN v 9 then { d1 with fbovf := false } else d1)
    | 3 => s.modDie x.die (fun d => { d with fbhead := .ofNat 32 v })
    | 6 => if bitN v 63 then s.modCore x.ck (fun c => { c with rfault := c.rfault &&& ~~~((1 : Dword) <<< 63) }) else s
    | _ => s

def execSrd (f : XF) (s : State) : Host.Outcome State Fault Refusal := issue (.srd f) f.h s (fun cx _ =>
  { run := fun ls s =>
      let r := s.sysRead cx.sel (f.e 15 0)
      cx.putNow f.d 2 ls (fun _ => r.1) r.2 })

def execSwr (f : XF) (s : State) : Host.Outcome State Fault Refusal := issue (.swr f) f.h s (fun cx s =>
  let v := cx.src s .A f.a 2 cx.F
  { run := fun _ s => s.sysWrite cx.sel (f.e 15 0) v })

/-- R273: the record of the executing management core is released. -/
def execMcack (f : XF) (s : State) : Host.Outcome State Fault Refusal := issue (.mcack f) f.h s (fun cx _ =>
  { run := fun _ s =>
      if cx.sel.mgmt then s.modCore cx.sel.ck (fun c => { c with mclog := c.mclog &&& ~~~((3 : Dword) <<< 62) }) else s })

/-! ## The window (R271) -/

/-- The offset is aligned to the size and inside the window. -/
def windowFail (o n : Nat) : Option Fail :=
  if o % n ≠ 0 then some (cALIGN, none) else if 2 ^ 24 ≤ o then some (cBOUND, none) else none

/-- A misaligned offset or one outside the window raises its cause even for a selector that names no core of the management core (log
entry 90). -/
def execWinrd (f : XF) (s : State) : Host.Outcome State Fault Refusal := issue (.winrd f) f.h s (fun cx s =>
  let o := cx.src s .A f.a 1 cx.F
  Cx.on (cx.windowCore s f.b) (fun (c : Option Nat) =>
    { lane := fun _ => windowFail o (4 * f.szN)
      run := fun ls s => match c with
        | none => cx.putNow f.d f.szN ls (fun _ => 0) s
        | some c =>
          let ck := coreKey cx.sel.die c
          let v := s.winGet ck o + (if f.szN = 2 then 2 ^ 32 * s.winGet ck (o + 4) else 0)
          cx.putNow f.d f.szN ls (fun _ => v) s }))

/-- The causes of `winrd` (log entry 90). -/
def execWinwr (f : XF) (s : State) : Host.Outcome State Fault Refusal := issue (.winwr f) f.h s (fun cx s =>
  let o := cx.src s .A f.a 1 cx.F
  let v := cx.src s .D f.d f.szN cx.F
  Cx.on (cx.windowCore s f.b) (fun (c : Option Nat) =>
    { lane := fun _ => windowFail o (4 * f.szN)
      run := fun _ s => match c with
        | none => s
        | some c =>
          let s1 := if f.szN = 2 then s.winPut cx.sel.die c (o + 4) (v / 2 ^ 32) else s
          s1.winPut cx.sel.die c o (v % 2 ^ 32) }))

/-! ## Translations and L1 lines (R272) -/

/-- Start and length are multiples of the granule. -/
def granuleFail (a len al : Nat) : Option Fail :=
  if a % al ≠ 0 ∨ len % al ≠ 0 then some (cALIGN, some (.ofNat 57 a)) else none

def execTlbinv (f : XF) (s : State) : Host.Outcome State Fault Refusal := issue (.tlbinv f) f.h s (fun cx s =>
  let all := f.e 0 0 == 1
  let a := cx.src s .A f.a 2 cx.F
  let len := cx.src s .B f.b 1 cx.F
  { lane := fun _ => if all then none else granuleFail a len 4096
    run := fun _ s => s.modCore cx.sel.ck (fun c =>
      { c with tlb := if all then [] else c.tlb.filter (fun t => !(decide (t.va < a + len) && decide (a < t.va + t.size))) }) })

/-- L1 lines hold nothing that is not held further out, and the model holds none (log entry 3). -/
def execL1inv (f : XF) (s : State) : Host.Outcome State Fault Refusal := issue (.l1inv f) f.h s (fun cx s =>
  let all := f.e 0 0 == 1
  let a := cx.src s .A f.a 2 cx.F
  let len := cx.src s .B f.b 1 cx.F
  { lane := fun _ => if all then none else granuleFail a len 64
    run := fun _ s => s })

end Sys2Proof.Machine
end

