-- ==== Sys2Proof/Machine/Copy.lean ====
section
/-!
DEFINITION. Machine/Copy.lean: the copy engine (R288 to R306): shape records, commands, delivery, stops, and the copy
instructions with `own` (R302).
-/
namespace Sys2Proof.Machine

/-! ## Shape records (R291 to R295) -/

/-- Bytes of an element of a source format (R292); none for a code that is no source format. -/
def sfmtBytes (kind c : Nat) : Option Nat :=
  if kind = 2 then (if c = 8 then some 64 else none)
  else match c with | 0 => some 1 | 1 => some 2 | 2 => some 4 | 3 => some 8 | _ => none

/-- The formats that an instruction takes, with EPB (R292). -/
def formatsOk (kind sf df epb : Nat) : Bool :=
  if kind = 2 then
    sf == 8 && ((decide (4 ≤ df) && decide (df ≤ 7) && decide (1 ≤ epb) && decide (epb ≤ 496)) || (df == 9 && epb == 0))
  else decide (sf ≤ 3) && sf == df && epb == 0

/-- A dimension record; a start coordinate from a register takes the place of COORD. -/
def dimOf (d : Nat) (coord : Option Int) : CopyDim :=
  { clo := sint32 (word32 d 0), chi := sint32 (word32 d 1), str := sint64 (bits d 127 64)
    start := coord.getD (sint32 (word32 d 4)), box := word32 d 5 }

def dimOk (d : Nat) : Bool :=
  decide ((sint64 (bits d 127 64)).natAbs < 2 ^ 56) && decide (1 ≤ word32 d 5) && decide (word32 d 5 ≤ 65536)
    && bits d 255 192 == 0

/-- NDIM of a header. -/
def ndimOf (h : Nat) : Nat := bits h 103 96

/-- The shape that a header and its dimension records give, or none where a field is invalid (code 1). -/
def shapeOf (kind h : Nat) (ds : List Nat) (coords : List Int) : Option CopyShape :=
  let sf := bits h 111 104
  let df := bits h 119 112
  let swz := bits h 121 120
  let epb := bits h 207 192
  let dims := (List.range ds.length).map (fun i => dimOf ((ds[i]?).getD 0) (coords[i]?))
  let e := (sfmtBytes kind sf).getD 1
  let u := if kind = 2 then (if df = 9 then 64 else epb * dfmtBytes df) else e
  let nb := dims.foldl (fun n d => n * d.box) u
  if bits h 63 57 == 0 && bits h 95 64 % 128 == 0 && formatsOk kind sf df epb && bits h 127 122 == 0
      && bits h 511 208 == 0 && ds.all dimOk && decide (nb ≤ 2 ^ 20) && (swz == 0 || nb % 128 == 0) then
    some { gaddr := bits h 56 0, soff := bits h 95 64, dfmt := df, swz := swz, fill := bits h 191 128, epb := epb
           e := e, u := u, nb := nb, dims := dims }
  else none

/-- Perm (R295). -/
def perm (swz x : Nat) : Nat :=
  let l := x / 128
  let m := match swz with | 0 => 0 | 1 => 1 | 2 => 3 | _ => 7
  l * 128 + Nat.xor (x / 16 % 8) (Nat.land l m) * 16 + x % 16

/-- Elements of the tile. -/
def CopyShape.count (p : CopyShape) : Nat := p.nb / p.u

/-- Element t: whether it is in bounds, and its global address (R293). -/
def CopyShape.elem (p : CopyShape) (t : Nat) : Bool × Int :=
  let r := p.dims.foldl (fun (a : Nat × Bool × Int) d =>
    let c : Int := d.start + ((a.1 % d.box : Nat) : Int)
    (a.1 / d.box, a.2.1 && decide (d.clo ≤ c) && decide (c < d.chi), a.2.2 + c * d.str)) (t, true, (p.gaddr : Int))
  (r.2.1, r.2.2)

/-! ## Element accesses (R293, R304, R306) -/

/-- A place as a number, by which an element read at issue is known again. -/
def State.locKey (s : State) : Loc → Nat
  | .phys pa => pa
  | .copy ri va => 2 ^ 64 * (2 * (s.region ri).launch + (s.region ri).die + 1) + va

/-- An in-bounds element: its place, or the stop code (R304); the range comes before the alignment (log entry 91). -/
def State.elemAt (s : State) (ag : Ag) (a : Int) (e : Nat) (need : Need) : Except (Nat × Nat) Loc :=
  if a < 0 ∨ 2 ^ 57 < a + e then .error (2, a.toNat % 2 ^ 57)
  else if a.toNat % e ≠ 0 then .error (3, a.toNat)
  else match s.locate ag a.toNat e need with
    | .cause _ => .error (2, a.toNat)
    | .nonres => .error (4, a.toNat)
    | .at_ l => .ok l

/-- What the elements of a command hold at its issue, where its loads stand in program order (R306): the place and value of each in-bounds
element that can be read then. The access itself is made as the command runs (R304, log entry 75). -/
def State.snapshot (s : State) (ag : Ag) (kind : Nat) (p : CopyShape) : List (Option (Nat × Nat)) :=
  if kind = 1 then []
  else (List.range p.count).map (fun t =>
    let el := p.elem t
    if el.1 then
      match s.elemAt ag el.2 p.e .rd with
      | .ok l => some (s.locKey l, s.readLoc ag l p.e)
      | .error _ => none
    else none)

/-- The pieces of a record are touched as its loads reach them. -/
def State.touchRecord (s : State) (ag : Ag) (sra : Nat) : State :=
  let part := fun (s : State) (a n : Nat) => match s.pieceHit ag a n .rd with
    | .ok pl => s.touchAt ag a pl
    | _ => s
  if sra % 64 ≠ 0 then s
  else
    let n := match s.pieceHit ag sra 64 .rd with | .ok pl => ndimOf (s.readAt ag pl 64) | _ => 0
    if n = 0 ∨ 14 < n then part s sra 64
    else (List.range n).foldl (fun s i => part s (sra + 64 + 32 * i) 32) (part s sra 64)

/-- A record read at issue: its shape, or the code and address that will stop the command. -/
def State.readRecord (s : State) (ag : Ag) (kind sra : Nat) (coords : List Int) (sd : Nat) : Except (Nat × Nat) CopyShape :=
  let part := fun (a n : Nat) => match s.pieceHit ag a n .rd with
    | .ok pl => Except.ok (s.readAt ag pl n)
    | .nonres _ => Except.error (4, a)
    | .fail _ => Except.error (2, a % 2 ^ 57)
  if sra % 64 ≠ 0 then .error (1, 0)
  else match part sra 64 with
    | .error e => .error e
    | .ok h =>
      let n := ndimOf h
      if n = 0 ∨ 14 < n then .error (1, 0)
      else
        let ds := (List.range n).map (fun i => part (sra + 64 + 32 * i) 32)
        match ds.findSome? (fun d => match d with | .error e => some e | .ok _ => none) with
        | some e => .error e
        | none =>
          match shapeOf kind h (ds.map (fun d => match d with | .ok v => v | .error _ => 0)) coords with
          | none => .error (1, 0)
          | some p => if sd < p.soff + p.nb then .error (7, 0) else .ok p

/-! ## Channels -/

def State.chan (s : State) (ck ch : Nat) : Chan := FMap.get {} (s.core ck).chans ch
def State.setChan (s : State) (ck ch : Nat) (c : Chan) : State :=
  s.modCore ck (fun k => { k with chans := k.chans.set {} ch c })
def State.modChan (s : State) (ck ch : Nat) (f : Chan → Chan) : State := s.setChan ck ch (f (s.chan ck ch))

/-- All commands of a channel, oldest first. -/
def Chan.cmds (c : Chan) : List CopyCmd := c.queue ++ c.entering
def Chan.map (c : Chan) (f : CopyCmd → CopyCmd) : Chan := { c with queue := c.queue.map f, entering := c.entering.map f }

/-- Another wave of the core has blocked before on the same engine queue (R288, R320); one that has not blocked on it yet stands last. -/
def State.engAhead (s : State) (x : Sel) (k : Nat) : Bool :=
  (s.residents x.ck).any (fun p =>
    decide (p.1 ≠ x.wave) && p.2.main.onEng == some k &&
    (match p.2.main.blk, (s.ctx x).blk with
      | some b, some me => (s.ctx x).onEng != some k || decide (b.age < me.age) || (b.age == me.age && decide (p.1 < x.wave))
      | some _, none => true
      | none, _ => false))

/-! ## Issue (R288 to R290) -/

/-- A command enters the tail of its channel, with its end pointer known: commands add their NB in that order. It sees what its
context stored before (R306). -/
def State.issueCopy (s0 : State) (cx : Cx) (f : XF) (kind : Nat) : State :=
  let s := s0.publish cx.sel
  let x := cx.sel
  let w := s.wave x.wk
  let ag := s.agent x
  let g := s.groupOf x
  let sra := cx.src s .A f.a 2 cx.F
  let coords := (List.range f.nc).map (fun i => sint32 (w.regN (regNum f.b + i) cx.F 1))
  let r := s.readRecord ag kind sra coords g.sd
  let c := s.chan x.ck f.ch
  let base : CopyCmd :=
    { kind := kind, wave := x.wave, gid := w.gid, at_ := s.tick, obs := w.seen
      dst := match f.d with | .v n => some n | _ => none
      bar := if f.barv then s.barAt x f.cBar f.cClu else none
      gslot := if f.gv then some f.gslot else none }
  let cmd : CopyCmd := match r with
    | .error e => { base with code := e.1, faddr := e.2 }
    | .ok p => { base with shape := p, nb := p.nb, snap := s.snapshot ag kind p }
  let e : Word := (c.cmds.filter (fun k => !k.read)).foldl (fun (a : Word) k => a + .ofNat 32 k.nb) c.ip + .ofNat 32 cmd.nb
  let s1 := (s.touchRecord ag sra).setChan x.ck f.ch { c with entering := c.entering ++ [{ cmd with e := e }] }
  let s2 := s1.bump x .cp (· + 1)
  match f.d with
  | .v n => s2.modWave x.wk (fun w =>
      let w1 := cx.act.foldl (fun (w : Wave) l => w.put s.tick n l e) w
      { w1 with engd := w1.engd ++ [n] })
  | _ => s2

def planCopy (f : XF) (kind : Nat) (cx : Cx) (s : State) : Plan :=
  { wave := if f.barv && (s.barAt cx.sel f.cBar f.cClu).isNone then some cBARRIER else none
    wait := if decide (16 ≤ (s.chan cx.sel.ck f.ch).cmds.length) || s.engAhead cx.sel f.ch then some s else none
    eng := some f.ch
    run := fun _ s => s.issueCopy cx f kind }

def execCpy (f : XF) (s : State) : Host.Outcome State Fault Refusal := issue (.cpy f) f.h s (planCopy f 0)
def execCpys (f : XF) (s : State) : Host.Outcome State Fault Refusal := issue (.cpys f) f.h s (planCopy f 1)
def execCpyd (f : XF) (s : State) : Host.Outcome State Fault Refusal := issue (.cpyd f) f.h s (planCopy f 2)

/-! ## Waiting, cancelling and status (R299 to R301) -/

def execCpywp (f : XF) (s : State) : Host.Outcome State Fault Refusal := issue (.cpywp f) f.h s (fun cx s =>
  let a : Word := .ofNat 32 (cx.src s .A f.a 1 cx.F)
  { wait := if ((s.chan cx.sel.ck f.ch).wp - a).toNat < 2 ^ 31 then none else some s
    run := fun _ s => s })

/-- The wave's commands of a channel are cancelled (R300): how many, and the state after. -/
def State.cancelCopies (s : State) (ck wave ch : Nat) : Nat × State :=
  let c := s.chan ck ch
  let n := (c.cmds.filter (fun k => decide (k.wave = wave) && !k.cancel)).length
  (n, s.setChan ck ch (c.map (fun k => if k.wave = wave then { k with cancel := true } else k)))

def execCpyx (f : XF) (s : State) : Host.Outcome State Fault Refusal := issue (.cpyx f) f.h s (fun cx s =>
  let x := cx.sel
  let c := s.cancelled cx
  let n := (s.cancelCopies x.ck x.wave f.ch).1 + c.getD 0
  let s1 := (s.cancelCopies x.ck x.wave f.ch).2.underWay cx n
  let left := (s.chan x.ck f.ch).cmds.any (fun k => decide (k.wave = x.wave))
  { wait := if left then some (if c.isSome then s1 else s1.moved) else none
    run := fun ls s => cx.putD f.d 1 ls (fun _ => c.getD 0) s })

def execCpyst (f : XF) (s : State) : Host.Outcome State Fault Refusal := issue (.cpyst f) f.h s (fun cx s =>
  let x := cx.sel
  let err := f.e 0 0 == 1
  let unread := (List.range 4).any (fun ch => (s.chan x.ck ch).cmds.any (fun k => decide (k.wave = x.wave) && !k.read))
  { wait := if !err && unread then some s else none
    run := fun ls s => cx.putD f.d 1 ls (fun _ =>
      if err then (s.wave x.wk).cperr.toNat else (s.chan x.ck f.ch).ip.toNat) s })

/-! ## Ownership (R302, R303) -/

/-- The first byte of a command's tile in its core's scratchpad. -/
def Core.tileBase (c : Core) (k : CopyCmd) : Nat := (c.group k.gid).sbase * 1024 + k.shape.soff

/-- The head is cancelled, or its guard was resolved false: it completes without a further line (R298, R300). -/
def CopyCmd.dropped (k : CopyCmd) : Bool := k.cancel || k.res == some false

/-- Some element with tile bytes in [lo, hi) is in bounds. -/
def CopyShape.inBounds (p : CopyShape) (lo hi : Nat) : Bool :=
  (List.range ((hi + p.u - 1) / p.u - lo / p.u)).any (fun i => (p.elem (lo / p.u + i)).1)

/-- A command covers the granule that starts at byte a (R303): it has tile bytes there, that it writes or reads, which WP has not
passed. A `cpys` reads no element that is out of bounds (R293). A command resolved false is discarded once it is at the head of its
channel (R298). -/
def Core.copyCovers (c : Core) (k : CopyCmd) (head : Bool) (a : Nat) : Bool :=
  let base := c.tileBase k
  let lo := max (128 * k.lines) (a - base)
  let hi := min k.nb (a + 1024 - base)
  k.code == 0 && !k.cancel && !(head && k.dropped) && decide (lo < hi) && (k.kind != 1 || k.shape.inBounds lo hi)

/-- Scratchpad ranges that a matrix item reads or writes (R323, R326, R330): offset and bytes. -/
def MxItem.ranges (m : MxItem) : List (Nat × Nat) :=
  let b := m.blk
  let M := bits b 143 128
  let N := bits b 159 144
  let K := bits b 175 160
  let fa := bits b 177 176
  let fb := bits b 185 184
  let of_ := bits b 225 224
  let out := if of_ = 0 ∨ bitN b 231 then [] else [(bits b 127 96, (if of_ = 2 then 2 else 4) * M * N)]
  match m.kind with
  | 0 =>
    (if bitN b 183 then [] else [(bits b 31 0, (if fa = 2 then 1 else 2) * M * K)])
      ++ [(bits b 63 32, if fb ≤ 1 then 2 * 64 * K
            else 8 * K * (if fb = 2 then planesRead (bits b 199 192) (bits b 207 200) (bits b 215 208 == 1) else 4))]
      ++ (if fb = 3 then [(bits b 95 64, 4 * 64 * (K / (if bits b 223 216 = 0 then 32 else 64)))] else [])
      ++ out
  | 4 => out
  | 1 | 2 => [(m.off, 32768)]
  | _ => []

/-- An item covers the granule that starts at byte a of the core's scratchpad (R333). -/
def Core.mxCovers (c : Core) (m : MxItem) (a : Nat) : Bool :=
  let base := (c.group m.gid).sbase * 1024
  m.code == 0 && !m.cancel && m.ranges.any (fun r => decide (base + r.1 < a + 1024) && decide (a < base + r.1 + r.2))

/-- Some command or item covers a granule. -/
def Core.covered (c : Core) (a : Nat) : Bool :=
  c.chans.any (fun p => (p.2.queue.take 1).any (fun k => c.copyCovers k true a)
      || (p.2.queue.drop 1 ++ p.2.entering).any (fun k => c.copyCovers k false a)) || c.mx.items.any (fun m => c.mxCovers m a)

def execOwn (f : XF) (s : State) : Host.Outcome State Fault Refusal := issue (.own f) f.h s (fun cx s =>
  let a := cx.src s .A f.a 1 cx.F
  let c := s.core cx.sel.ck
  let g := s.groupOf cx.sel
  let base := g.sbase * 1024 + a
  let grs := (List.range f.ownN).map (fun i => base + 1024 * i)
  let bad : Option Nat :=
    if a % 1024 ≠ 0 then some cALIGN
    else if g.sd < a + 1024 * f.ownN then some cBOUND
    else if !f.toEng && grs.any c.covered then some cOWNER
    else none
  { wave := if bad.isNone && f.toEng && grs.any (fun b => c.inRing b 1024) then some cQUEUE else none
    lane := fun _ => bad.map (fun b => (b, some (.ofNat 57 a)))
    whole := true
    run := fun _ s => (s.publishWave cx.sel).modCore cx.sel.ck (fun c =>
      { c.priorDrop base (base + 1024 * f.ownN) with owner := c.owner.setMany false (grs.map (fun b => (b / 1024, f.toEng))) }) })

/-! ## The engine's moves -/

/-- COPY_CHANNEL_ENTER (R288): the oldest issued command takes a place in the queue. -/
def execCopyChannelEnter (die core ch : Nat) (s : State) : Host.Outcome State Fault Refusal :=
  let ck := coreKey die core
  let c := s.chan ck ch
  .next (match c.entering with
    | k :: r => if c.queue.length < 16 then s.setChan ck ch { c with entering := r, queue := c.queue ++ [k] } else s
    | [] => s)

/-- COPY_RECORD_READ (R289): the oldest command whose record read is outstanding adds its NB to IP. -/
def execCopyRecordRead (die core ch : Nat) (s : State) : Host.Outcome State Fault Refusal :=
  let ck := coreKey die core
  let c := s.chan ck ch
  .next (match c.queue.findIdx? (fun k => !k.read) with
    | none => s
    | some i =>
      match c.queue[i]? with
      | none => s
      | some k =>
        let s1 := s.setChan ck ch { c with ip := k.e, queue := c.queue.set i { k with read := true } }
        match k.dst with
        | some n => s1.modWave (ck * 64 + k.wave) (fun w => { w with engd := w.engd.erase n })
        | none => s1)

/-- The head leaves its channel: WP becomes E and `cp` falls. -/
def State.copyOut (s : State) (ck ch : Nat) (k : CopyCmd) : State :=
  (s.modChan ck ch (fun c => { c with queue := c.queue.drop 1, wp := k.e })).modWave (ck * 64 + k.wave) (fun w =>
    { w with cp := w.cp - 1 })

/-- COPY_COMPLETE (R296): Arrive(0, NB) goes with it. -/
def State.copyDone (s : State) (ck ch : Nat) (k : CopyCmd) : State :=
  let mark := k.bar.map (fun b => (256 * b.1 + b.2, (s.bar b.1 b.2).phase))
  let s1 := (s.copyOut ck ch k).modCore ck (fun c => c.priorDone ch k.at_ mark)
  match k.bar with
  | some (bk, i) => (s1.arrive bk i 0 (.ofNat 32 k.nb) none).2
  | none => s1

/-- COPY_HEAD_START (R293, R298): the head starts, or completes where it is cancelled or discarded; a guarded command
is held until its slot is resolved. -/
def execCopyHeadStart (die core ch : Nat) (s : State) : Host.Outcome State Fault Refusal :=
  let ck := coreKey die core
  .next (match (s.chan ck ch).queue with
    | k :: r =>
      if !k.read then s
      else if k.dropped then s.copyDone ck ch k
      else if k.started || k.code != 0 || (k.gslot.isSome && k.res.isNone) then s
      else s.modChan ck ch (fun c => { c with queue := { k with started := true, born := (s.die die).watch.toNat } :: r })
    | [] => s)

/-- The tile bytes of an element that is not read: FILL (R293). -/
def CopyShape.fillBytes (p : CopyShape) (kind : Nat) : List Byte :=
  if kind = 2 then
    if p.dfmt = 9 then (List.range 8).flatMap (fun _ => toBytes 8 p.fill)
    else (List.range p.epb).flatMap (fun _ => toBytes (dfmtBytes p.dfmt) p.fill)
  else toBytes p.e p.fill

/-- The tile bytes of the value that element t of a `cpy` or `cpyd` has, or what stops the command. -/
def CopyCmd.elemBytes (k : CopyCmd) (t v : Nat) : Except (Nat × Nat) (List Byte) :=
  if k.kind = 2 then
    match blockBytes k.shape.dfmt k.shape.epb v with
    | some b => .ok b
    | none => .error (6, (k.shape.elem t).2.toNat)
  else .ok (toBytes k.shape.e v)

/-- Elements are read up to the first that fails (R293, R304): the access is checked and made now, and what the element held at issue is its
value, or what it holds now where it could not be read then (log entry 75). -/
def State.elemsIn (s : State) (ag : Ag) (k : CopyCmd) : List Nat → List (Option (Nat × Nat)) → State × List Byte × Option (Nat × Nat)
  | [], _ => (s, [], none)
  | t :: r, sn =>
    let el := k.shape.elem t
    let got : Except (Nat × Nat) (State × List Byte) :=
      if !el.1 then .ok (s, k.shape.fillBytes k.kind)
      else match s.elemAt ag el.2 k.shape.e .rd with
        | .error e => .error e
        | .ok l =>
          let v := match sn.headD none with
            | some p => p.2
            | none => s.readLoc ag l k.shape.e
          (k.elemBytes t v).map (fun b => (s.touch ag el.2.toNat l, b))
    match got with
    | .error e => (s, [], some e)
    | .ok (s1, b) =>
      let x := s1.elemsIn ag k r (sn.drop 1)
      (x.1, b ++ x.2.1, x.2.2)

/-- The scratchpad place of tile byte o (R295). -/
def Core.tileAt (c : Core) (k : CopyCmd) (o : Nat) : Nat := c.tileBase k + perm k.shape.swz o

/-- Tile bytes from offset o on are written. -/
def Core.putTile (c : Core) (k : CopyCmd) (o : Nat) (bs : List Byte) : Core :=
  { c with scratch := c.scratch.setMany 0 (((List.range bs.length).zip bs).map (fun p => (c.tileAt k (o + p.1), p.2))) }

/-- A later command of the channel reads what an earlier one writes (R306). -/
def CopyCmd.patch (key n v : Nat) (k : CopyCmd) : CopyCmd :=
  { k with snap := k.snap.map (fun p => p.map (fun e =>
      if e.1 < key + n ∧ key < e.1 + k.shape.e then
        (e.1, ofBytes ((List.range k.shape.e).map (fun i =>
          if key ≤ e.1 + i ∧ e.1 + i < key + n then .ofNat 8 (v / 2 ^ (8 * (e.1 + i - key))) else .ofNat 8 (e.2 / 2 ^ (8 * i)))))
      else e)) }

/-- In-bounds elements of a `cpys` are written at their places, up to the first that fails. -/
def State.elemsOut (s : State) (ag : Ag) (ck ch : Nat) (k : CopyCmd) : List Nat → State × Option (Nat × Nat)
  | [] => (s, none)
  | t :: r =>
    let el := k.shape.elem t
    if !el.1 then s.elemsOut ag ck ch k r
    else match s.elemAt ag el.2 k.shape.e .wr with
      | .error e => (s, some e)
      | .ok l =>
        let c := (s.core ck).view ch k.obs s.tick
        let v := ofBytes ((List.range k.shape.e).map (fun i => FMap.get 0 c.scratch (c.tileAt k (t * k.shape.u + i))))
        let s1 := (s.touch ag el.2.toNat l).writeLoc ag l k.shape.e v
        let s2 := s1.modChan ck ch (fun c => c.map (CopyCmd.patch (s.locKey l) k.shape.e v))
        s2.elemsOut ag ck ch k r

/-- What a line comes to: the state with what it wrote, the bytes left over and what the loads read for later elements,
and what stopped the command. -/
structure LineOut where
  after : State
  carry : List Byte
  snap : List (Option (Nat × Nat))
  stop : Option (Nat × Nat)

/-- The elements that the next line takes up. -/
def CopyCmd.lineElems (k : CopyCmd) : List Nat :=
  let u := k.shape.u
  let lo := 128 * k.lines
  let hi := min (lo + 128) k.nb
  (List.range ((hi + u - 1) / u - (lo + u - 1) / u)).map (fun i => (lo + u - 1) / u + i)

/-- The first element of the next line that crosses UCIe (R365): its address. -/
def State.lineCrosses (s : State) (die core : Nat) (k : CopyCmd) : Option Nat :=
  let ag := s.agent ⟨die, core, k.wave, 63⟩
  k.lineElems.findSome? (fun t =>
    let el := k.shape.elem t
    if !el.1 then none
    else match s.elemAt ag el.2 k.shape.e (if k.kind = 1 then .wr else .rd) with
      | .ok l => if s.far ag (.glob l) then some el.2.toNat else none
      | .error _ => none)

/-- One 128-byte line of the tile (R293, R296). The owner bit comes first (R304 code 5), then its elements in order. -/
def State.copyLine1 (s : State) (die core ch : Nat) (k : CopyCmd) : LineOut :=
  let ck := coreKey die core
  let c := s.core ck
  let ag := s.agent ⟨die, core, k.wave, 63⟩
  let lo := 128 * k.lines
  let hi := min (lo + 128) k.nb
  let ts := k.lineElems
  if !FMap.get false c.owner ((c.tileBase k + lo) / 1024) then ⟨s, [], [], some (5, 0)⟩
  else if k.kind = 1 then
    let r := s.elemsOut ag ck ch k ts
    ⟨r.1, [], [], r.2⟩
  else
    let r := s.elemsIn ag k ts k.snap
    let bs := k.carry ++ r.2.1
    let put := bs.take (hi - lo)
    ⟨r.1.modCore ck (fun c => (c.putTile k lo put).wrote c ch k.at_ k.wave 0 k.obs s.tick ((List.range put.length).map (fun i => c.tileAt k (lo + i)))),
      bs.drop (hi - lo), k.snap.drop ts.length, r.2.2⟩

/-- COPY_LINE_DELIVER (R296): the next line of a command in progress; the last one completes it. -/
def execCopyLineDeliver (die core ch : Nat) (s : State) : Host.Outcome State Fault Refusal :=
  let ck := coreKey die core
  .next (match (s.chan ck ch).queue with
    | k :: _ =>
      if !k.started || k.dropped then s
      else
        let r := s.copyLine1 die core ch k
        if r.stop.isSome then s
        else
          let n := min (128 * (k.lines + 1)) k.nb
          if n = k.nb then r.after.copyDone ck ch k
          else r.after.modChan ck ch (fun c => { c with
            wp := k.e - .ofNat 32 k.nb + .ofNat 32 n
            queue := (c.queue.set 0 { k with lines := k.lines + 1, carry := r.carry, snap := r.snap, born := (s.die die).watch.toNat }) })
    | [] => s)

/-- A wave learns of a stopped command or item (R304, R335): it stops at its next boundary, or stays resident with STATE
1 and FAULTPC 0 where all its lanes have exited. -/
def State.engineStop (s : State) (x : Sel) (addr : Nat) : State :=
  let w := s.wave x.wk
  if w.div.stack.isEmpty && w.parked.isNone then
    s.stop x { cause := cENGINE, pc := 0, mask := 0, async := true }
  else s.modWave x.wk (fun w => { w with pend := w.pend ++ [{ ctx := 63, cause := cENGINE, addr := addr }] })

/-- The head stops with a code at an address (R304). -/
def State.copyStopped (s : State) (ck ch : Nat) (k : CopyCmd) (e : Nat × Nat) : State :=
  let w := s.wave (ck * 64 + k.wave)
  let s1 := if e.1 = 4 then (s.post (ck / 99) (ck % 99) w.root w.ctxid 1 e.2).2 else s
  let s2 := (s1.copyOut ck ch k).modWave (ck * 64 + k.wave) (fun w =>
    { w with cperr := .ofNat 32 (2 ^ 31 + ch * 2 ^ 29 + e.1 * 2 ^ 20) })
  s2.engineStop ⟨ck / 99, ck % 99, k.wave, 63⟩ (if e.1 = 1 ∨ e.1 = 5 ∨ e.1 = 7 then 0 else e.2)

/-- COPY_STOP (R304): the head stops with the code of its record, or with what its next line meets. -/
def execCopyStop (die core ch : Nat) (s : State) : Host.Outcome State Fault Refusal :=
  let ck := coreKey die core
  let stop := fun (s : State) (k : CopyCmd) (e : Nat × Nat) => s.copyStopped ck ch k e
  .next (match (s.chan ck ch).queue with
    | k :: _ =>
      if !k.read || k.dropped then s
      else if k.code ≠ 0 then stop s k (k.code, k.faddr)
      else if !k.started then s
      else
        let r := s.copyLine1 die core ch k
        match r.stop with
        | some e => stop r.after k e
        | none => s
    | [] => s)

end Sys2Proof.Machine
end

