-- ==== Sys2Proof/Machine/Matrix.lean ====
section
/-!
DEFINITION. Machine/Matrix.lean: the matrix unit (R320 to R336): parameter blocks, jobs, operand queues, guards and
run-ahead, stops, and the matrix instructions.
-/
namespace Sys2Proof.Machine

/-! ## Parameter blocks (R322, R323, R326) -/

def MxItem.byte (m : MxItem) (i : Nat) : Nat := m.blk / 2 ^ (8 * i) % 256
def MxItem.M (m : MxItem) : Nat := bits m.blk 143 128
def MxItem.N (m : MxItem) : Nat := bits m.blk 159 144
def MxItem.K (m : MxItem) : Nat := bits m.blk 175 160
def MxItem.afmt (m : MxItem) : Nat := m.byte 22 % 4
def MxItem.bfmt (m : MxItem) : Nat := m.byte 23 % 4
def MxItem.ofmt (m : MxItem) : Nat := m.byte 28 % 4
def MxItem.gsize (m : MxItem) : Nat := if m.byte 27 = 0 then 32 else 64
def MxItem.barv (m : MxItem) : Bool := (m.kind == 0 || m.kind == 4) && bitN m.blk (8 * 33)
/-- Bytes of an output element in scratchpad. -/
def MxItem.osize (m : MxItem) : Nat := if m.ofmt = 2 then 2 else 4

/-- OB (R321). -/
def MxItem.ob (m : MxItem) : Nat :=
  if m.ofmt = 0 then 0 else if m.oq then 4 * m.M * m.N else m.osize * m.M * m.N

/-- x of the arrival (R325, R326). -/
def MxItem.arrives (m : MxItem) : Nat := if m.ofmt ≠ 0 then m.ob else 64

/-- The slot that an item opens or runs in (R328, R330). -/
def MxItem.runs (m : MxItem) : Option Nat :=
  if m.kind = 0 ∧ m.guarded then some m.gslot
  else if m.kind = 2 ∧ bitN m.eng 1 then some (bits m.eng 4 2) else none

/-- Fields that `mxgo` and `mxst` share. -/
def MxItem.outOk (m : MxItem) : Bool :=
  decide (1 ≤ m.M) && decide (m.M ≤ 64) && decide (1 ≤ m.N) && decide (m.N ≤ 64) && decide (m.byte 23 < 4)
    && bits (m.byte 28) 6 2 == 0 && bits (m.byte 33) 7 2 == 0
    && bits m.blk 127 96 % 128 == 0 && (bits m.blk 127 96 == 0 || (m.ofmt ≠ 0 && !m.oq))
    && (!bitN (m.byte 33) 1 || bitN (m.byte 33) 0)

/-- R322, R323. -/
def MxItem.goOk (m : MxItem) : Bool :=
  let bn := m.byte 24
  let bp := m.byte 25
  m.outOk
    && decide (16 ≤ m.K) && decide (m.K ≤ 4096) && m.K % 16 == 0
    && m.afmt ≠ 3 && bits (m.byte 22) 6 2 == 0
    && (if m.bfmt ≤ 1 then bn == 0 && bp == 0 else decide (1 ≤ bn) && decide (bn ≤ 8))
    && (m.bfmt ≠ 2 || (decide (1 ≤ bp) && decide (bp ≤ bn))) && (m.bfmt ≠ 3 || (bp == 4 && decide (4 ≤ bn)))
    && decide (m.byte 26 ≤ (if m.bfmt = 2 then 1 else 0)) && decide (m.byte 27 ≤ (if m.bfmt = 3 then 1 else 0))
    && decide (m.byte 29 ≤ 1) && m.byte 30 == 0 && m.byte 31 == 0
    && bits (m.byte 34) 6 3 == 0 && (m.gslot == 0 || m.guarded) && bits m.blk 511 280 == 0
    && ((m.afmt == 2) == (m.bfmt == 2)) && (m.bfmt ≠ 3 || m.K % m.gsize == 0)
    && bits m.blk 31 0 % 128 == 0 && bits m.blk 63 32 % 128 == 0 && bits m.blk 95 64 % 128 == 0
    && (!m.aq || bits m.blk 31 0 == 0) && (m.bfmt == 3 || bits m.blk 95 64 == 0)
    && (m.ofmt ≠ 0 || !m.oq) && (!m.guarded || (m.ofmt == 0 && !m.aq))

/-- R326. -/
def MxItem.stOk (m : MxItem) : Bool := m.outOk && m.byte 34 == 0 && m.byte 35 == 0 && m.barv && m.ofmt ≠ 0

/-- The operands of an item are valid (R323, R326, R330). -/
def MxItem.ok (m : MxItem) : Bool :=
  match m.kind with
  | 0 => m.goOk
  | 4 => m.stOk
  | 1 | 2 => m.off % 1024 == 0
  | _ => true

/-! ## What stops an item (R335) -/

/-- The core's unit is reserved for the matrix node of a live launch (R337). -/
def State.mxReserved (s : State) (core : Nat) : Bool :=
  s.launches.any (fun l => l.nodes.any (fun n => n.kind == 4 && decide (96 ≤ core + n.ru)))

/-- First byte of a group's scratchpad. -/
def Core.groupBase (c : Core) (gid : Nat) : Nat := (c.group gid).sbase * 1024

/-- A granule of the bytes is thread-owned. -/
def Core.threadOwned (c : Core) (a n : Nat) : Bool :=
  (List.range ((a + n - 1) / 1024 + 1 - a / 1024)).any (fun i => !FMap.get false c.owner (a / 1024 + i))

/-- An entry of the scale table (R316), group g, column j. -/
def Core.scaleAt (c : Core) (m : MxItem) (g j : Nat) : Nat :=
  c.scratchN (c.groupBase m.gid + bits m.blk 95 64 + 4 * (64 * g + j)) 4

/-- A reserved bit of the scale table is not 0. -/
def Core.badScales (c : Core) (m : MxItem) : Bool :=
  m.kind == 0 && m.bfmt == 3 &&
    (List.range (m.K / m.gsize)).any (fun g => (List.range 64).any (fun j => c.scaleAt m g j / 2 ^ 20 ≠ 0))

/-- The valid record of a direction: 1 `tomx`, 2 `frommx`. -/
def Core.dirRec (c : Core) (dir : Nat) : Option Nat :=
  (List.find? (fun (p : Nat × QRec) => p.2.valid && decide (p.2.dir = dir)) c.queues).map Prod.fst

/-- The ranges that the unit has reached (R333): an output tile only once the job has run. -/
def MxItem.reached (m : MxItem) : List (Nat × Nat) :=
  if m.phase ≠ 0 then m.ranges
  else match m.kind with
    | 0 => if m.ofmt = 0 ∨ m.oq then m.ranges else m.ranges.dropLast
    | 4 => []
    | _ => m.ranges

/-- The stop code that an item meets now (R335), if any. -/
def State.mxCode (s : State) (core ck : Nat) (m : MxItem) : Option Nat :=
  let c := s.core ck
  let base := c.groupBase m.gid
  if m.kind = 5 then none
  else if s.mxReserved core then some 6
  else if !m.ok then some 1
  else if s.cdie.stage = 2 ∧ m.kind = 0 ∧ (m.afmt ≠ 0 ∨ m.bfmt ≠ 0) then some 1
  else if m.ranges.any (fun r => decide ((c.group m.gid).sd < r.1 + r.2)) then some 2
  else if m.reached.any (fun r => c.threadOwned (base + r.1) r.2) then some 3
  else if (c.view 4 m.obs s.tick).badScales m then some 4
  else if (m.aq && (c.dirRec 1).isNone) || (m.oq && (c.dirRec 2).isNone) then some 5
  else none

/-! ## Accumulation (R314 to R317) -/

/-- A(i, k): from the tile, or from the popped elements (latest first). -/
def Core.mxA (c : Core) (m : MxItem) (i k : Nat) : Nat :=
  let e := if m.afmt = 2 then 1 else 2
  let x := m.K * i + k
  if m.aq then (m.got.reverse.getD x 0).toNat % 2 ^ (8 * e)
  else c.scratchN (c.groupBase m.gid + bits m.blk 31 0 + e * x) e

/-- Plane bit p of element (k, j) (R312). -/
def Core.mxPlane (c : Core) (m : MxItem) (k j p : Nat) : Bool :=
  bitN (c.scratchN (c.groupBase m.gid + bits m.blk 63 32 + 8 * m.K * p + 8 * k) 8) j

/-- A value of A or of W on the float path. -/
def floatOf (fmt x : Nat) : FV := if fmt = 1 then F16.val false x else BF16.val false x

/-- W(k, j) on the float path (R315, R317). -/
def Core.mxW (c : Core) (m : MxItem) (k j : Nat) : FV :=
  if m.bfmt = 3 then
    let q := planeValue (m.byte 24) 4 false (c.mxPlane m k j)
    let t := c.scaleAt m (k / m.gsize) j
    let z : Int := if bits t 19 16 < 8 then bits t 19 16 else (bits t 19 16 : Int) - 16
    BF16.val false (prologue q z (t % 65536))
  else floatOf m.bfmt (c.scratchN (c.groupBase m.gid + bits m.blk 63 32 + 2 * (64 * k + j)) 2)

/-- One element after g aligned groups: the accumulator and OVF. -/
def Core.mxElem (c : Core) (m : MxItem) (i j g : Nat) (acc : Dword) : Dword × Bool :=
  if m.bfmt = 2 then
    let r := (List.range (16 * g)).foldl (fun (a : Int × Bool) k =>
      let x := c.mxA m i k
      let w := planeValue (m.byte 24) (m.byte 25) (m.byte 26 == 1) (c.mxPlane m k j)
      let p := accInt a.1 ((if x < 128 then (x : Int) else (x : Int) - 256) * w)
      (p.1, a.2 || p.2)) (acc.toInt, false)
    (dwordOf r.1, r.2)
  else
    (.ofNat 64 ((List.range g).foldl (fun a t =>
      accFloat a (groupSum ((List.range 16).map (fun k => (floatOf m.afmt (c.mxA m i (16 * t + k)), c.mxW m (16 * t + k) j)))))
      acc.toNat), false)

/-- Elements (i, j) with i < M and j < N. -/
def MxItem.elems (m : MxItem) : List (Nat × Nat) :=
  (List.range m.M).flatMap (fun i => (List.range m.N).map (fun j => (i, j)))

/-- The job accumulates g aligned groups into its set. -/
def Core.mxRun (c : Core) (m : MxItem) (g : Nat) : Core :=
  let set := if m.guarded then c.mx.shad else c.mx.live
  let r := m.elems.foldl (fun (a : FMap Dword × Bool) e =>
    let v := c.mxElem m e.1 e.2 g (FMap.get 0 set (64 * e.1 + e.2))
    (a.1.set 0 (64 * e.1 + e.2) v.1, a.2 || v.2)) (set, false)
  if m.guarded then { c with mx := { c.mx with shad := r.1, ovfs := c.mx.ovfs || r.2 } }
  else { c with mx := { c.mx with live := r.1, ovfl := c.mx.ovfl || r.2 } }

/-- As `mxRun`, on the bytes that the job reads (R16). -/
def Core.mxRunAt (c : Core) (tick : Nat) (m : MxItem) (g : Nat) : Core :=
  { (c.view 4 m.obs tick).mxRun m g with scratch := c.scratch }

/-- ZERO (R322). -/
def Core.mxZero (c : Core) (m : MxItem) : Core :=
  if m.kind = 0 ∧ bitN m.blk (8 * 29) then
    let z := fun (set : FMap Dword) => set.setMany 0 (m.elems.map (fun e => (64 * e.1 + e.2, (0 : Dword))))
    if m.guarded then { c with mx := { c.mx with shad := z c.mx.shad } }
    else { c with mx := { c.mx with live := z c.mx.live } }
  else c

/-- An output element (R319): `mxst` reads the path from BFMT. -/
def Core.mxOut (c : Core) (m : MxItem) (i j : Nat) : Nat :=
  outConvert m.ofmt (m.bfmt == 2) (FMap.get 0 c.mx.live (64 * i + j)).toNat

/-- The output tile is written to scratchpad. -/
def Core.mxTile (c : Core) (m : MxItem) : Core :=
  if m.ofmt = 0 ∨ m.oq then c
  else m.elems.foldl (fun (d : Core) e =>
    d.setScratchN (c.groupBase m.gid + bits m.blk 127 96 + m.osize * (m.N * e.1 + e.2)) m.osize (c.mxOut m e.1 e.2)) c

/-- What an item writes from an offset on is on its record (R16). -/
def Core.mxWrote (c c0 : Core) (tick : Nat) (m : MxItem) (off n : Nat) : Core :=
  c.wrote c0 4 m.at_ m.wave m.no m.obs tick ((List.range n).map (fun i => c0.groupBase m.gid + off + i))

/-- As `mxTile`, with R16. -/
def Core.mxTileAt (c : Core) (tick : Nat) (m : MxItem) : Core :=
  (c.mxTile m).mxWrote c tick m (bits m.blk 127 96) (if m.ofmt = 0 ∨ m.oq then 0 else m.osize * m.M * m.N)

/-! ## Images (R330) -/

/-- `mxrd`. -/
def Core.mxImage (c : Core) (m : MxItem) : Core :=
  let set := if bitN m.eng 0 then c.mx.shad else c.mx.live
  (List.range 4096).foldl (fun (d : Core) x =>
    d.setScratchN (c.groupBase m.gid + m.off + 8 * x) 8 (FMap.get 0 set x).toNat) c

/-- `mxwr`. -/
def Core.mxLoad (c : Core) (m : MxItem) : Core :=
  let set : FMap Dword := FMap.setMany 0 [] ((List.range 4096).map (fun x =>
    (x, .ofNat 64 (c.scratchN (c.groupBase m.gid + m.off + 8 * x) 8))))
  let ovf := bitN m.eng 5
  if bitN m.eng 0 then
    { c with mx := { c.mx with shad := set, ovfs := ovf, slot := if bitN m.eng 1 then some (m.wave, bits m.eng 4 2) else c.mx.slot } }
  else { c with mx := { c.mx with live := set, ovfl := ovf } }

/-- `mxclr` (R326). -/
def Core.mxClear (c : Core) (m : MxItem) : Core :=
  if bitN m.eng 0 then { c with mx := { c.mx with shad := [], ovfs := false } }
  else { c with mx := { c.mx with live := [], ovfl := false } }

/-! ## The queue (R320) -/

def State.modMx (s : State) (ck : Nat) (f : Mx → Mx) : State := s.modCore ck (fun c => { c with mx := f c.mx })

/-- The head: the first item that is no resolution, with its place. -/
def Mx.head (m : Mx) : Option (Nat × MxItem) :=
  match m.queue.findIdx? (fun i => i.kind != 5) with
  | some k => (m.queue[k]?).map (fun i => (k, i))
  | none => none

/-- A resolution of the same wave stands ahead of the item at place k (R334). -/
def Mx.held (m : Mx) (k wave : Nat) : Bool := (m.queue.take k).any (fun i => i.kind == 5 && decide (i.wave = wave))

def MxItem.counted (m : MxItem) : Bool := decide (m.kind ≤ 2)

/-- `mx` of the item's wave falls. -/
def State.mxFalls (s : State) (ck : Nat) (m : MxItem) : State :=
  if m.counted then s.modWave (ck * 64 + m.wave) (fun w => { w with mx := w.mx - 1 }) else s

/-- The arrival of an item (R325). -/
def State.mxArrive (s : State) (m : MxItem) : State :=
  match m.bar with
  | some (bk, i) => (s.arrive bk i 0 (.ofNat 32 m.arrives) none).2
  | none => s

/-- The item at place k leaves the queue and completes. -/
def State.mxDone (s : State) (ck k : Nat) (m : MxItem) : State :=
  let mark := m.bar.map (fun b => (256 * b.1 + b.2, (s.bar b.1 b.2).phase))
  (((s.modMx ck (fun x => { x with queue := x.queue.eraseIdx k })).modCore ck (fun c => c.priorDone 4 m.at_ mark)).mxFalls ck m).mxArrive m

/-- An item is issued (R320): it joins the items that wait to enter the queue. -/
def State.mxIssue (s : State) (cx : Cx) (m : MxItem) : State :=
  let x := cx.sel
  let w := s.wave x.wk
  let m := { m with wave := x.wave, gid := w.gid, at_ := s.tick, obs := w.seen, no := if m.counted then w.mxNo + 1 else 0 }
  let s1 := s.modCore x.ck (fun c =>
    let c1 : Core := { c with mx := { c.mx with entering := c.mx.entering ++ [m] } }
    if m.oq then { c1 with queues := c1.queues.map (fun p => if p.2.dir = 2 then (p.1, { p.2 with closed := false }) else p) }
    else c1)
  if m.counted then (s1.bump x .mx (· + 1)).modWave x.wk (fun w => { w with mxNo := w.mxNo + 1 }) else s1

/-- The unit has no room for another item. -/
def State.mxFull (s : State) (ck : Nat) : Bool :=
  decide (8 ≤ ((s.core ck).mx.items.filter (fun i => i.kind != 5)).length)

/-- A plan that takes one entry of the job queue. -/
def planMx (m : MxItem) (bar : Bool) (at_ : Option (Nat × Nat)) (cx : Cx) (s : State) : Plan :=
  { wave := if bar && at_.isNone then some cBARRIER else none
    wait := if s.mxFull cx.sel.ck || s.engAhead cx.sel 4 then some s else none
    eng := some 4
    run := fun _ s => s.mxIssue cx { m with bar := if bar then at_ else none } }

/-- An item with a parameter block (R322). -/
def planBlock (kind : Nat) (f : XF) (cx : Cx) (s : State) : Plan :=
  let m : MxItem := { kind := kind, wave := 0, gid := 0, at_ := 0, blk := cx.src s .A f.a 16 cx.F }
  planMx m m.barv (s.barAt cx.sel (m.byte 32) (bitN (m.byte 33) 1)) cx s

def execMxgo (f : XF) (s : State) : Host.Outcome State Fault Refusal := issue (.mxgo f) f.h s (planBlock 0 f)
def execMxst (f : XF) (s : State) : Host.Outcome State Fault Refusal := issue (.mxst f) f.h s (planBlock 4 f)

def execMxrd (f : XF) (s : State) : Host.Outcome State Fault Refusal := issue (.mxrd f) f.h s (fun cx s =>
  planMx { kind := 1, wave := 0, gid := 0, at_ := 0, off := cx.src s .A f.a 1 cx.F, eng := f.eng.toNat } false none cx s)
def execMxwr (f : XF) (s : State) : Host.Outcome State Fault Refusal := issue (.mxwr f) f.h s (fun cx s =>
  planMx { kind := 2, wave := 0, gid := 0, at_ := 0, off := cx.src s .A f.a 1 cx.F, eng := f.eng.toNat } false none cx s)
def execMxclr (f : XF) (s : State) : Host.Outcome State Fault Refusal := issue (.mxclr f) f.h s (fun cx s =>
  planMx { kind := 3, wave := 0, gid := 0, at_ := 0, eng := f.eng.toNat } false none cx s)

/-- R329: a resolution never blocks. -/
def execMxgrd (f : XF) (s : State) : Host.Outcome State Fault Refusal := issue (.mxgrd f) f.h s (fun cx s =>
  let c := cx.src s .A f.a 1 cx.F % 2
  { run := fun _ s => s.mxIssue cx { kind := 5, wave := 0, gid := 0, at_ := 0, off := f.e 2 0, eng := c } })

/-- An item or a resolution of the wave is left. -/
def State.mxLeft (s : State) (ck wave : Nat) : Bool := (s.core ck).mx.items.any (fun i => decide (i.wave = wave))

/-- The status word of R331. -/
def State.mxStatus (s : State) (x : Sel) : Nat :=
  let m := (s.core x.ck).mx
  let w := s.wave x.wk
  w.mxerr.toNat * 2 ^ 31 + w.mxcode * 2 ^ 24 + (m.slot.getD (0, 0)).1 * 2 ^ 18 + (m.slot.getD (0, 0)).2 * 2 ^ 15
    + m.slot.isSome.toNat * 2 ^ 14 + m.ovfs.toNat * 2 + m.ovfl.toNat

def execMxovf (f : XF) (s : State) : Host.Outcome State Fault Refusal := issue (.mxovf f) f.h s (fun cx s =>
  { wait := if s.mxLeft cx.sel.ck cx.sel.wave then some s else none
    run := fun ls s =>
      let s1 := cx.putD f.d 1 ls (fun _ => s.mxStatus cx.sel) s
      if f.e 0 0 = 1 then s1.modMx cx.sel.ck (fun m => { m with ovfl := false, ovfs := false }) else s1 })

/-- The wave's items are cancelled (R332): how many, and the state after. -/
def State.cancelMx (s : State) (ck wave : Nat) : Nat × State :=
  let mine := fun (i : MxItem) => decide (i.wave = wave) && i.kind != 5
  let off := fun (i : MxItem) => if mine i then { i with cancel := true } else i
  (((s.core ck).mx.items.filter (fun i => mine i && !i.cancel)).length,
    s.modMx ck (fun m => { m with queue := m.queue.map off, entering := m.entering.map off }))

def execMxcan (f : XF) (s : State) : Host.Outcome State Fault Refusal := issue (.mxcan f) f.h s (fun cx s =>
  let x := cx.sel
  let c := s.cancelled cx
  let n := (s.cancelMx x.ck x.wave).1 + c.getD 0
  let s1 := (s.cancelMx x.ck x.wave).2.underWay cx n
  let left := (s.core x.ck).mx.items.any (fun i => decide (i.wave = x.wave) && i.kind != 5)
  { wait := if left then some (if c.isSome then s1 else s1.moved) else none
    run := fun ls s => cx.putD f.d 1 ls (fun _ => c.getD 0) s })

/-! ## The unit's moves -/

/-- MX_QUEUE_ENTER (R320): the oldest issued item enters the queue, a resolution without taking an entry. -/
def execMxQueueEnter (die core : Nat) (s : State) : Host.Outcome State Fault Refusal :=
  .next (s.modMx (coreKey die core) (fun m => match m.entering with
    | i :: r =>
      if i.kind = 5 ∨ (m.queue.filter (fun i => i.kind != 5)).length < 8 then { m with entering := r, queue := m.queue ++ [i] }
      else m
    | [] => m))

/-- An item waits at the head while a slot is open (R328). -/
def Mx.waits (m : Mx) (i : MxItem) : Bool :=
  match m.slot with
  | none => false
  | some p => match i.kind with
    | 0 => if i.guarded then p != (i.wave, i.gslot) else true
    | 2 | 3 => true
    | _ => false

/-- The unit opens the shadow set for a guarded job: it copies the live set (R328). -/
def Core.mxOpen (c : Core) (m : MxItem) : Core :=
  if m.kind = 0 ∧ m.guarded ∧ c.mx.slot.isNone then
    { c with mx := { c.mx with shad := c.mx.live, ovfs := c.mx.ovfl, slot := some (m.wave, m.gslot) } }
  else c

/-- MX_ITEM_START (R328): the head starts; a cancelled one that has not started completes. -/
def execMxItemStart (die core : Nat) (s : State) : Host.Outcome State Fault Refusal :=
  let ck := coreKey die core
  let m := (s.core ck).mx
  .next (match m.head with
    | none => s
    | some (k, i) =>
      if i.phase ≠ 0 ∨ m.held k i.wave then s
      else if i.cancel then s.mxDone ck k i
      else if (s.mxCode core ck i).isSome || m.waits i then s
      else s.modCore ck (fun c =>
        let c1 := (c.mxOpen i).mxZero i
        { c1 with mx := { c1.mx with queue := c1.mx.queue.set k { i with phase := 1 } } }))

/-- The A elements that an AQ job still has to pop. -/
def MxItem.wants (m : MxItem) : Bool := m.aq && decide (m.got.length < m.M * m.K)

/-- The item has done its arithmetic: the job is in its set, and output elements may be pushed. -/
def Core.mxSettle (c : Core) (tick k : Nat) (m : MxItem) : Core :=
  let c1 := if m.kind = 0 ∧ m.phase = 1 then c.mxRunAt tick m (m.K / 16) else c
  { c1 with mx := { c1.mx with queue := c1.mx.queue.set k { m with phase := 2 } } }

/-- MX_QUEUE_ELEMENT (R327, R206): the running item pops its next A element, or pushes its next output element. -/
def execMxQueueElement (die core : Nat) (s : State) : Host.Outcome State Fault Refusal :=
  let ck := coreKey die core
  .next (match (s.core ck).mx.head with
    | none => s
    | some (k, i) =>
      if i.phase = 0 ∨ i.cancel ∨ (s.mxCode core ck i).isSome then s
      else s.modCore ck (fun c =>
        if i.wants then
          match c.dirRec 1 with
          | none => c
          | some q =>
            let r := FMap.get ({} : QRec) c.queues q
            if r.count = 0 ∧ 1 ≤ r.pcnt then c
            else
              let p := c.pop q
              { p.2 with mx := { p.2.mx with queue := p.2.mx.queue.set k { i with got := p.1 :: i.got } } }
        else if i.oq && decide (i.pushed < i.M * i.N) then
          match c.dirRec 2 with
          | none => c
          | some q =>
            let r := FMap.get ({} : QRec) c.queues q
            if r.depth ≤ r.count + r.resv then c
            else
              let c1 := c.mxSettle s.tick k i
              let c2 := c1.push q (.ofNat 32 (c1.mxOut i (i.pushed / i.N) (i.pushed % i.N)))
              { c2 with mx := { c2.mx with queue := c2.mx.queue.set k { i with phase := 2, pushed := i.pushed + 1 } } }
        else c))

/-- What an item does at its end. -/
def Core.mxFinish (c : Core) (tick : Nat) (m : MxItem) : Core :=
  match m.kind with
  | 0 => (if m.phase = 1 then c.mxRunAt tick m (m.K / 16) else c).mxTileAt tick m
  | 1 => (c.mxImage m).mxWrote c tick m m.off 32768
  | 2 => { (c.view 4 m.obs tick).mxLoad m with scratch := c.scratch }
  | 3 => c.mxClear m
  | _ => c.mxTileAt tick m

/-- Groups that a job stopped part way has accumulated (R329, R332): any number, but none without its A elements. -/
def State.mxGroups (s : State) (m : MxItem) : Nat :=
  if m.wants then 0 else Config.pick s.tick 332 % (m.K / 16 + 1)

/-- A job in its run stops after some group (R332); one that has done its arithmetic has accumulated every group. -/
def State.mxCut (s : State) (ck : Nat) (m : MxItem) : State :=
  if m.kind = 0 ∧ m.phase = 1 then s.modCore ck (fun c => c.mxRunAt s.tick m (s.mxGroups m)) else s

/-- MX_JOB_COMPLETE (R325, R328, R330, R332): the running item ends; a guarded job keeps its arrival. -/
def execMxJobComplete (die core : Nat) (s : State) : Host.Outcome State Fault Refusal :=
  let ck := coreKey die core
  .next (match (s.core ck).mx.head with
    | none => s
    | some (k, i) =>
      if i.phase = 0 then s
      else if i.cancel then (s.mxCut ck i).mxDone ck k i
      else if (s.mxCode core ck i).isSome || i.wants || (i.oq && decide (i.pushed < i.M * i.N)) then s
      else
        let s1 := s.modCore ck (fun c => c.mxFinish s.tick i)
        if i.kind = 0 ∧ i.guarded then
          (s1.modMx ck (fun m => { m with queue := m.queue.eraseIdx k, done := m.done ++ [i] })).mxFalls ck i
        else s1.mxDone ck k i)

/-- Guarded jobs of a slot whose run has ended make their arrivals. -/
def State.mxRelease (s : State) (ck wave g : Nat) : State :=
  let mine := fun (i : MxItem) => decide (i.wave = wave) && decide (i.gslot = g)
  let js := (s.core ck).mx.done.filter mine
  let s1 := s.modMx ck (fun m => { m with
    done := m.done.filter (fun i => !mine i), slot := if m.slot = some (wave, g) then none else m.slot })
  js.foldl (fun s i => s.mxArrive i) s1

/-- Every slot of a wave that has no lane left resolves false (R336). -/
def State.mxOrphan (s : State) (ck wave : Nat) : State :=
  (List.range 8).foldl (fun s g => s.mxRelease ck wave g) s

/-- Copy commands held on the slot since before the resolution are released (R298). -/
def CopyCmd.resolve (wave g at_ : Nat) (v : Bool) (k : CopyCmd) : CopyCmd :=
  if k.wave = wave ∧ k.gslot = some g ∧ k.res = none ∧ k.at_ < at_ then { k with res := some v } else k

def State.mxFreeCopies (s : State) (ck wave g at_ : Nat) (v : Bool) : State :=
  s.modCore ck (fun c => { c with chans := c.chans.map (fun p => (p.1, p.2.map (CopyCmd.resolve wave g at_ v))) })

/-- A guarded job ahead of a false resolution is ended (R329, R336). -/
def State.mxEnd (s : State) (ck : Nat) (i : MxItem) : State := (((s.mxCut ck i).mxFalls ck i)).mxArrive i

/-- The resolution at place k takes effect (R329). -/
def State.mxResolve (s : State) (ck k : Nat) (r : MxItem) : State :=
  if r.eng = 2 then (s.modMx ck (fun m => { m with queue := m.queue.eraseIdx k })).mxOrphan ck r.wave
  else
  let v := r.eng == 1
  let mine := fun (i : MxItem) => decide (i.wave = r.wave) && i.kind == 0 && i.guarded && decide (i.gslot = r.off)
  let ahead := (s.core ck).mx.queue.take k
  let gone := ahead.filter mine
  let s1 := s.modMx ck (fun m => { m with queue := (m.queue.take k).filter (fun i => !mine i) ++ m.queue.drop (k + 1) })
  let s2 := if v && (s1.core ck).mx.slot == some (r.wave, r.off) then
      s1.modMx ck (fun m => { m with live := m.shad, shad := m.live, ovfl := m.ovfs, ovfs := m.ovfl })
    else s1
  let s3 := gone.foldl (fun s i => s.mxEnd ck i) s2
  (s3.mxRelease ck r.wave r.off).mxFreeCopies ck r.wave r.off r.at_ v

/-- The resolution may take effect: no earlier item of its wave is left, guarded jobs of its slot apart where it is
false; that of a wave without lanes waits for nothing (R336). -/
def Mx.resolvable (m : Mx) (k : Nat) (r : MxItem) : Bool :=
  r.kind == 5 && (r.eng == 2 || !(m.queue.take k).any (fun i => decide (i.wave = r.wave) &&
    !(r.eng == 0 && i.kind == 0 && i.guarded && decide (i.gslot = r.off))))

/-- MX_RESOLUTION (R329): the first resolution that may take effect does. -/
def execMxResolution (die core : Nat) (s : State) : Host.Outcome State Fault Refusal :=
  let ck := coreKey die core
  let m := (s.core ck).mx
  .next (match (List.range m.queue.length).findSome? (fun k => match m.queue[k]? with
      | some r => if m.resolvable k r then some (k, r) else none
      | none => none) with
    | some (k, r) => s.mxResolve ck k r
    | none => s)

/-- MX_ITEM_STOP (R335): the head stops with its code, unless it waits for a slot (R328); a job that has run has
accumulated, and a guarded job discards the run of its slot. -/
def execMxItemStop (die core : Nat) (s : State) : Host.Outcome State Fault Refusal :=
  let ck := coreKey die core
  let m := (s.core ck).mx
  .next (match m.head with
    | none => s
    | some (k, i) =>
      match s.mxCode core ck i with
      | none => s
      | some c =>
        if i.cancel ∨ m.held k i.wave ∨ (i.phase = 0 ∧ m.waits i) then s
        else
          let s0 := if i.kind = 0 ∧ i.phase = 1 ∧ !i.wants then s.modCore ck (fun c => c.mxRunAt s.tick i (i.K / 16)) else s
          let s1 := ((s0.modMx ck (fun m => { m with queue := m.queue.eraseIdx k })).mxFalls ck i).modWave (ck * 64 + i.wave)
            (fun w => { w with mxerr := true, mxcode := c })
          let s2 := if i.kind = 0 ∧ i.guarded then s1.mxRelease ck i.wave i.gslot else s1
          s2.engineStop ⟨die, core, i.wave, 63⟩ 0)

end Sys2Proof.Machine
end

