-- ==== Sys2Proof/Machine/Launch.lean ====
section
/-!
DEFINITION. Machine/Launch.lean: launches and their queues (R389), the room and the reservations of records (R396), the
closure of a node's inflow (R390), and what a launch still holds (R401, R402).
-/
namespace Sys2Proof.Machine

/-! ## Launches by sequence number -/

def State.launch? (s : State) (q : Nat) : Option Launch := s.launches.find? (fun l => decide (l.seq = q))
def State.launch (s : State) (q : Nat) : Launch := (s.launch? q).getD {}
def State.modLaunch (s : State) (q : Nat) (f : Launch → Launch) : State :=
  { s with launches := s.launches.map (fun l => if l.seq = q then f l else l) }

def Launch.node (l : Launch) (n : Nat) : Node := (l.nodes[n]?).getD {}
def Launch.queue (l : Launch) (n die : Nat) : List Rcd := FMap.get [] l.queues (2 * n + die)
def Launch.setQueue (l : Launch) (n die : Nat) (q : List Rcd) : Launch := { l with queues := l.queues.set [] (2 * n + die) q }
/-- Out-edge e of a node. -/
def Node.edge (n : Node) (e : Nat) : Option Edge := (n.edges[e]?).getD none

/-! ## Waves and rays of a launch -/

/-- Every wave, those in shadow storage among them (R278), with its die. -/
def State.everyWave (s : State) : List (Nat × Wave) :=
  ((s.waves ++ s.shadows.flatMap (fun h => h.waves)).filter (fun p => p.2.valid)).map (fun p => (p.1 / 64 / 99, p.2))

def State.wavesOf (s : State) (q : Nat) : List (Nat × Wave) :=
  s.everyWave.filter (fun p => p.2.funel.launch == some q)

/-- Rays in flight of a launch, with the die of their unit. -/
def State.raysOf (s : State) (q : Nat) : List (Nat × Ray) :=
  s.rays.flatMap (fun p => (p.2.units.flatMap (fun u => u.2.filter (fun r => decide (r.launch = q)))).map (fun r => (p.1, r)))

/-- The lanes of a wave that have not exited: of its main context, or of the state that a redirect parked. -/
def Wave.liveLanes (w : Wave) : Mask := liveMask w.div.stack ||| (match w.parked with | some d => liveMask d.stack | none => 0)

/-! ## Room and reservations (R396) -/

/-- What waves, saved waves and rays of a launch hold reserved on a die: node, edge, records in queue room, in spill. -/
def State.reserved (s : State) (q : Nat) : List (Nat × Nat × Nat × Nat × Nat) :=
  let of_ := fun (die node : Nat) (rq rs : FMap Nat) =>
    (List.range 8).map (fun e => (die, node, e, FMap.get 0 rq e, FMap.get 0 rs e))
  (s.wavesOf q).flatMap (fun p => of_ p.1 p.2.funel.node p.2.funel.resq p.2.funel.ress)
    ++ (s.saved.filter (fun v => decide (v.launch = q))).flatMap (fun v => of_ v.die v.funel.node v.funel.resq v.funel.ress)
    ++ (s.raysOf q).flatMap (fun p => of_ p.1 p.2.node p.2.resq p.2.ress)

/-- The target of a node's edge. -/
def Launch.target (l : Launch) (n e : Nat) : Option Nat := ((l.node n).edge e).map (fun d => d.tgt)

/-- Free room of a sub-queue: QCAP less its records, the spilled ones among them (R389), and its reservations; a record that a
ray unit holds keeps its room (R436). -/
def State.roomOf (s : State) (l : Launch) (t die : Nat) : Nat :=
  let recs := (l.queue t die).length
  let held := ((s.raysOf l.seq).filter (fun p => decide (p.2.node = t) && decide (p.2.home = die))).length
  let res := ((s.reserved l.seq).filter (fun r => decide (r.1 = die) && l.target r.2.1 r.2.2.1 == some t)).foldl
    (fun n r => n + r.2.2.2.1) 0
  (l.node t).qcap - (recs + held + res)

/-- Bytes kept for self-edge reservations. -/
def Launch.selfShare (l : Launch) : Nat :=
  (List.range l.nodes.length).foldl (fun v n =>
    (List.range 8).foldl (fun v e => match (l.node n).edge e with
      | some d => if d.tgt = n then v + (l.node n).b * d.e * (l.node n).rsz else v
      | none => v) v) 0

/-- Bytes of the spill area in use: by records and reservations of self-edges, and by all others. -/
def State.spillUse (s : State) (l : Launch) : Nat × Nat :=
  let recs := (List.range l.nodes.length).flatMap (fun n =>
    ((l.queue n 0 ++ l.queue n 1).filter (fun r => r.spilled)).map (fun r => (decide (0 < r.self), (l.node n).rsz)))
  let rays := ((s.raysOf l.seq).filter (fun p => p.2.rcd.spilled)).map (fun p => (false, (l.node p.2.node).rsz))
  let res := (s.reserved l.seq).filterMap (fun r => (l.target r.2.1 r.2.2.1).map (fun t =>
    (decide (t = r.2.1), (l.node t).rsz * r.2.2.2.2)))
  (recs ++ rays ++ res).foldl (fun u x => if x.1 then (u.1 + x.2, u.2) else (u.1, u.2 + x.2)) (0, 0)

/-- Free bytes of the spill area, for a self-edge or for another. -/
def State.spillFree (s : State) (l : Launch) (self : Bool) : Nat :=
  let u := s.spillUse l
  if self then l.spillsz - (u.1 + u.2) else l.spillsz - (l.selfShare + u.2 + (u.1 - l.selfShare))

/-- Bytes of the spill area that a group of m full waves of a node needs beyond the whole QCAP of its targets, by its self-edge or by its other
edges. -/
def Launch.spillNeed (l : Launch) (nd m : Nat) (self : Bool) : Nat :=
  let n := l.node nd
  ((List.range l.nodes.length).filter (fun t => (t == nd) == self)).foldl (fun v t =>
    let fan := (List.range 8).foldl (fun a e => match n.edge e with | some d => if d.tgt = t then a + d.e else a | none => a) 0
    v + (m * n.b * fan - (l.node t).qcap) * (l.node t).rsz) 0

/-- R396 can be met for m full waves of a node once its targets are empty. -/
def Launch.reservable (l : Launch) (nd m : Nat) : Bool :=
  decide (l.spillNeed nd m false ≤ l.spillsz - l.selfShare) && decide (l.spillNeed nd m true + l.spillNeed nd m false ≤ l.spillsz)

/-- Waves of a node's group: GWAVES, or as many as R396 can ever admit, so that the launch completes (R398; log entry 30). -/
def Launch.maxWaves (l : Launch) (nd : Nat) : Nat :=
  (((List.range (l.node nd).gwaves).map (· + 1)).reverse.find? (l.reservable nd)).getD 1

/-- The reservation of a group of `lanes` lanes on one edge: records in queue room and in spill, or none. -/
def State.reserve1 (s : State) (l : Launch) (n die lanes e : Nat) : Option (Nat × Nat) :=
  match (l.node n).edge e with
  | none => some (0, 0)
  | some d =>
    let want := lanes * d.e
    let k := min want (s.roomOf l d.tgt die)
    if (want - k) * (l.node d.tgt).rsz ≤ s.spillFree l (d.tgt == n) then some (k, want - k) else none

/-- The reservations of a group edge by edge; two edges to one target share its room. -/
def State.reserve (s : State) (l : Launch) (n die lanes : Nat) : Option (List (Nat × Nat)) :=
  let r := (List.range 8).foldl (fun (a : Option (List (Nat × Nat) × State)) e =>
    match a with
    | none => none
    | some (out, s') =>
      match s'.reserve1 l n die lanes e with
      | none => none
      | some p =>
        let f : FunelWave := { launch := some l.seq, node := n, resq := FMap.set 0 [] e p.1, ress := FMap.set 0 [] e p.2 }
        some (out ++ [p], { s' with saved := s'.saved ++ [⟨l.seq, die, 0, 0, 0, 0, f⟩] })) (some ([], s))
  r.map Prod.fst

/-- A reservation shared out among waves with these lanes, in queue room first. -/
def shareOut (fan : Nat) : List Nat → Nat × Nat → List (Nat × Nat)
  | [], _ => []
  | k :: r, (q, p) =>
    let a := min (k * fan) q
    let b := k * fan - a
    (a, b) :: shareOut fan r (q - a, p - b)

/-! ## Appending (R389, R396, R411) -/

/-- A record joins the tail of a sub-queue; an ordered queue stamps it. -/
def Launch.append (l : Launch) (t die : Nat) (words : List Word) (self born : Nat) (spilled : Bool) : Launch :=
  let n := l.node t
  let k := FMap.get 0 l.stamps t
  let r : Rcd := { words := words, self := self, stamp := if n.ord then k else 0, born := born, spilled := spilled }
  { l.setQueue t die (l.queue t die ++ [r]) with
    stamps := if n.ord then l.stamps.set 0 t ((k + 1) % 2 ^ 32) else l.stamps
    spills := l.spills + spilled.toNat }

/-- Words padded with zeros to a record of n words. -/
def padTo (n : Nat) (ws : List Word) : List Word := (ws ++ List.replicate n 0).take n

/-! ## Inflow (R390) -/

/-- A wave that may still append: some live lane has not executed `nend` (R413). -/
def Wave.appends (w : Wave) : Bool := w.liveLanes &&& ~~~w.funel.ended != 0

/-- A saved wave that may still append: its record counts the lanes that were not live at the save as ended. -/
def SavedWave.appends (v : SavedWave) : Bool := ~~~v.funel.ended != 0

/-- The next record of a node in stamp order over both sub-queues, with its die (R389). -/
def Launch.nextStamp (l : Launch) (nd : Nat) : Option (Nat × Rcd) :=
  match l.queue nd 0, l.queue nd 1 with
  | [], [] => none
  | a :: _, [] => some (0, a)
  | [], b :: _ => some (1, b)
  | a :: _, b :: _ => if a.stamp ≤ b.stamp then some (0, a) else some (1, b)

/-- The node's batches may be taken on a die now: those of an ordered node go in stamp order over both dies (R389). -/
def Launch.inTurn (l : Launch) (nd die : Nat) : Bool :=
  !(l.node nd).ord || (match l.nextStamp nd with | some p => p.1 == die | none => true)

/-- Batches taken for the group of a node that a die's Gather is forming (R391). -/
def Launch.openOf (l : Launch) (nd die : Nat) : List Batch := FMap.get [] l.opened (2 * nd + die)

/-- Batches of the node are taken, and their waves have not started (R418). -/
def Launch.taken (l : Launch) (n : Nat) : Bool :=
  l.formed.any (fun f => decide (f.node = n)) || !(l.openOf n 0).isEmpty || !(l.openOf n 1).isEmpty

/-- The node has a record queued, spilled, taken for a group or held by a fixed unit, or a wave that may append. -/
def State.nodeBusy (s : State) (l : Launch) (n : Nat) : Bool :=
  !(l.queue n 0).isEmpty || !(l.queue n 1).isEmpty || l.taken n
    || (s.wavesOf l.seq).any (fun p => decide (p.2.funel.node = n) && p.2.appends)
    || s.saved.any (fun v => decide (v.launch = l.seq) && decide (v.funel.node = n) && v.appends)
    || (s.raysOf l.seq).any (fun p => decide (p.2.node = n))
    || s.rasters.any (fun r => r.2.serves == some (l.seq, n) && r.2.pass.isSome)

/-- Nodes with an edge to one of the list, added to it. -/
def Launch.feeders (l : Launch) (set : List Nat) : List Nat :=
  (List.range l.nodes.length).filter (fun m => set.contains m ||
    (List.range 8).any (fun e => match l.target m e with | some t => set.contains t && t != m | none => false))

/-- Nodes with a path to n, n itself only where it has a self-edge. -/
def Launch.upstream (l : Launch) (n : Nat) : List Nat :=
  let all := (List.range l.nodes.length).foldl (fun set _ => l.feeders set) [n]
  let self := (List.range 8).any (fun e => l.target n e == some n)
  all.filter (fun m => m != n || self)

/-- n's inflow is closed (R390). With a self-edge the waves and taken groups of n count, and its queued records do not
(R398; log entry 30). -/
def State.closed (s : State) (l : Launch) (n : Nat) : Bool :=
  l.banked && (l.upstream n).all (fun m => if m = n then
      !((s.wavesOf l.seq).any (fun p => decide (p.2.funel.node = n) && p.2.appends) || l.taken n
        || s.saved.any (fun v => decide (v.launch = l.seq) && decide (v.funel.node = n) && v.appends))
    else !s.nodeBusy l m)

/-! ## What a launch holds (R401, R402) -/

/-- A record is queued, spilled or held by a fixed unit. -/
def State.hasRecords (s : State) (l : Launch) : Bool :=
  !l.banked || l.queues.any (fun p => !p.2.isEmpty) || !(s.raysOf l.seq).isEmpty
    || s.rasters.any (fun r => (match r.2.serves with | some p => decide (p.1 = l.seq) | none => false) && r.2.pass.isSome)

/-- The predecessor allows the groups of a dependent launch to be placed (R402). -/
def State.predAllows (s : State) (l : Launch) : Bool :=
  match l.pred.bind s.launch? with
  | none => true
  | some p => !s.hasRecords p && p.formed.isEmpty && p.opened.isEmpty && !s.saved.any (fun v => decide (v.launch = p.seq)) &&
      (s.wavesOf p.seq).all (fun w => w.2.funel.xz || w.2.liveLanes == 0)

/-- The context of a launch is pre-empted (R403). -/
def State.preempted (s : State) (ctxid : Nat) : Bool := s.preempts.any (fun p => decide (p.ctxid = ctxid))

end Sys2Proof.Machine
end

