-- ==== Sys2Proof/Machine/Graph.lean ====
section
/-!
DEFINITION. Machine/Graph.lean: the graph instructions (R405 to R416).
-/
namespace Sys2Proof.Machine

/-! ## The wave's node -/

/-- The node that a wave runs, with its launch. -/
def State.nodeOf (s : State) (x : Sel) : Launch × Node :=
  let f := (s.wave x.wk).funel
  let l := s.launch (f.launch.getD 0)
  (if f.launch.isSome then l else {}, if f.launch.isSome then l.node f.node else {})

/-- Place of a lane among the records of its wave (R407). -/
def FunelWave.slot (f : FunelWave) (lane : Nat) : Nat := if f.shared then 0 else lane

/-! ## Reading records (R407, R408) -/

/-- Word k of a lane's record: from the batch store, or from the record area as the scratchpad holds it. -/
def State.recWord (s : State) (x : Sel) (lane k : Nat) : Nat :=
  let w := s.wave x.wk
  let n := (s.nodeOf x).2
  let i := w.funel.slot lane
  if n.recsp then
    (s.core x.ck).scratchN ((s.groupOf x).sbase * 1024 + w.recbase + i * n.rsz + 4 * k) 4
  else (((w.funel.recs[i]?).getD []).getD k 0).toNat

/-- Words from o on as one number. -/
def State.recWords (s : State) (x : Sel) (lane o n : Nat) : Nat :=
  (List.range n).foldl (fun v i => v + 2 ^ (32 * i) * s.recWord x lane (o + i)) 0

/-- R407: records in the scratchpad are read in the order of the context's accesses to it (R222). -/
def execRecld (f : XF) (s : State) : Host.Outcome State Fault Refusal := issue (.recld f) f.h s (fun cx s =>
  let o := fun l => match f.a with | .none => 0 | _ => cx.src s .A f.a 1 l
  { lane := fun l => if (s.nodeOf cx.sel).2.rsz / 4 < o l + f.nw then some (cBOUND, none) else none
    run := fun ls s0 =>
      let s := if (s0.nodeOf cx.sel).2.recsp then s0.inOrder cx.sel [(.sp cx.sel.ck 0, 1)] else s0
      cx.putD f.d f.nw ls (fun l => s.recWords cx.sel l (o l) f.nw) s })

def execRngld (f : XF) (s : State) : Host.Outcome State Fault Refusal := issue (.rngld f) f.h s (fun cx s =>
  let w := s.wave cx.sel.wk
  let v := match w.funel.range with
    | some r => r.1 + 2 ^ 32 * ((r.2 * (s.nodeOf cx.sel).2.b) % 2 ^ 32)
    | none => w.funel.batchn
  { run := fun ls s => cx.putD f.d 2 ls (fun _ => v) s })

/-! ## Appending records (R409 to R411) -/

/-- Records that a lane has appended on an edge, and those it may still append (R413). -/
def FunelWave.usedAt (f : FunelWave) (lane e : Nat) : Nat := FMap.get 0 f.used (8 * lane + e)
def FunelWave.left (f : FunelWave) (lane e fan : Nat) : Nat := if f.ended.getLsbD lane then 0 else fan - f.usedAt lane e

/-- R409's checks of a lane. -/
def State.emitOk (s : State) (x : Sel) (nw lane e : Nat) : Bool :=
  let f := (s.wave x.wk).funel
  let (l, n) := s.nodeOf x
  match (if e ≤ 7 then n.edge e else none) with
  | none => false
  | some d =>
    decide (nw ≤ (l.node d.tgt).rsz / 4) && !f.ended.getLsbD lane && decide (f.usedAt lane e < d.e)
      && (d.tgt ≠ f.node || decide ((f.depths[f.slot lane]?).getD 0 + 1 ≤ n.sdepth))

/-- One record of a lane is appended, on the queue room of the wave's reservation first. -/
def State.emit1 (s : State) (x : Sel) (lane e : Nat) (ws : List Word) : State :=
  let f := (s.wave x.wk).funel
  let (l, n) := s.nodeOf x
  match n.edge e with
  | none => s
  | some d =>
    let q := FMap.get 0 f.resq e
    let self := if d.tgt = f.node then (f.depths[f.slot lane]?).getD 0 + 1 else 0
    let s1 := s.modLaunch l.seq (fun l =>
      l.append d.tgt x.die (padTo ((l.node d.tgt).rsz / 4) ws) self (s.die x.die).watch.toNat (q == 0))
    s1.modWave x.wk (fun w => { w with funel := { w.funel with
      used := w.funel.used.set 0 (8 * lane + e) (f.usedAt lane e + 1)
      resq := if q = 0 then w.funel.resq else w.funel.resq.set 0 e (q - 1)
      ress := if q = 0 then w.funel.ress.set 0 e (FMap.get 0 w.funel.ress e - 1) else w.funel.ress } })

/-- An append of every active lane, in ascending order. -/
def planEmit (f : XF) (edge : Cx → State → Nat → Nat) (cx : Cx) (s : State) : Plan :=
  { lane := fun l => if s.emitOk cx.sel f.nw l (edge cx s l) then none else some (cRECORD, none)
    whole := true
    run := fun ls s0 => ls.foldl (fun s l =>
      let v := cx.src s0 .A f.a f.nw l
      s.emit1 cx.sel l (edge cx s0 l) ((List.range f.nw).map (fun i => .ofNat 32 (v / 2 ^ (32 * i))))) s0 }

def execEmit (f : XF) (s : State) : Host.Outcome State Fault Refusal := issue (.emit f) f.h s
  (planEmit f (fun _ _ _ => f.edge))
def execEmitn (f : XF) (s : State) : Host.Outcome State Fault Refusal := issue (.emitn f) f.h s
  (planEmit f (fun cx s l => cx.src s .B f.b 1 l))

/-! ## Ending appends (R413, R414) -/

/-- n records of a wave's reservation on an edge are released, those in the spill area first. -/
def FunelWave.release (f : FunelWave) (e n : Nat) : FunelWave :=
  let p := FMap.get 0 f.ress e
  let k := min n p
  { f with ress := f.ress.set 0 e (p - k), resq := f.resq.set 0 e (FMap.get 0 f.resq e - (n - k)) }

/-- A lane appends no more. -/
def FunelWave.endLane (n : Node) (f : FunelWave) (lane : Nat) : FunelWave :=
  let f1 := (List.range 8).foldl (fun (g : FunelWave) e => match n.edge e with
    | some d => g.release e (f.left lane e d.e)
    | none => g) f
  { f1 with ended := f1.ended ||| maskOf [lane] }

def execNend (f : XF) (s : State) : Host.Outcome State Fault Refusal := issue (.nend f) f.h s (fun cx s =>
  let n := (s.nodeOf cx.sel).2
  { run := fun ls s => s.modWave cx.sel.wk (fun w => { w with funel := ls.foldl (FunelWave.endLane n) w.funel }) })

/-- The word of R414. -/
def State.edgeWord (s : State) (x : Sel) (e lane : Nat) : Nat :=
  let (l, n) := s.nodeOf x
  match n.edge e with
  | none => 0
  | some d =>
    let t := l.node d.tgt
    let rs := match t.rsz with | 16 => 0 | 32 => 1 | 64 => 2 | _ => 3
    2 ^ 31 + t.ord.toNat * 2 ^ 30 + rs * 2 ^ 28 + d.tgt * 2 ^ 16 + d.e * 2 ^ 8 + (s.wave x.wk).funel.left lane e d.e

def execEdgest (f : XF) (s : State) : Host.Outcome State Fault Refusal := issue (.edgest f) f.h s (fun cx _ =>
  { run := fun ls s => cx.putD f.d 1 ls (fun l => s.edgeWord cx.sel (f.e 2 0) l) s })

/-! ## Exchange zones (R415) -/

def execXzopen (f : XF) (s : State) : Host.Outcome State Fault Refusal := issue (.xzopen f) f.h s (fun cx _ =>
  { run := fun _ s => s.modWave cx.sel.wk (fun w => { w with funel := { w.funel with xz := true } }) })

/-- The predecessor of the wave's launch has not completed (R372). -/
def State.xzBlocked (s : State) (x : Sel) : Bool :=
  match (s.nodeOf x).1.pred with
  | some q => (s.launch? q).isSome
  | none => false

def execXzwait (f : XF) (s : State) : Host.Outcome State Fault Refusal := issue (.xzwait f) f.h s (fun cx s =>
  { wait := if s.xzBlocked cx.sel then some s else none
    run := fun _ s => s })

end Sys2Proof.Machine
end

