-- ==== Sys2Proof/Machine/Waves.lean ====
section
/-!
DEFINITION. Machine/Waves.lean: the moves of a core besides its instructions: the issue turn (R82, R83, R187), completions
(R98, R202, R224, R236), stops and their records (R250, R251, R277), and the ends of tails, waves and groups (R174, R186).
-/
namespace Sys2Proof.Machine

def mainSel (die core w : Nat) : Sel := ⟨die, core, w, 63⟩

/-! ## Stops at an instruction boundary (R250, R277) -/

/-- A cause detected apart from an instruction is taken: FAULTPC is the next instruction of the context that reports. -/
def State.takePend (s : State) (die core wave : Nat) (p : PendCause) : State :=
  let x : Sel := ⟨die, core, wave, p.ctx⟩
  let m := p.lanes.getD (liveMask (s.stack x))
  s.stop x { cause := p.cause, pc := (s.run x).pc, mask := m, async := true
             faddr := if p.addr = 0 then [] else (lanesOf m).map (fun l => (l, .ofNat 57 p.addr)) }

/-- A `bar.sync` blocked at a pre-emption has taken no effect: its arrival is taken back, unless it is held, which it stays, or
has completed its phase on this die, which the other home knows; once its phase is over it has completed (log entry 11). -/
def State.undoSync (s : State) (x : Sel) : State :=
  let c := s.ctx x
  let s1 := s.modCtx x (fun c => { c with sync := none })
  match c.sync with
  | some (some ph) =>
    let b := s.bar (c.syncAt / 256) (c.syncAt % 256)
    if b.phase = ph then (if b.rwait then s else s1.setBar (c.syncAt / 256) (c.syncAt % 256) { b with arr := b.arr + 1 })
    else match s1.advance x with
      | some s2 => s2.settled x (s.run x) false
      | none => s1
  | _ => s

/-- What is left of a sleep at a stop: it may be served or ended (R176). -/
def Ctx.wakeAt (tick place : Nat) (c : Ctx) : Ctx := if Config.choice tick place then { c with sleep := none } else c

/-- Every sleeping context of a stopped wave. -/
def State.wakeAll (s : State) (ck w : Nat) : State :=
  (s.tailsOf ck w).foldl (fun s t => s.modTail (ck * 32 + t) (fun u => { u with ctx := Ctx.wakeAt s.tick (64 + t) u.ctx }))
    (s.modWave (ck * 64 + w) (fun u => { u with main := Ctx.wakeAt s.tick 63 u.main }))

/-- A running wave stops for pre-emption, with STATE 2 (R277). -/
def State.preStop (s : State) (x : Sel) : State :=
  let m : Sel := { x with ctx := 63 }
  (((((s.undoSync m).unblockAll x.ck x.wave).withdraw x.ck x.wave).wakeAll x.ck x.wave)).modWave x.wk (fun w =>
    { w with state := 2, cause := 0, number := 0, async := false, stopTick := s.tick, stale := [] })

/-- The wave stops before it issues again. -/
def Wave.mustStop (w : Wave) : Bool := w.valid && (w.state == 0 || w.state == 3) && (!w.pend.isEmpty || (w.stopReq && w.state == 0))

/-- The stop at the boundary: a pending cause first, the latest left for the resumed wave. -/
def State.boundaryStop (s : State) (die core wave : Nat) : State :=
  let wk := waveKey die core wave
  let w := s.wave wk
  if !w.mustStop then s
  else match w.pend with
    | p :: r => (s.takePend die core wave p).modWave wk (fun w => { w with pend := r })
    | [] => s.preStop (mainSel die core wave)

/-- UE of a slice rises with the machine check of its error (R475); in stage 2 the running half is die 0. -/
def State.countUe (s : State) (r : McRec) : State :=
  if r.src.toNat = 4 ∧ r.cause.toNat = cMC_ECC then
    let pa := r.loc.toNat
    let i := 32 * (if s.cdie.stage = 2 then s.cdie.half.toNat else s.homeDie pa) + homeSlice pa
    { s with cdie := { s.cdie with ecc := FMap.set {} s.cdie.ecc i { FMap.get {} s.cdie.ecc i with ue := (FMap.get {} s.cdie.ecc i).ue + 1 } } }
  else s

/-- ASYNC_STOP (R250): a machine check, of cause 0x20 or 0x21 (R71), that no instruction absorbs is logged and joins the
causes of its wave (R273), to be reported by the context whose instruction raised it, and a wave with a pending cause stops. One that the stack cache finds counts in UE of the slice of its
address (R475). -/
def execAsyncStop (die core wave : Nat) (mc : Option McRec) (s : State) : Host.Outcome State Fault Refusal :=
  let wk := waveKey die core wave
  .next (match mc with
    | some r =>
      if (s.wave wk).valid && (r.cause.toNat == cMC_PARITY || r.cause.toNat == cMC_ECC) then
        (((s.countUe r).logMc die core r.src.toNat r.cause.toNat r.loc.toNat).modWave wk (fun w =>
          { w with pend := w.pend ++ [{ ctx := if (s.tailsOf (coreKey die core) wave).contains r.ctx.toNat then r.ctx.toNat else 63, cause := r.cause.toNat }] })).boundaryStop die core wave
      else s
    | none => s.boundaryStop die core wave)

/-- The stopped wave still has a record to post. -/
def Wave.unposted (w : Wave) : Bool := w.valid && (w.state == 1 || w.state == 4) && !w.posted

/-- No wave that stopped before has a record to post (R253). -/
def State.postsFirst (s : State) (die core wave : Nat) : Bool :=
  let t := (s.wave (waveKey die core wave)).stopTick
  s.waves.all (fun p =>
    let ck := p.1 / 64
    !(p.2.unposted && mgmtOf (ck / 99) (ck % 99) == mgmtOf die core && decide (ck % 99 < 96) &&
      (decide (p.2.stopTick < t) || (decide (p.2.stopTick = t) && decide (p.1 < waveKey die core wave)))))

/-- Stores of every context of the wave have drained. -/
def State.storesDrained (s : State) (ck w : Nat) : Bool :=
  (s.wave (ck * 64 + w)).main.st == 0 && (s.tailsOf ck w).all (fun t => (s.tail (ck * 32 + t)).ctx.st == 0)

/-- TRAP_POST (R251, R253): what the wave stored is performed and the stop posts its record; a cause of a management-core wave goes to Gaffer (R252). -/
def execTrapPost (die core wave : Nat) (s : State) : Host.Outcome State Fault Refusal :=
  let ck := coreKey die core
  let w := s.wave (ck * 64 + wave)
  let r : TrapRec := ⟨w.state == 4, w.cause, w.wctx, core, wave⟩
  let mk := mgmtOf die core
  let t := s.publishWave (mainSel die core wave)
  .next (if !w.unposted || !s.storesDrained ck wave then s
    else if 96 ≤ core then
      let s1 := t.modWave (ck * 64 + wave) (fun w => { w with posted := true })
      { s1 with cdie := { s1.cdie with reports := s1.cdie.reports ++ [r] } }
    else if decide (256 ≤ (s.core mk).trapq.length) || !s.postsFirst die core wave then s
    else (t.modWave (ck * 64 + wave) (fun w => { w with posted := true })).modCore mk (fun c => { c with trapq := c.trapq ++ [r] }))

/-! ## The issue turn (R81 to R83, R187) -/

/-- The class of a wave: its node's effective class (R83); a management core's work is class 0 (R23). -/
def State.classOf (s : State) (core : Nat) (w : Wave) : Nat :=
  if 96 ≤ core then 0
  else match w.funel.launch with
    | some q => ((s.launch q).node w.funel.node).rcb.cls
    | none => 4

/-- The effective class, with the promotions of R83. -/
def State.effClass (s : State) (core : Nat) (w : Wave) : Nat :=
  let c := s.classOf core w
  if c ≤ 3 then c else max 3 (c - w.promo)

/-- The context only waits: its last check stands in the present state. -/
def State.stillBlocked (s : State) (x : Sel) : Bool :=
  match (s.ctx x).blk with
  | some b => b.stamp == s.tick
  | none => false

/-- The context may be tried: it runs, does not sleep, and is not known to be blocked. -/
def State.mayTry (s : State) (x : Sel) : Bool :=
  s.running x && (s.ctx x).sleep.isNone && !s.stillBlocked x

/-- The ready contexts of a wave. -/
def State.readyCtx (s : State) (die core wave : Nat) : List Sel :=
  ((63 :: s.tailsOf (coreKey die core) wave).map (fun c => (⟨die, core, wave, c⟩ : Sel))).filter (fun x => s.mayTry x)

/-- A quadrant has 16 slots; a management core has one quadrant (R252). -/
def quadWaves (core quad : Nat) : List Nat := if 96 ≤ core ∧ quad ≠ 0 then [] else (List.range 16).map (fun i => 16 * quad + i)

/-- Waves of a quadrant that may be chosen. -/
def State.readyWaves (s : State) (die core quad : Nat) : List Nat :=
  (quadWaves core quad).filter (fun w =>
    let v := s.wave (waveKey die core w)
    v.valid && !v.mustStop && !(s.readyCtx die core w).isEmpty)

/-- Order of choice: class, least recent issue, lowest slot (R82, R83). -/
def State.turnLt (s : State) (die core a b : Nat) : Bool :=
  let v := s.wave (waveKey die core a)
  let u := s.wave (waveKey die core b)
  decide (s.effClass core v < s.effClass core u) || (s.effClass core v == s.effClass core u &&
    (decide (v.lastIssue < u.lastIssue) || (v.lastIssue == u.lastIssue && decide (a < b))))

def keyLt (a b : Nat × Nat × Nat × Nat) : Bool :=
  decide (a.1 < b.1) || (a.1 == b.1 && (decide (a.2.1 < b.2.1) || (a.2.1 == b.2.1 &&
    (decide (a.2.2.1 < b.2.2.1) || (a.2.2.1 == b.2.2.1 && decide (a.2.2.2 < b.2.2.2))))))

/-- The element of least key, the first among equals. -/
def leastBy {α : Type} (lt : α → α → Bool) : List α → Option α
  | [] => none
  | a :: r => match leastBy lt r with
    | none => some a
    | some b => if lt b a then some b else some a

/-- The wave of a turn. -/
def State.chosen (s : State) (die core quad : Nat) : Option Nat :=
  leastBy (s.turnLt die core) (s.readyWaves die core quad)

/-- The context of a turn: its ready context that issued least recently; of several that have not yet issued the main context
first, then the lowest slot (log entry 69). -/
def State.chosenCtx (s : State) (die core wave : Nat) : Option Sel :=
  leastBy (fun a b => decide ((s.ctx a).issued < (s.ctx b).issued)) (s.readyCtx die core wave)

/-- ISSUE_TURN (R82): the quadrant chooses. The waves that it passes over are counted where the turn is used (R83). -/
def execIssueTurn (die core quad : Nat) (s : State) : Host.Outcome State Fault Refusal :=
  .next (match s.chosen die core quad with
    | none => s
    | some w => { s with cur := s.chosenCtx die core w })

/-- The wave has waited one more turn in which it was ready (R83). -/
def State.waitedTurn (s : State) (wk : Nat) : State := s.modWave wk (fun u => { u with waited := u.waited + 1 })

/-- WAVE_PROMOTE (R83): the wave enters its new class as the least recent one. -/
def execWavePromote (die core wave : Nat) (s : State) : Host.Outcome State Fault Refusal :=
  let wk := waveKey die core wave
  let w := s.wave wk
  .next (if w.valid && !(s.readyCtx die core wave).isEmpty && decide (1024 * (w.promo + 1) ≤ w.waited)
      && decide (3 < s.effClass core w) then s.setWave wk { w with promo := w.promo + 1, lastIssue := -(s.tick + 1 : Int) } else s)

/-- QUEUE_ELIGIBLE (R202, R203): a blocked queue instruction may take effect, and its context issues it. -/
def execQueueEligible (die core wave : Nat) (s : State) : Host.Outcome State Fault Refusal :=
  let x := mainSel die core wave
  .next (match (s.ctx x).blk with
    | some b =>
      if !(b.pops.isEmpty && b.push.isEmpty) && s.mayTry x && !(s.wave x.wk).mustStop then { s with cur := some x } else s
    | none => s)

/-- LINE_FETCH (R33): the line of the wave's next slot enters the fetch buffer of its quadrant; one with a wrong LWP
does not stay. -/
def execLineFetch (die core wave : Nat) (s : State) : Host.Outcome State Fault Refusal :=
  let x := mainSel die core wave
  let a := lineAddr (s.run x).pc
  .next (if !(s.wave x.wk).valid || (s.stack x).isEmpty then s
    else match s.line x a with
      | .ok d =>
        if lwpOk d then
          (s.held x a).modCore x.ck (fun c =>
            if c.fbuf.any (fun b => b.serves (s.agent x) (wave / 16) a) then c
            else { c with fbuf := ⟨wave / 16, (s.agent x).root, a, d, s.nextSeq⟩ :: c.fbuf })
        else s
      | .error _ => s)

/-! ## Completions -/

/-- RESULT_PRODUCE (R98): the oldest result that is not yet produced. -/
def execResultProduce (die core wave : Nat) (s : State) : Host.Outcome State Fault Refusal :=
  .next (s.modWave (waveKey die core wave) (fun w => { w with sb := w.sb.drop 1 }))

/-- The context of an access. -/
def accSel (die core wave : Nat) (a : Access) : Sel := ⟨die, core, wave, a.ctx⟩

/-- An access is over: its counter falls. -/
def State.accessDone (s : State) (die core wave : Nat) (a : Access) : State :=
  (s.modWave (waveKey die core wave) (fun w => { w with accs := w.accs.filter (fun b => decide (b.id ≠ a.id)) })).bump
    (accSel die core wave a) (if a.load then .ld else .st) (· - 1)

/-- Another access after this load has arrived at one of its registers (R97): an interlocked result that was due from before does not
go there any more. -/
def Access.behindLoad (id key : Nat) (b : Access) : Access :=
  if !b.load && decide (b.id < id) then { b with writes := b.writes.erase key } else b

/-- An interlocked result is due to this lane of a register. -/
def Wave.dueAt (w : Wave) (key : Nat) : Bool :=
  w.accs.any (fun b => !b.load && (b.writes.find? key).isSome)
    || (match w.heldtok with | some (c, m) => c == key / 32 && m.getLsbD (key % 32) | none => false)

/-- A loaded word arrives at its register, which is plain (R121). Where the load has read as not arrived until now, the register reads
so until a wait shows the load; nothing has read it while an interlocked result was due (R81, R97), and a stopped wave reads the word. -/
def Wave.landWord (w : Wave) (a : Access) (key : Nat) (u : Word) : Wave :=
  let old : FMap (Nat × Word) :=
    if a.seen key || w.dueAt key || w.state == 1 || w.state == 2 || w.state == 4 then w.stale.erase key else w.stale.insert key (a.ctx, w.base (key / 32) (key % 32))
  { w.plain (key / 32) with
    regs := w.regs.set 0 key u
    stale := old
    accs := w.accs.map (Access.behindLoad a.id key)
    heldtok := tokenLess (key / 32) (key % 32) w.heldtok }

/-- The values of an access reach their registers: those of a load, or the flags of a store, which are interlocked. -/
def Wave.land (w : Wave) (a : Access) : Wave :=
  a.writes.foldl (fun w p => if a.load then w.landWord a p.1 p.2 else w.putDue (p.1 / 32) (p.1 % 32) p.2) w

def Wave.access? (w : Wave) (id : Nat) (load : Bool) : Option Access :=
  w.accs.find? (fun a => decide (a.id = id) && a.load == load)

/-- An access ends: its registers are written and its counter falls. -/
def State.endAccess (s : State) (die core wave acc : Nat) (load : Bool) : State :=
  let wk := waveKey die core wave
  match (s.wave wk).access? acc load with
  | some a => (s.accessDone die core wave a).modWave wk (fun w => w.land a)
  | none => s

/-- LOAD_COMPLETE (R224): an atomic not yet performed is performed first. -/
def execLoadComplete (die core wave acc : Nat) (s : State) : Host.Outcome State Fault Refusal :=
  .next (match (s.wave (waveKey die core wave)).access? acc true with
    | some a => (s.settleLate (accSel die core wave a) acc false).endAccess die core wave acc true
    | none => s)

/-- STORE_COMPLETE (R224): what the access stores is performed, or is still on its way from L1. Once the access has completed, the
same event performs what it left. -/
def execStoreComplete (die core wave acc : Nat) (s : State) : Host.Outcome State Fault Refusal :=
  let w := s.wave (waveKey die core wave)
  .next (match w.access? acc false with
    | some a => (s.settleLate (accSel die core wave a) acc (Config.choice s.tick 8192)).endAccess die core wave acc false
    | none => match w.late.find? (fun e => decide (e.acc = acc)) with
      | some e => if w.accs.any (fun a => decide (a.id = acc)) then s else s.settleLate ⟨die, core, wave, e.ctx⟩ acc false
      | none => s)

/-- QUEUE_PUSH (R202): the result that is produced first pushes its elements into the room reserved for them. -/
def execQueuePush (die core : Nat) (s : State) : Host.Outcome State Fault Refusal :=
  .next (s.modCore (coreKey die core) (fun c => match leastBy (fun a b => decide (a.due < b.due)) c.pushes with
    | none => c
    | some p =>
      let c1 := p.elems.foldl (fun (c : Core) v => c.push p.qr v) { c with pushes := c.pushes.erase p }
      let q := FMap.get ({} : QRec) c1.queues p.qr
      { c1 with queues := c1.queues.set {} p.qr { q with resv := q.resv - p.elems.length } }))

/-- BARRIER_DONE_MSG (R216): a `done` of this home reaches the other one. -/
def execBarrierDoneMsg (die core bar : Nat) (s : State) : Host.Outcome State Fault Refusal :=
  let ck := coreKey die core
  let b := s.bar ck bar
  .next (match s.otherHome ck bar with
    | some (ck', i') =>
      if b.sent.isEmpty then s
      else
        let s1 := s.setBar ck bar { b with sent := b.sent.drop 1 }
        let o := s1.bar ck' i'
        if o.rwait then
          let s2 := s1.advanceBar ck' i' o
          s2.barSettle (s2.barFuel ck') ck' i' true
        else s1.setBar ck' i' { o with dones := o.dones + 1 }
    | none => s)

/-- SLEEP_EXPIRE (R176). -/
def execSleepExpire (die core wave ctx : Nat) (s : State) : Host.Outcome State Fault Refusal :=
  let x : Sel := ⟨die, core, wave, ctx⟩
  .next (match (s.ctx x).sleep with
    | some t =>
      if ((s.die die).watch.toNat + 2 ^ 64 - t) % 2 ^ 64 < 2 ^ 63 then s.modCtx x (fun c => { c with sleep := none }) else s
    | none => s)

/-- FUTURE_ANSWER (R236, R358): the first request of a slice whose word has become full is answered. -/
def execFutureAnswer (die slice : Nat) (s : State) : Host.Outcome State Fault Refusal :=
  .next (match s.defer.find? (fun d => decide (d.slice = 32 * die + slice) && d.got.isSome) with
    | some d =>
      { s with defer := s.defer.erase d }.modCtx d.who (fun c =>
        { c with fut := c.fut.map (fun as => as ++ [(d.lane, (d.got.getD 0).toNat, 0)]) })
    | none => s)

/-! ## Ends (R174, R186) -/

/-- TAIL_END (R186): the tail is empty, every instruction it issued has completed and its counters read 0. VALID is cleared, and
its flags join the wave's (R131). -/
def execTailEnd (die core slot : Nat) (s : State) : Host.Outcome State Fault Refusal :=
  let ck := coreKey die core
  let t := s.tail (ck * 32 + slot)
  .next (if t.valid && t.stack.all (fun e => e.mask == 0) && t.ctx.ld == 0 && t.ctx.st == 0
        && !(s.wave (ck * 64 + t.wave)).sb.any (fun r => decide (r.1 = slot)) then
      (s.setTail (ck * 32 + slot) t.freed).modWave (ck * 64 + t.wave) (fun w =>
        { w.shown slot with fpflags := w.fpflags ||| t.flags, late := w.late.map (fun e => if e.ctx = slot then { e with ctx := 64 } else e) })
    else s)

/-- Nothing of the wave is left under way. -/
def State.waveOver (s : State) (ck w : Nat) : Bool :=
  let v := s.wave (ck * 64 + w)
  let c := s.core ck
  v.valid && v.state == 0 && v.pend.isEmpty && v.div.stack.all (fun e => e.mask == 0) && v.parked.isNone
    && (s.tailsOf ck w).isEmpty && v.main.ld == 0 && v.main.st == 0 && v.cp == 0 && v.mx == 0 && v.accs.isEmpty && v.sb.isEmpty
    && !c.pushes.any (fun p => decide (p.wave = w)) && !c.mx.items.any (fun i => decide (i.wave = w))
    && !c.mx.done.any (fun i => decide (i.wave = w)) && !c.chans.any (fun p => p.2.cmds.any (fun k => decide (k.wave = w)))

/-- Every binding of a wave is released as `qfree` releases it (R200). -/
def State.freeBindings (s : State) (x : Sel) : State :=
  (List.range 32).foldl (fun s q => if bnd ((s.wave x.wk).bind q) then s.freeBinding x q else s) s

/-- The wave's held arrivals stay held, for no wave. -/
def State.dropHolder (s : State) (wk : Nat) : State :=
  { s with cores := s.cores.map (fun p =>
      (p.1, { p.2 with held := p.2.held.map (fun h => if h.wave = some wk then { h with wave := none } else h) })) }

/-- The save area of a wave (R403). -/
def Launch.saveArea (l : Launch) (die core w : Nat) : Nat := (l.savebase + l.savesz * (64 * (96 * die + core) + w)) % 2 ^ 57

/-- The slot and registers of a wave are freed, its stores performed. A wave that its save handler has ended is listed for its
return (R403). -/
def State.freeWave (s0 : State) (x : Sel) : State :=
  let s := s0.publishWave x
  let w := s.wave x.wk
  let g := s.groupOf x
  let s1 := ((s.freeBindings x).dropHolder x.wk).withdraw x.ck x.wave
  let s2 := s1.setWave x.wk {}
  match w.funel.launch with
  | some q =>
    if w.funel.halted && s.preempted w.ctxid then
      { s2 with saved := s2.saved ++ [⟨q, x.die, if g.clu then g.cid % 2 ^ 32 else g.gno, g.gno, w.gi, (s.launch q).saveArea x.die x.core x.wave, w.funel⟩] }
    else s2
  | none => s2

/-- WAVE_END (R174). -/
def execWaveEnd (die core wave : Nat) (s : State) : Host.Outcome State Fault Refusal :=
  .next (if s.waveOver (coreKey die core) wave then s.freeWave (mainSel die core wave) else s)

/-- Nothing of a group is left on its core; a share without waves is held for the members of its cluster. -/
def State.groupOver (s : State) (die core gid : Nat) : Bool :=
  let ck := coreKey die core
  let c := s.core ck
  let g := c.group gid
  let busy := fun (ck gid : Nat) =>
    let c := s.core ck
    (s.residents ck).any (fun p => decide (p.2.gid = gid)) || c.mx.items.any (fun i => decide (i.gid = gid))
      || c.chans.any (fun p => p.2.cmds.any (fun k => decide (k.gid = gid)))
  c.groups.any (fun g => decide (g.id = gid)) && !busy ck gid &&
    (!g.waves.isEmpty || (List.range 8).all (fun m =>
      let ck' := coreKey die (g.cbase + m)
      !(s.core ck').groups.any (fun h => h.clu && decide (h.cid = g.cid) && !h.waves.isEmpty)))

/-- A group's scratchpad, owner bits and barriers are free. -/
def Core.dropGroup (c : Core) (gid : Nat) : Core :=
  let g := c.group gid
  { c with
    groups := c.groups.filter (fun h => decide (h.id ≠ gid))
    owner := c.owner.setMany false ((List.range g.skib).map (fun i => (g.sbase + i, false)))
    bars := c.bars.setMany {} ((List.range g.nb).map (fun i => (g.bbase + i, {})))
    held := c.held.filter (fun h => !(decide (g.bbase ≤ h.bar) && decide (h.bar < g.bbase + g.nb))) }

/-- GROUP_RELEASE (R174). -/
def execGroupRelease (die core gid : Nat) (s : State) : Host.Outcome State Fault Refusal :=
  .next (if s.groupOver die core gid then s.modCore (coreKey die core) (fun c => c.dropGroup gid) else s)

end Sys2Proof.Machine
end

