-- ==== Sys2Proof/Machine/Check.lean ====
section
/-!
DEFINITION. Machine/Check.lean: the checks of a launch (R383 to R388, R349, R422, R437, R340, R465, R485).
-/
namespace Sys2Proof.Machine

/-! ## Virtual structures (R485)

The Funel and the fixed units walk the context's page table themselves. -/

/-- A failed access of a structure: out of reach, or not resident. -/
inductive NoPage where
  | fault
  | nonres
  deriving DecidableEq, Repr

/-- The physical address of a virtual byte under a root. -/
def State.pageAt (s : State) (root va : Nat) (need : Need) : Except NoPage Nat :=
  if 2 ^ 57 ≤ va then .error .fault
  else match s.walk va [0, 1, 2, 3, 4] root with
    | none => .error .fault
    | some t =>
      if !need.ok t.rd t.wr t.xf then .error .fault
      else if !t.res then .error .nonres
      else .ok (t.pa + (va - t.va))

/-- The pieces of a range, each inside one 4 KiB page: address and length. -/
def cutPages : Nat → Nat → Nat → List (Nat × Nat)
  | 0, _, _ => []
  | f + 1, va, n => if n = 0 then [] else
    let k := min n (4096 - va % 4096)
    (va, k) :: cutPages f (va + k) (n - k)

def pagesOf (va n : Nat) : List (Nat × Nat) := cutPages (n / 4096 + 2) va n

/-- The first page of a range that cannot be accessed, with its address. -/
def State.badPage (s : State) (root va n : Nat) (need : Need) : Option (NoPage × Nat) :=
  (pagesOf va n).findSome? (fun p => match s.pageAt root p.1 need with | .ok _ => none | .error e => some (e, p.1))

/-- The bytes of a range as a number, where every page is accessible. -/
def State.readV (s : State) (root va n : Nat) : Nat :=
  ((pagesOf va n).foldl (fun (a : Nat × Nat) p =>
    let v := match s.pageAt root p.1 .rd with | .ok pa => s.readPhys pa p.2 | .error _ => 0
    (a.1 + v * 2 ^ (8 * a.2), a.2 + p.2)) (0, 0)).1

/-- Bytes written to a range, page by page. -/
def State.writeV (s : State) (root va n v : Nat) : State :=
  ((pagesOf va n).foldl (fun (a : State × Nat) p =>
    (match a.1.pageAt root p.1 .wr with
      | .ok pa => a.1.writePhys pa (toBytes p.2 (v / 2 ^ (8 * a.2)))
      | .error _ => a.1, a.2 + p.2)) (s, 0)).1

/-! ## Region control blocks (R383 to R385) -/

/-- n bytes at offset o of a structure. -/
def fld (b o n : Nat) : Nat := b / 2 ^ (8 * o) % 2 ^ (8 * n)

/-- Bits of OVR. -/
def ovr (b i : Nat) : Bool := bitN (fld b 9 1) i

/-- R383 and R384 of a block that stands at a level. -/
def rcbHead (b level : Nat) : Bool :=
  fld b 8 1 == level && decide (fld b 9 1 < 64) && fld b 15 1 == 0 && fld b 20 12 == 0
    && (level ≠ 0 || fld b 9 1 == 0x3F) && (!(level == 0 || level == 4) || fld b 0 8 == 0)
    && (!ovr b 0 || (decide (1 ≤ fld b 12 2) && decide (fld b 12 2 ≤ 192)))
    && (!ovr b 1 || (decide (1 ≤ fld b 16 2) && decide (fld b 16 2 ≤ 6144)))
    && (!ovr b 2 || decide (fld b 18 2 ≤ 1024))
    && (!ovr b 3 || decide (fld b 14 1 < 8))
    && (!ovr b 4 || decide (fld b 10 1 ≤ 5))
    && (!ovr b 5 || decide (fld b 11 1 ≤ 2))

/-- R385. -/
def rcbBody (b level : Nat) (shielded : Bool) : Bool :=
  match level with
  | 0 => fld b 32 96 == 0
  | 1 => fld b 32 24 ≠ 0 && fld b 56 72 == 0
  | 2 => (shielded || (fld b 32 8 / 2 ^ 48 == 0 && fld b 32 8 % 4096 == 0))
      && fld b 56 8 % 64 == 0 && fld b 64 4 % 64 == 0 && fld b 70 58 == 0
  | 3 => fld b 32 8 % 64 == 0 && fld b 40 8 % 16 == 0 && fld b 48 8 % 32 == 0
      && decide (fld b 56 1 ≤ 8) && (fld b 56 1 ≠ 0 || fld b 48 8 == 0)
      && decide (fld b 57 1 < 4) && fld b 58 2 == 0
      && fld b 64 8 % 65536 == 0 && (fld b 60 4 ≠ 0 || fld b 64 8 == 0) && fld b 86 2 == 0
  | _ => true

/-- The effective fields: inherited, clamped to the parent's budget, or raised to its class (R21, R384). -/
def rcbEff (parent : Option Rcb) (addr b : Nat) : Rcb :=
  match parent with
  | none => ⟨addr, fld b 10 1, fld b 11 1, fld b 12 2, fld b 14 1, fld b 16 2, fld b 18 2⟩
  | some p =>
    { addr := addr
      cls := if ovr b 4 then max (fld b 10 1) p.cls else p.cls
      fdom := if ovr b 5 then fld b 11 1 else p.fdom
      cores := if ovr b 0 then min (fld b 12 2) p.cores else p.cores
      phase := if ovr b 3 then min (fld b 14 1) p.phase else p.phase
      gran := if ovr b 1 then min (fld b 16 2) p.gran else p.gran
      banks := if ovr b 2 then min (fld b 18 2) p.banks else p.banks }

/-! ## Graph images (R386, R387) -/

def edgeOf (b e nnode : Nat) : Option (Option Edge) :=
  let w := fld b (64 + 4 * e) 4
  if bits w 30 24 ≠ 0 ∨ bits w 15 12 ≠ 0 then none
  else if !bitN w 31 then some none
  else if bits w 23 16 = 0 ∨ nnode ≤ bits w 11 0 then none
  else some (some ⟨bits w 23 16, bits w 11 0⟩)

/-- The fields of a descriptor. -/
def descNode (b nnode : Nat) (rcb : Rcb) : Node :=
  { code := fld b 0 8, kind := fld b 8 1, rsz := 16 * 2 ^ fld b 9 1, b := 8 * 2 ^ fld b 10 1, pre := fld b 11 1
    nreg := fld b 12 2, regg := fld b 14 1, l1g := fld b 15 1, scrb := fld b 16 2, nbar := fld b 18 2, cspill := fld b 20 4
    gwaves := fld b 24 1, ncbar := fld b 25 1, clu := fld b 26 1 % 4, clun := bits (fld b 26 1) 4 2 + 1
    mxuse := bitN (fld b 26 1) 7, ord := bitN (fld b 27 1) 0, recsp := bitN (fld b 27 1) 1, linger := fld b 28 4
    fpctl := fld b 32 4, qcap := fld b 36 2, sdepth := fld b 38 2, ru := fld b 40 2
    edges := (List.range 8).map (fun e => (edgeOf b e nnode).getD none), rcb := rcb }

/-- R386 and R387 of a descriptor, with the split of R72, the register count of R75 and FPCTL of R129. -/
def nodeOk (b nnode : Nat) : Bool :=
  let n := descNode b nnode {}
  decide (fld b 8 1 ≤ 4) && decide (fld b 9 1 ≤ 3) && decide (fld b 10 1 ≤ 2)
    && bits (fld b 26 1) 6 5 == 0 && n.clu ≠ 3 && decide (fld b 27 1 < 4)
    && decide (8 ≤ n.qcap) && fld b 42 22 == 0
    && (if n.kind = 4 then decide (1 ≤ n.ru) && decide (n.ru ≤ 96) else n.ru == 0)
    && (List.range 8).all (fun e => (edgeOf b e nnode).isSome)
    && (n.clu == 0 || n.kind == 0)
    && (if n.kind ≤ 1 then
        decide (n.regg + n.l1g ≤ 32) && n.regg % 4 == 0 && decide (4 ≤ n.regg) && decide (n.regg ≤ 28)
          && decide (2 ≤ n.l1g) && decide (n.l1g ≤ 24) && decide (32 - n.regg - n.l1g ≤ 26)
          && decide (n.pre ≤ 32) && decide (n.pre ≤ n.rsz / 4) && decide (n.pre ≤ n.nreg)
          && decide (8 ≤ n.nreg) && decide (n.nreg ≤ 384) && decide (n.scrb ≤ 32 * (32 - n.regg - n.l1g))
          && decide (n.nbar ≤ 256) && n.cspill % 512 == 0 && decide (n.cspill ≤ 851968)
          && decide (1 ≤ n.gwaves) && decide (n.gwaves ≤ 16) && decide (n.ncbar ≤ n.nbar)
      else fld b 0 8 == 0 && fld b 11 15 == 0)
    && (fpctlOf n.fpctl).toNat == n.fpctl

/-- The rules of the fixed nodes (R422, R437, R340): record size, order and edges. -/
def fixedOk (nodes : List Node) (n : Node) : Bool :=
  let to64 := fun (e : Option Edge) (rsz : Nat) (one : Bool) => match e with
    | some d => ((nodes[d.tgt]?).getD {}).rsz == rsz && (!one || d.e == 1)
    | none => false
  let none_ := fun k => (n.edges.drop k).all Option.isNone
  match n.kind with
  | 2 => n.rsz == 128 && n.ord && to64 (n.edge 0) 64 false && none_ 1
  | 3 => n.rsz == 64 && !n.ord && to64 (n.edge 0) 64 true && to64 (n.edge 1) 64 true && none_ 2
  | 4 => n.rsz == 64 && !n.ord && to64 (n.edge 0) 16 true && none_ 1
  | _ => true

/-! ## The shape of the graph (R387, R388 code 4) -/

/-- Targets of a node other than itself. -/
def Node.succ (n : Node) (i : Nat) : List Nat :=
  (n.edges.filterMap (fun e => e.map (fun d => d.tgt))).filter (fun t => t ≠ i)

/-- Nodes that the set reaches in at most k steps. -/
def reach (nodes : List Node) : Nat → List Nat → List Nat
  | 0, l => l
  | k + 1, l => reach nodes k ((List.range nodes.length).filter (fun t =>
      l.contains t || l.any (fun m => (((nodes[m]?).getD {}).succ m).contains t)))

/-- The node lies on a cycle of several nodes. -/
def onCycle (nodes : List Node) (i : Nat) : Bool :=
  (reach nodes nodes.length (((nodes[i]?).getD {}).succ i)).contains i

def Node.selfEdge (n : Node) (i : Nat) : Bool := n.edges.any (fun e => match e with | some d => decide (d.tgt = i) | none => false)

/-- DEPTH of every node of a graph without cycles: longest paths from ENTRY, by relaxation. -/
def depths (nodes : List Node) (entry : Nat) : List (Option Nat) :=
  (List.range nodes.length).foldl (fun (d : List (Option Nat)) _ =>
    (List.range nodes.length).map (fun t =>
      let from_ := (List.range nodes.length).filterMap (fun m =>
        if (((nodes[m]?).getD {}).succ m).contains t then ((d[m]?).getD none).map (· + 1) else none)
      match ((d[t]?).getD none).toList ++ from_ with
      | [] => none
      | l => some (l.foldl max 0)))
    ((List.range nodes.length).map (fun t => if t = entry then some 0 else none))

/-! ## Fit on empty cores (R388 code 5) -/

/-- Registers of a wave (R75). -/
def Node.rows (n : Node) : Nat := (n.nreg + 7) / 8 * 8
/-- Granules of a group (R384). -/
def Node.grans (n : Node) (waves : Nat) : Nat := (waves * n.nreg * 128 + n.scrb * 1024 + 32767) / 32768

/-- A cluster of a die that belongs to the partition whole. -/
def wholeCluster (cmask die k : Nat) : Bool := bits cmask (96 * die + 8 * k + 7) (96 * die + 8 * k) == 255

/-- The node's group or cluster fits empty cores of the partition within its budgets. -/
def Node.fitsEmpty (n : Node) (cmask : Nat) : Bool :=
  let groups := if n.clu = 0 then 1 else n.clun * n.clu
  n.kind ≥ 2 ||
    ((placeWaves (8 * n.regg) n.rows n.gwaves []).isSome && decide (groups ≤ n.rcb.cores)
      && decide (groups * n.grans n.gwaves ≤ n.rcb.gran)
      && (let some_ := fun die => (List.range 12).any (wholeCluster cmask die)
          match n.clu with
          | 0 => true
          | 1 => some_ 0 || some_ 1
          | _ => some_ 0 && some_ 1))

/-! ## Carve records (R349) -/

def carveOf (b : Nat) : Option Carve :=
  let f := fld b 13 1
  if fld b 0 8 % 65536 ≠ 0 ∨ 2 ^ 57 ≤ fld b 0 8 ∨ fld b 8 4 = 0 ∨ 16384 < fld b 8 4 ∨ fld b 12 1 = 0 ∨ 4 ≤ fld b 12 1
      ∨ 16 ≤ f ∨ fld b 14 18 ≠ 0 then none
  else some ⟨fld b 0 8, fld b 8 4 * 65536, fld b 12 1, bitN f 0, bitN f 1, bitN f 2, bitN f 3⟩

/-- Two regions share a byte on a die. -/
def Carve.meets (a b : Carve) : Bool :=
  Nat.land a.dies b.dies ≠ 0 && decide (a.vbase < b.vbase + b.size) && decide (b.vbase < a.vbase + a.size)

def carvesOk (l : List Carve) : Bool :=
  (List.range l.length).all (fun i => (List.range i).all (fun j => match l[i]?, l[j]? with
    | some a, some b => !a.meets b
    | _, _ => true))

/-- Banks of a region on each die that carves it. -/
def Carve.banks (c : Carve) : Nat := (c.size + 2 ^ 21 - 1) / 2 ^ 21
def Carve.on (c : Carve) (die : Nat) : Bool := bitN c.dies die

/-- Queue banks of a launch on each die (R389). -/
def Launch.queueBanks (l : Launch) : Nat :=
  (l.nodes.foldl (fun v n => v + n.qcap * n.rsz) 0 + 2 ^ 21 - 1) / 2 ^ 21
/-- Banks of a launch on a die. -/
def Launch.banksOn (l : Launch) (die : Nat) : Nat :=
  l.queueBanks + (l.carves.filter (fun c => c.on die)).foldl (fun v c => v + c.banks) 0

/-! ## A launch (R388) -/

/-- A rejection: its code, the node that the check concerns, and the context, where its RCB can be read. -/
structure Reject where
  code : Nat
  node : Nat := 0
  ctxid : Option Nat := none
  deriving DecidableEq, Repr

/-- The first index below n that fails. -/
def firstBad (n : Nat) (bad : Nat → Bool) : Option Nat := lowest n bad

/-- The protected root of a context (R460). -/
def State.protectedRoot (s : State) (ctxid : Nat) : Option Nat :=
  s.cdie.roots.findSome? (fun p => match p.2 with | some (c, r) => if c = ctxid then some r else none | none => none)

/-- FRESH of a launch RCB (R385). -/
def State.freshOf (s : State) (lrcb : Nat) : Bool := bitN (fld (s.readPhys lrcb 128) 57 1) 1

/-- An RCB as it stands in memory, if it can be read. -/
def State.rcbNow (s : State) (a : Nat) : Option Nat := if s.memOk a 128 then some (s.readPhys a 128) else none

/-- An RCB as a launch reads it: its current bytes, or without FRESH those that the Funel keeps (R400). -/
def State.rcbBytes (s : State) (fresh : Bool) (a : Nat) : Option Nat :=
  match s.kept.rcbs.find? (fun p => p.1 = a) with
  | some p => if !fresh && Config.choice s.tick (2 * a) then some p.2 else s.rcbNow a
  | none => s.rcbNow a

/-- The kept graph image that a launch without FRESH uses (R400). -/
def State.imageKept (s : State) (fresh : Bool) (root graph : Nat) : Option KeptImage :=
  match s.kept.images.find? (fun i => i.root = root ∧ i.addr = graph) with
  | some i => if !fresh && Config.choice s.tick (2 * graph + 1) then some i else none
  | none => none

/-- The RCBs of a launch from its own up to the device's (R384): address and bytes, or why not. -/
def State.readPath (s : State) (fresh : Bool) : List Nat → Nat → Except Nat (List (Nat × Nat))
  | [], _ => .ok []
  | lv :: r, a =>
    if a % 128 ≠ 0 then .error 1
    else match s.rcbBytes (fresh || lv == 3) a with
      | none => .error 11
      | some b =>
        if !rcbHead b lv || !rcbBody b lv (lv == 2 && (s.protectedRoot (fld b 68 2)).isSome) then .error 1
        else match s.readPath fresh r (fld b 0 8) with
          | .error e => .error e
          | .ok l => .ok ((a, b) :: l)

/-- The context that an RCB path names, if it can be read (R402). -/
def State.contextOf (s : State) (lrcb : Nat) : Option Nat :=
  match s.rcbNow lrcb with
  | none => none
  | some l => match s.rcbBytes (s.freshOf lrcb) (fld l 0 8) with
    | none => none
    | some b => if fld b 8 1 = 2 then some (fld b 68 2) else none

/-- Another partition of the same device with a live launch shares a core (R385). -/
def State.cmaskClash (s : State) (device part cmask : Nat) : Bool :=
  s.launches.any (fun l => match l.path with
    | d :: p :: _ => decide (d.addr = device) && decide (p.addr ≠ part) && Nat.land l.cmask cmask ≠ 0
    | _ => false)

/-- Descriptors of an image, read one by one. -/
def State.readNodes (s : State) (root graph n : Nat) : Option (List Nat) :=
  if (s.badPage root (graph + 64) (128 * n) .rd).isSome then none
  else some ((List.range n).map (fun i => s.readV root (graph + 64 + 128 * i) 128))

/-- The header of the image that a launch uses, and its descriptors (R400). -/
def State.imageHead (s : State) (fresh : Bool) (root graph : Nat) : Nat :=
  match s.imageKept fresh root graph with
  | some i => i.head
  | none => s.readV root graph 64
def State.imageNodes (s : State) (fresh : Bool) (root graph n : Nat) : Option (List Nat) :=
  match s.imageKept fresh root graph with
  | some i => some i.descs
  | none => s.readNodes root graph n

/-- The spill area's pages are resident with RD and WR. -/
def State.spillOk (s : State) (root spill n : Nat) : Bool := (s.badPage root spill n .rdwr).isNone

/-- Codes 4 to 6 and 9 on the nodes of a launch, and the carve records between. -/
def State.checkRest (s : State) (l : Launch) (b3 : Nat) : Except Reject Launch :=
  let nodes := l.nodes
  let k := nodes.length
  let at_ := fun i => (nodes[i]?).getD {}
  let reached := reach nodes k [l.entry]
  let bOf := fun (n : Node) => if n.kind ≤ 1 then n.b else 1
  match firstBad k (fun i => onCycle nodes i || !reached.contains i || ((at_ i).selfEdge i != decide (1 ≤ (at_ i).sdepth))) with
  | some i => .error { code := 4, node := i }
  | none =>
  match firstBad k (fun i => !(at_ i).fitsEmpty l.cmask || (s.cdie.stage == 2 && decide (2 ^ 96 ≤ l.cmask))) with
  | some i => .error { code := 5, node := if s.cdie.stage = 2 ∧ 2 ^ 96 ≤ l.cmask then 0 else i }
  | none =>
  match firstBad k (fun t => decide ((at_ t).qcap < bOf (at_ t)) || (List.range k).any (fun n => (at_ n).edges.any (fun e =>
      match e with
      | some d => decide (d.tgt = t) && decide ((at_ t).qcap < bOf (at_ t) - 1 + bOf (at_ n) * d.e)
      | none => false))) with
  | some i => .error { code := 6, node := i }
  | none =>
  let nc := fld b3 56 1
  let ca := fld b3 48 8
  if nc ≠ 0 ∧ (s.badPage l.root ca (32 * nc) .rd).isSome then .error { code := 11 }
  else
    let cs := (List.range nc).map (fun i => carveOf (s.readV l.root (ca + 32 * i) 32))
    let l1 := { l with carves := cs.filterMap id, spill := fld b3 64 8, spillsz := fld b3 60 4 * 65536 }
    let budget := (l.path.getLastD {}).banks
    if cs.any Option.isNone || !carvesOk l1.carves || decide (budget < l1.banksOn 0 + l1.banksOn 1) then .error { code := 7 }
    else if (l1.spillsz ≠ 0 && !s.spillOk l.root l1.spill l1.spillsz) || decide (l1.spillsz < l1.selfShare) then
      .error { code := 8 }
    else match firstBad k (fun i =>
        let n := at_ i
        decide (n.kind ≤ 1) && decide (n.scrb * 1024 < n.gwaves * n.cspill + (if n.recsp then n.gwaves * n.b * n.rsz else 0))) with
      | some i => .error { code := 9, node := i }
      | none => .ok l1

/-- R388 in its order, but for code 10 and the launch record: the launch as checked, or its rejection. The RCBs of the nodes are
checked under code 1, so the image is read before code 2. -/
def State.checkLaunch (s : State) (lrcb : Nat) : Except Reject Launch :=
  let fresh := s.freshOf lrcb
  match s.readPath fresh [3, 2, 1, 0] lrcb with
  | .error e => .error { code := e }
  | .ok [(a3, b3), (a2, b2), (a1, b1), (a0, b0)] =>
    let e0 := rcbEff none a0 b0
    let e1 := rcbEff (some e0) a1 b1
    let e2 := rcbEff (some e1) a2 b2
    let e3 := rcbEff (some e2) a3 b3
    let ctxid := fld b2 68 2
    let root := (s.protectedRoot ctxid).getD (fld b2 32 8)
    let graph := fld b3 32 8
    if s.cmaskClash a0 a1 (fld b1 32 24) then .error { code := 1 }
    else if (s.imageKept fresh root graph).isNone && (s.badPage root graph 64 .rd).isSome then .error { code := 11 }
    else
      let h := s.imageHead fresh root graph
      let n := fld h 2 2
      match s.imageNodes fresh root graph n with
        | none => .error { code := 11 }
        | some ds =>
          let rcb := fun (i : Nat) => fld ((ds[i]?).getD 0) 96 32
          match firstBad n (fun i => !rcbHead (rcb i) 4) with
          | some i => .error { code := 1, node := i }
          | none =>
            if fld h 0 2 ≠ 1 ∨ n = 0 ∨ 1024 < n ∨ n ≤ fld h 4 2 ∨ fld h 6 58 ≠ 0 then .error { code := 2 } else
            let nodes := (List.range n).map (fun i => descNode ((ds[i]?).getD 0) n (rcbEff (some e3) 0 (rcb i)))
            match firstBad n (fun i => !nodeOk ((ds[i]?).getD 0) n || !fixedOk nodes ((nodes[i]?).getD {})) with
            | some i => .error { code := 3, node := i }
            | none =>
              let dep := depths nodes (fld h 4 2)
              let nodes := (List.range n).map (fun i => { (nodes[i]?).getD {} with depth := ((dep[i]?).getD none).getD 0 })
              let l : Launch :=
                { lrcb := lrcb, ctxid := ctxid, root := root, saveh := fld b2 40 8, resth := fld b2 48 8
                  savebase := fld b2 56 8, savesz := fld b2 64 4, path := [e0, e1, e2, e3], cmask := fld b1 32 24
                  nodes := nodes, entry := fld h 4 2 }
              s.checkRest l b3
  | .ok _ => .error { code := 11 }

/-- The launch record of a checked launch, if it can be read. -/
def State.firstRecord (s : State) (l : Launch) : Option (List Word) :=
  let rsz := (l.node l.entry).rsz
  let a := fld (s.readPhys l.lrcb 128) 40 8
  if (s.badPage l.root a rsz .rd).isSome then none
  else
    let v := s.readV l.root a rsz
    some ((List.range (rsz / 4)).map (fun i => .ofNat 32 (v / 2 ^ (32 * i))))

/-- The Funel keeps the structures of a launch that has passed its checks, 64 of each kind (R400). -/
def State.keepLaunch (s : State) (l : Launch) : State :=
  let fresh := s.freshOf l.lrcb
  let graph := fld (s.readPhys l.lrcb 128) 32 8
  let rcbs := (l.path.take 3).filterMap (fun r => (s.rcbBytes fresh r.addr).map (fun b => (r.addr, b)))
  let image : KeptImage := ⟨l.root, graph, s.imageHead fresh l.root graph,
    (s.imageNodes fresh l.root graph l.nodes.length).getD []⟩
  { s with kept :=
    { rcbs := (rcbs ++ s.kept.rcbs.filter (fun p => rcbs.all (fun q => q.1 ≠ p.1))).take 64
      images := (image :: s.kept.images.filter (fun i => !(i.root = l.root ∧ i.addr = graph))).take 64 } }

/-- DEP of a launch RCB (R385). -/
def State.depOf (s : State) (lrcb : Nat) : Bool := bitN (fld (s.readPhys lrcb 128) 57 1) 0

end Sys2Proof.Machine
end

