-- ==== Sys2Proof/Machine/Gather.lean ====
section
/-!
DEFINITION. Machine/Gather.lean: the Gather forms batches and groups (R390 to R395).
-/
namespace Sys2Proof.Machine

/-! ## Records and batches -/

/-- Batches of a range record (R393), and those not yet taken. -/
def Rcd.count (r : Rcd) : Nat := (r.words.headD 0).toNat
def Rcd.batches (b : Nat) (r : Rcd) : Nat := (r.count + b - 1) / b
def Rcd.untaken (b : Nat) (r : Rcd) : Nat := r.batches b - r.taken

/-- Batch w of a range record. -/
def Rcd.rangeBatch (b : Nat) (r : Rcd) : Batch :=
  { lanes := min b (r.count - r.taken * b), recs := [r.words], depths := [r.self], range := some (r.count, r.taken) }

/-- The batch of these records (R392). -/
def recordBatch (rs : List Rcd) : Batch := { lanes := rs.length, recs := rs.map (fun r => r.words), depths := rs.map (fun r => r.self) }

/-- Range records at the head that count 0 are consumed and form nothing. -/
def dropEmpty : List Rcd → List Rcd
  | [] => []
  | r :: q => if r.count = 0 then dropEmpty q else r :: q

/-- At most `want` batches of range records from the head, and what remains. -/
def takeRange (b : Nat) : Nat → List Rcd → List Batch × List Rcd
  | 0, q => ([], dropEmpty q)
  | k + 1, q => match dropEmpty q with
    | [] => ([], [])
    | r :: q' =>
      let r' := { r with taken := r.taken + 1 }
      let t := takeRange b k (if r'.untaken b = 0 then q' else r' :: q')
      (r.rangeBatch b :: t.1, t.2)

/-! ## When batches may form (R390) -/

/-- The sub-queue holds less than a batch, and its oldest record was appended more than LINGER ns ago. -/
def State.lingers (s : State) (n : Node) (die : Nat) (q : List Rcd) : Bool :=
  n.linger ≠ 0 && decide (q.length < n.b) && (match q with
    | r :: _ => decide (n.linger < ((s.die die).watch.toNat + 2 ^ 64 - r.born) % 2 ^ 64 * 10)
    | [] => false)

/-- The records that the sub-queue held when its oldest one had waited for LINGER ns: those that a linger takes (R421; log entry 30). -/
def Node.lingered (n : Node) (q : List Rcd) : Nat :=
  (q.takeWhile (fun r => decide ((r.born + 2 ^ 64 - (q.headD r).born) % 2 ^ 64 * 10 ≤ n.linger))).length

/-- The launch forms and places groups: accepted, banked, its context not pre-empted (R403). -/
def State.forms (s : State) (l : Launch) : Bool := l.banked && !s.preempted l.ctxid

/-- A batch of the node is formable on a die. -/
def State.formable (s : State) (l : Launch) (nd die : Nat) : Bool :=
  let n := l.node nd
  let q := l.queue nd die
  s.forms l && decide (n.kind ≤ 1) && !q.isEmpty && l.inTurn nd die &&
    (n.clu ≠ 0 || n.kind == 1 || decide (n.b ≤ q.length) || s.closed l nd || s.lingers n die q)

/-- Wave slots of a die's cores that are free; in stage 2 die 1 does not exist (R465). -/
def State.dieSlots (s : State) (die : Nat) : Nat :=
  if die = 1 ∧ s.cdie.stage = 2 then 0 else 96 * 64 - (s.waves.filter (fun p => p.2.valid && decide (p.1 / 64 / 99 = die) && decide (p.1 / 64 % 99 < 96))).length

/-- Waves of a formed group or cluster on a die. -/
def Formed.wavesOn (n : Node) (f : Formed) (die : Nat) : Nat :=
  if n.clu = 0 then (if f.die = die then f.batches.length else 0)
  else if n.clu = 2 ∨ f.die = die then n.clun * n.gwaves else 0

/-- Waves of the groups that wait on a die. -/
def State.waiting (s : State) (die : Nat) : Nat :=
  s.launches.foldl (fun v l => l.formed.foldl (fun v f => v + f.wavesOn (l.node f.node) die) v) 0

/-- R391's condition on a new group. -/
def State.mayForm (s : State) (die : Nat) : Bool := decide (s.waiting die < s.dieSlots die)

/-! ## Forming -/

/-- A group, or the groups of a cluster, join those that wait; `src` is the die whose sub-queue gives the records. -/
def Launch.form (l : Launch) (nd die src : Nat) (bs : List Batch) (q : List Rcd) : Launch :=
  let n := l.node nd
  { l.setQueue nd src q with
    formed := l.formed ++ [⟨die, nd, l.nextGno, bs⟩]
    nextGno := l.nextGno + (if n.clu = 0 then 1 else n.clun * n.clu) }

/-- The group that a die is forming is complete. -/
def Launch.close (l : Launch) (nd die : Nat) : Launch :=
  if (l.openOf nd die).isEmpty then l
  else { l.form nd die die (l.openOf nd die) (l.queue nd die) with opened := l.opened.set [] (2 * nd + die) [] }

/-- A batch is taken from the head of a die's sub-queue, which leaves q, into the group that the die is forming. The group is complete with
its last wave, where the sub-queue is empty (R391), or at once. -/
def Launch.takeBatch (l : Launch) (nd die : Nat) (b : Batch) (q : List Rcd) (now : Bool) : Launch :=
  let bs := l.openOf nd die ++ [b]
  let l1 : Launch := { l.setQueue nd die q with opened := l.opened.set [] (2 * nd + die) bs }
  if now || decide (l.maxWaves nd ≤ bs.length) || q.isEmpty then l1.close nd die else l1

/-- The Gather of a die may take a batch of the node: its turn in stamp order (R389), and for a new group R391's condition. -/
def State.mayTake (s : State) (l : Launch) (nd die : Nat) : Bool :=
  l.inTurn nd die && (s.mayForm die || !(l.openOf nd die).isEmpty)

/-- The one cluster record that starts a cluster (R394). -/
def clusterBatch (n : Node) (r : Rcd) : Batch := { lanes := n.b, recs := [r.words], depths := [r.self] }

/-- GATHER_FULL (R390, R391, R393, R394): a full batch, a batch of a range record, or a cluster. -/
def execGatherFull (die launch node : Nat) (s : State) : Host.Outcome State Fault Refusal :=
  .next (match s.launch? launch with
    | none => s
    | some l =>
      let n := l.node node
      let q := l.queue node die
      if !s.forms l || decide (1 < n.kind) then s
      else if n.kind = 1 ∧ (dropEmpty q).length < q.length then
        s.modLaunch launch (fun l => (fun (l : Launch) => if (dropEmpty q).isEmpty then l.close node die else l) (l.setQueue node die (dropEmpty q)))
      else if !s.mayTake l node die then s
      else if n.clu ≠ 0 then
        match q with
        | [] => s
        | r :: q' => s.modLaunch launch (fun l => l.form node die die [clusterBatch n r] q')
      else if n.kind = 1 then
        match takeRange n.b 1 q with
        | (b :: _, q') => s.modLaunch launch (fun l => l.takeBatch node die b q' false)
        | ([], _) => s
      else if n.b ≤ q.length then s.modLaunch launch (fun l => l.takeBatch node die (recordBatch (q.take n.b)) (q.drop n.b) false)
      else s)

/-- A batch of the k oldest of fewer than B records, the last of its group, which a counter counts. -/
def State.formPart (s : State) (l : Launch) (node die k : Nat) (f : Launch → Launch) : State :=
  let n := l.node node
  let q := l.queue node die
  if s.forms l && n.kind == 0 && n.clu == 0 && !q.isEmpty && decide (q.length < n.b) && s.mayTake l node die then
    s.modLaunch l.seq (fun l => f (l.takeBatch node die (recordBatch (q.take k)) (q.drop k) true))
  else s

/-- INFLOW_CLOSE (R390). -/
def execInflowClose (die launch node : Nat) (s : State) : Host.Outcome State Fault Refusal :=
  .next (match s.launch? launch with
    | none => s
    | some l => if s.closed l node then s.formPart l node die (l.queue node die).length (fun l => { l with underc := l.underc + 1 }) else s)

/-- GATHER_LINGER (R390). -/
def execGatherLinger (die launch node : Nat) (s : State) : Host.Outcome State Fault Refusal :=
  .next (match s.launch? launch with
    | none => s
    | some l =>
      if s.lingers (l.node node) die (l.queue node die) then
        s.formPart l node die ((l.node node).lingered (l.queue node die)) (fun l => { l with underl := l.underl + 1 })
      else s)

/-! ## Service order (R397) and stealing (R395) -/

/-- Class, depth from below, launch, node. -/
def Launch.rank (l : Launch) (nd : Nat) : Nat × Nat × Nat × Nat := ((l.node nd).rcb.cls, 2048 - (l.node nd).depth, l.seq, nd)

/-- Nodes of every launch. -/
def State.allNodes (s : State) : List (Launch × Nat) := s.launches.flatMap (fun l => (List.range l.nodes.length).map (fun n => (l, n)))

/-- The first in service order. -/
def firstServed (l : List (Launch × Nat)) : Option (Launch × Nat) :=
  leastBy (fun a b => keyLt (a.1.rank a.2) (b.1.rank b.2)) l

/-- The partition of a launch has a core on a die (R385). -/
def Launch.hasDie (l : Launch) (die : Nat) : Bool := bits l.cmask (96 * die + 95) (96 * die) != 0

/-- Records may be stolen from the node's sub-queue on the other die, for cores of the launch's partition. -/
def State.stealable (s : State) (l : Launch) (nd die : Nat) : Bool :=
  let n := l.node nd
  s.forms l && l.hasDie die && decide (n.kind ≤ 1) && n.clu == 0 && !n.ord && decide (2 * n.b ≤ (l.queue nd (1 - die)).length)
    && (n.kind == 0 || !(dropEmpty (l.queue nd (1 - die))).isEmpty)

/-- GATHER_STEAL (R395), under R391's condition on a new group. -/
def execGatherSteal (die launch node : Nat) (s : State) : Host.Outcome State Fault Refusal :=
  .next (if !s.mayForm die || s.allNodes.any (fun p => s.formable p.1 p.2 die) then s
    else match firstServed (s.allNodes.filter (fun p => s.stealable p.1 p.2 die)) with
      | none => s
      | some (l, nd) =>
        if l.seq ≠ launch ∨ nd ≠ node then s
        else
          let n := l.node nd
          let q := l.queue nd (1 - die)
          let t := if n.kind = 1 then takeRange n.b (l.maxWaves nd) q else ([recordBatch (q.take n.b)], q.drop n.b)
          s.modLaunch launch (fun l =>
            let l1 : Launch := { l.form nd die (1 - die) t.1 t.2 with steals := l.steals + 1 }
            if t.2.isEmpty then l1.close nd (1 - die) else l1))

end Sys2Proof.Machine
end

