-- ==== Sys2Proof/Machine/Groups.lean ====
section
/-!
DEFINITION. Machine/Groups.lean: where groups and clusters fit (R76 to R79, R384), their admission (R396, R397), their
start (R80, R209, R392), and the change of a core's split (R73).
-/
namespace Sys2Proof.Machine

/-! ## The split of a core (R72, R73) -/

/-- No queued copy or matrix command. -/
def Core.idle (c : Core) : Bool := c.mx.items.isEmpty && c.mx.done.isEmpty && c.chans.all (fun p => p.2.cmds.isEmpty)

/-- R73: the core is empty. -/
def State.coreEmpty (s : State) (die core : Nat) : Bool :=
  let ck := coreKey die core
  let c := s.core ck
  (s.residents ck).isEmpty && s.freeTails ck == 32 && c.groups.isEmpty && c.idle && c.owner.isEmpty

/-- A new split: storage and owner bits are zero, the pointers of the copy channels (R289), and the sets of the matrix unit (R320). -/
def Core.resplit (regg l1g : Nat) (c : Core) : Core :=
  { c with regg := regg, l1g := l1g, scrg := 32 - regg - l1g, scratch := [], prior := [], owner := [], chans := [], mx := {} }

/-- SPLIT_CHANGE (R73). -/
def execSplitChange (die core regg l1g : Nat) (s : State) : Host.Outcome State Fault Refusal :=
  .next (if s.coreEmpty die core && decide (core < 96) && regg % 4 == 0 && decide (4 ≤ regg) && decide (regg ≤ 28)
      && decide (2 ≤ l1g) && decide (l1g ≤ 24) && decide (regg + l1g ≤ 32) && decide (32 - regg - l1g ≤ 26) then
      s.modCore (coreKey die core) (Core.resplit regg l1g)
    else s)

/-! ## Fit of one group on one core (R76) -/

/-- A place for a group: its die and core, the slots and first rows of its waves, its scratchpad run and its barriers. -/
structure Spot where
  die : Nat
  core : Nat
  waves : List WavePlace
  sbase : Nat
  bbase : Nat
  deriving DecidableEq, Repr

/-- The place of w waves on a core, with a run of scratchpad and nb barriers, `ws` being the waves that hold slots. -/
def State.spotAmong (s : State) (n : Node) (w nb die core : Nat) (ws : List (Nat × Wave)) : Option Spot :=
  let ck := coreKey die core
  let c := s.core ck
  if !(c.regg == n.regg && c.l1g == n.l1g) && !s.coreEmpty die core then none
  else match placeWaves (8 * n.regg) n.rows w ws, firstRun (32 * (32 - n.regg - n.l1g)) n.scrb c.kibFree, firstRun 256 nb c.barFree with
    | some ps, some sb, some bb => some ⟨die, core, ps, sb, bb⟩
    | _, _, _ => none

def State.spot (s : State) (n : Node) (w nb die core : Nat) : Option Spot :=
  s.spotAmong n w nb die core (s.residents (coreKey die core))

/-- Occupied wave slots of a core. -/
def State.occupied (s : State) (die core : Nat) : Nat := (s.residents (coreKey die core)).length

/-! ## Budgets (R384) -/

/-- Placed groups: core over both dies, launch, node, waves. -/
def State.placed (s : State) : List (Nat × Nat × Nat × Nat) :=
  s.cores.flatMap (fun p => p.2.groups.filterMap (fun g => match g.launch with
    | some q => if g.waves.isEmpty ∨ 96 ≤ p.1 % 99 then none else some (p.1, q, g.node, g.waves.length)
    | none => none))

/-- A group of launch q and node m counts in the subtree of level k on the path of a launch's node. -/
def State.inSubtree (s : State) (l : Launch) (nd k q m : Nat) : Bool :=
  if k = 4 then q == l.seq && m == nd
  else ((s.launch q).path[k]?).map (fun r => r.addr) == (l.path[k]?).map (fun r => r.addr)

/-- With the new groups, every RCB of the path keeps its budgets of cores and granules. -/
def State.budgetOk (s : State) (l : Launch) (nd : Nat) (spots : List Spot) : Bool :=
  let new := (spots.filter (fun p => !p.waves.isEmpty)).map (fun p => (coreKey p.die p.core, l.seq, nd, p.waves.length))
  (List.range 5).all (fun k =>
    let r := if k = 4 then (l.node nd).rcb else (l.path[k]?).getD {}
    let gs := s.placed.filter (fun g => s.inSubtree l nd k g.2.1 g.2.2.1) ++ new
    decide (((gs.map (fun g => g.1)).dedup).length ≤ r.cores)
      && decide (gs.foldl (fun v g => v + ((s.launch g.2.1).node g.2.2.1).grans g.2.2.2) 0 ≤ r.gran))

/-! ## Choice of a core or a cluster (R77, R78, R20) -/

/-- The core belongs to the partition and its matrix unit is not reserved (R385, R337). -/
def State.coreAllowed (s : State) (l : Launch) (n : Node) (die core : Nat) : Bool :=
  bitN l.cmask (96 * die + core) && !(n.mxuse && s.mxReserved core)

/-- The place for a group of w waves on a die; `ok` may turn a core away. -/
def State.pickCore (s : State) (l : Launch) (nd w die : Nat) (ok : Nat → Bool) : Option Spot :=
  let n := l.node nd
  let spots := (List.range 96).filterMap (fun c =>
    if s.coreAllowed l n die c && ok c then
      match s.spot n w n.nbar die c with
      | some p => if s.budgetOk l nd [p] then some p else none
      | none => none
    else none)
  leastBy (fun a b => decide (s.occupied die a.core < s.occupied die b.core)) spots

/-- The places of a cluster's members on cluster k: members beyond the groups only reserve their share. -/
def State.clusterSpots (s : State) (l : Launch) (nd die k : Nat) (ok : Nat → Bool) : Option (List Spot) :=
  let n := l.node nd
  (List.range 8).foldl (fun (a : Option (List Spot)) m =>
    match a with
    | none => none
    | some out =>
      let c := 8 * k + m
      if s.coreAllowed l n die c && ok c then
        (s.spot n (if m < n.clun then n.gwaves else 0) (if m < n.clun then n.nbar else 0) die c).map (fun p => out ++ [p])
      else none) (some [])

/-- The cluster of a die for a member set; places on the other die count in the budgets. -/
def State.pickCluster (s : State) (l : Launch) (nd die : Nat) (other : List Spot) (ok : Nat → Bool) : Option (List Spot) :=
  let all := (List.range 12).filterMap (fun k =>
    match s.clusterSpots l nd die k ok with
    | some ps => if s.budgetOk l nd (other ++ ps) then some ps else none
    | none => none)
  leastBy (fun a b => decide ((a.foldl (fun v p => v + s.occupied die p.core) 0) < (b.foldl (fun v p => v + s.occupied die p.core) 0))) all

/-- Places of a formed group or cluster, die 0's members first. -/
def State.pickSpots (s : State) (l : Launch) (nd w die clu : Nat) (ok : Nat → Nat → Bool) : Option (List Spot) :=
  match clu with
  | 0 => (s.pickCore l nd w die (ok die)).map (fun p => [p])
  | 1 => s.pickCluster l nd die [] (ok die)
  | _ => match s.pickCluster l nd 0 [] (ok 0) with
    | none => none
    | some a => (s.pickCluster l nd 1 a (ok 1)).map (fun b => a ++ b)

/-! ## Admission (R396, R397, R402, R403) -/

/-- Lanes of a formed group's waves on a die, wave by wave. -/
def Formed.lanesOn (n : Node) (f : Formed) (die : Nat) : List Nat :=
  if n.clu = 0 then (if f.die = die then f.batches.map (fun b => b.lanes) else [])
  else if n.clu = 2 ∨ f.die = die then List.replicate (n.clun * n.gwaves) n.b else []

/-- The reservations on both dies, edge by edge. -/
def State.admission (s : State) (l : Launch) (f : Formed) : Option (List (List (Nat × Nat))) :=
  let n := l.node f.node
  let a := fun die => (f.lanesOn n die).foldl (· + ·) 0
  match s.reserve l f.node 0 (a 0) with
  | none => none
  | some r0 =>
    let hold : FunelWave :=
      { launch := some l.seq, node := f.node
        resq := FMap.setMany 0 [] ((List.range 8).zip (r0.map Prod.fst))
        ress := FMap.setMany 0 [] ((List.range 8).zip (r0.map Prod.snd)) }
    (({ s with saved := s.saved ++ [⟨l.seq, 0, 0, 0, 0, 0, hold⟩] } : State).reserve l f.node 1 (a 1)).map (fun r1 => [r0, r1])

/-- The groups that may be placed next: the first waiting group of each node, which holds back the later ones of the node on both dies (R77;
log entry 80). -/
def Launch.heads (l : Launch) : List Formed :=
  l.formed.filter (fun f => !l.formed.any (fun g => decide (g.node = f.node) && decide (g.gno < f.gno)))

/-- Candidates of a die, whose launch may place groups. -/
def State.candidates (s : State) (die : Nat) : List (Launch × Formed) :=
  (s.launches.filter (fun l => s.forms l && s.predAllows l)).flatMap (fun l =>
    (l.heads.filter (fun f => decide (f.die = die))).map (fun f => (l, f)))

/-- The core as it would be, were it empty. -/
def State.emptied (s : State) (die core : Nat) : State :=
  let ck := coreKey die core
  { s.setCore ck { s.core ck with groups := [], chans := [], mx := {}, owner := [] } with
    waves := s.waves.filter (fun p => p.1 / 64 ≠ ck), tails := s.tails.filter (fun p => p.1 / 32 ≠ ck) }

/-- R73: a group of another split, admitted, fits no core, and would fit this one if it were empty. -/
def State.coreHeld (s : State) (n : Node) (die core : Nat) : Bool :=
  !s.coreEmpty die core && (s.candidates 0 ++ s.candidates 1).any (fun p =>
    let m := p.1.node p.2.node
    let w := p.2.batches.length
    decide ((m.regg, m.l1g) ≠ (n.regg, n.l1g)) && (p.2.die == die || m.clu == 2) && (s.admission p.1 p.2).isSome
      && (s.pickSpots p.1 p.2.node w p.2.die m.clu (fun _ _ => true)).isNone
      && (let s' := s.emptied die core
          if m.clu = 0 then (s'.pickCore p.1 p.2.node w die (fun c => c == core)).isSome
          else wholeCluster p.1.cmask die (core / 8) && (s'.spot m m.gwaves m.nbar die core).isSome))

/-- Places of a candidate, if it is admitted and fits. -/
def State.placeable (s : State) (l : Launch) (f : Formed) : Option (List Spot × List (List (Nat × Nat))) :=
  let n := l.node f.node
  match s.admission l f with
  | none => none
  | some r => (s.pickSpots l f.node f.batches.length f.die n.clu (fun die c => !s.coreHeld n die c)).map (fun ps => (ps, r))

/-- The candidate that a die serves next. -/
def State.nextPlaced (s : State) (die : Nat) : Option (Launch × Formed) :=
  leastBy (fun a b => keyLt (a.1.rank a.2.node) (b.1.rank b.2.node))
    ((s.candidates die).filter (fun p => (s.placeable p.1 p.2).isSome))

/-! ## Start of a group (R80, R209, R392 to R394) -/

/-- Words of the record that preload a lane. -/
def Batch.preload (n : Node) (b : Batch) (lane : Nat) : List Word :=
  let ws := (match b.recs[lane]? with | some r => r | none => b.recs.headD []).take n.pre
  match b.range with
  | some (_, w) => (match ws with | [] => [] | _ :: r => .ofNat 32 (w * n.b + lane) :: r)
  | none => ws

/-- Registers of a wave at its start. -/
def Batch.regs (n : Node) (b : Batch) : FMap Word :=
  (List.range b.lanes).foldl (fun m lane =>
    let ws := b.preload n lane
    FMap.setMany 0 m (((List.range ws.length).zip ws).map (fun p => (regKey p.1 lane, p.2)))) []

/-- Offset of wave i's record area in its group's scratchpad. -/
def Node.recArea (n : Node) (i : Nat) : Nat := n.scrb * 1024 - n.gwaves * n.cspill - (n.gwaves - i) * n.b * n.rsz

/-- A wave at its start. -/
def Launch.startWave (l : Launch) (nd gid gno i : Nat) (b : Batch) (p : WavePlace) (res : List (Nat × Nat)) : Wave :=
  let n := l.node nd
  { valid := true, n := n.rows, row := p.2, gid := gid, gi := i, ctxid := l.ctxid, root := some l.root
    div := { stack := [runE (.ofNat 57 n.code) 0 (.ofNat 32 (2 ^ b.lanes - 1))] }
    regs := b.regs n
    fpctl := .ofNat 32 n.fpctl
    recbase := if n.recsp then n.recArea i else 0xFFFFFFFF
    funel :=
      { launch := some l.seq, node := nd, gno := gno, batchn := if n.clu = 0 then b.lanes else 1, recs := b.recs, depths := b.depths
        shared := n.kind == 1 || n.clu ≠ 0, range := b.range
        resq := FMap.setMany 0 [] ((List.range 8).zip (res.map Prod.fst))
        ress := FMap.setMany 0 [] ((List.range 8).zip (res.map Prod.snd)) } }

/-- The record area of a wave takes its batch. -/
def Core.recordArea (n : Node) (g : Group) (c : Core) (i : Nat) (b : Batch) : Core :=
  if n.recsp then
    ((List.range b.recs.length).zip b.recs).foldl (fun (c : Core) p =>
      ((List.range p.2.length).zip p.2).foldl (fun (c : Core) q =>
        c.setScratchN (g.sbase * 1024 + n.recArea i + p.1 * n.rsz + 4 * q.1) 4 q.2.toNat) c) c
  else c

/-- What a cluster tells its members: its number, the core of member 0 and that of the other die's, and the waves of the
cluster on a die. -/
structure ClusterInfo where
  cid : Nat
  cbase : Nat
  straddle : Bool
  obase : Nat
  waves : Nat
  deriving DecidableEq, Repr

/-- Barrier i of a group at its placement. -/
def startBar (n : Node) (w m : Nat) (cl : Option ClusterInfo) (i : Nat) : Bar :=
  match cl with
  | some k => if i < n.ncbar then (if m = 0 then { kind := 2, exparr := k.waves, arr := k.waves } else { kind := 3 })
    else { kind := 1, exparr := w, arr := w }
  | none => { kind := 1, exparr := w, arr := w }

/-- A group takes its place: its scratchpad and owner bits are zero, its nb barriers set, its waves made by number. Its call spill
areas keep what they held (R282). -/
def State.placeGroup (s : State) (l : Launch) (nd gno m nb : Nat) (cl : Option ClusterInfo) (sp : Spot)
    (area : Group → Core → Core) (wave : Nat → Nat → WavePlace → Wave) : State :=
  let n := l.node nd
  let ck := coreKey sp.die sp.core
  let c0 := s.core ck
  let c1 := if c0.regg = n.regg ∧ c0.l1g = n.l1g then c0 else Core.resplit n.regg n.l1g c0
  let g : Group :=
    { id := c1.nextGid, launch := some l.seq, node := nd, gno := gno, waves := sp.waves.map Prod.fst, gwaves := n.gwaves
      cspill := n.cspill, sbase := sp.sbase, skib := n.scrb, bbase := sp.bbase, nb := nb
      nc := match cl with | some _ => n.ncbar | none => 0
      clu := cl.isSome, cid := match cl with | some k => k.cid | none => 0, cbase := match cl with | some k => k.cbase | none => 0
      straddle := match cl with | some k => k.straddle | none => false, obase := match cl with | some k => k.obase | none => 0 }
  let c2 : Core :=
    { c1 with
      scratch := c1.scratch.filter (fun p => !(decide (1024 * g.sbase ≤ p.1) && decide (p.1 < 1024 * g.sbase + g.sd)))
      prior := (c1.priorDrop (1024 * g.sbase) (1024 * (g.sbase + g.skib))).prior
      owner := c1.owner.filter (fun p => !(decide (g.sbase ≤ p.1) && decide (p.1 < g.sbase + g.skib)))
      bars := FMap.setMany {} c1.bars ((List.range g.nb).map (fun i => (g.bbase + i, startBar n sp.waves.length m cl i)))
      groups := c1.groups ++ [g], nextGid := c1.nextGid + 1, placed := true }
  ((List.range sp.waves.length).zip sp.waves).foldl (fun (s : State) p => s.setWave (ck * 64 + p.2.1) (wave g.id p.1 p.2))
    (s.setCore ck (area g c2))

/-- A new group starts with its batches. -/
def State.startGroup (s : State) (l : Launch) (nd gno m : Nat) (cl : Option ClusterInfo) (sp : Spot) (bs : List Batch)
    (res : List (List (Nat × Nat))) : State :=
  let n := l.node nd
  let batch := fun (i : Nat) => (bs[i]?).getD ⟨0, [], [], none⟩
  s.placeGroup l nd gno m (if sp.waves.isEmpty then 0 else n.nbar) cl sp
    (fun g c => (List.range sp.waves.length).foldl (fun c i => c.recordArea n g i (batch i)) c)
    (fun gid i p => l.startWave nd gid gno i (batch i) p ((res[i]?).getD []))

/-- Reservations of waves with these lanes, wave by wave, from the reservations by edge. -/
def Node.shares (n : Node) (lanes : List Nat) (res : List (Nat × Nat)) : List (List (Nat × Nat)) :=
  let cols := (List.range 8).map (fun e =>
    shareOut ((n.edge e).elim 0 (fun d => d.e)) lanes ((res[e]?).getD (0, 0)))
  (List.range lanes.length).map (fun i => cols.map (fun (u : List (Nat × Nat)) => (u[i]?).getD (0, 0)))

/-- A formed group or cluster starts at its places. -/
def State.startFormed (s : State) (l : Launch) (f : Formed) (spots : List Spot) (res : List (List (Nat × Nat))) : State :=
  let n := l.node f.node
  let rest := s.modLaunch l.seq (fun l =>
    { l with formed := l.formed.filter (fun g => g.gno ≠ f.gno)
             nwaves := l.nwaves + spots.foldl (fun v p => v + p.waves.length) 0 })
  let on := fun die => spots.filter (fun p => p.die == die)
  let base := fun die => ((on die).map (fun p => p.core)).headD 0
  [0, 1].foldl (fun s die =>
    let sh := n.shares (f.lanesOn n die) ((res[die]?).getD [])
    let sps := on die
    ((List.range sps.length).zip sps).foldl (fun s p =>
      if n.clu = 0 then s.startGroup l f.node f.gno 0 none p.2 f.batches sh
      else
        let cl : ClusterInfo := ⟨l.seq * 2 ^ 32 + f.gno, base die, n.clu == 2, base (1 - die), n.clun * n.gwaves⟩
        let first := if n.clu = 2 ∧ die = 1 then n.clun else 0
        s.startGroup l f.node (f.gno + first + p.1) p.1 (some cl) p.2
          (List.replicate n.gwaves (f.batches.headD ⟨0, [], [], none⟩)) (sh.drop (p.1 * n.gwaves))) s) rest

/-- GROUP_PLACE (R77, R397): the die's distributor serves its first candidate that can be placed. -/
def execGroupPlace (die launch gno : Nat) (s : State) : Host.Outcome State Fault Refusal :=
  .next (match s.nextPlaced die with
    | some (l, f) =>
      if l.seq = launch ∧ f.gno = gno then
        match s.placeable l f with
        | some (ps, r) => s.startFormed l f ps r
        | none => s
      else s
    | none => s)

/-! ## FRAGIDLE (R79) and the watch counter (R364) -/

/-- The waves of a core as if each quadrant's free rows were one run. -/
def compacted (ws : List (Nat × Wave)) : List (Nat × Wave) :=
  ws.map (fun p => (p.1, { p.2 with
    row := (ws.filter (fun q => decide (q.1 / 16 = p.1 / 16) && decide (q.1 < p.1))).foldl (fun v q => v + q.2.n) 0 }))

/-- The condition of R79 in a tick. -/
def State.fragmented (s : State) (die core : Nat) : Bool :=
  let ws := s.residents (coreKey die core)
  !(s.core (coreKey die core)).placed && s.launches.any (fun l => l.formed.any (fun f =>
    let n := l.node f.node
    let w := if n.clu = 0 then f.batches.length else n.gwaves
    (f.die == die || n.clu == 2) && s.coreAllowed l n die core && (s.spot n w n.nbar die core).isNone &&
      (match s.spotAmong n w n.nbar die core (compacted ws) with
        | some p => s.budgetOk l f.node [p]
        | none => false)))

/-- WATCH_COUNTER_TICK (R364, R79). -/
def execWatchCounterTick (die : Nat) (s : State) : Host.Outcome State Fault Refusal :=
  let frag := (List.range 96).filter (fun c => s.fragmented die c)
  let s1 := s.modDie die (fun d => { d with watch := d.watch + 1 })
  let s2 := frag.foldl (fun s c => s.modCore (coreKey die c) (fun k => { k with fragidle := k.fragidle + 1 })) s1
  .next { s2 with cores := FMap.setMany {} s2.cores ((s2.cores.filter (fun p => decide (p.1 / 99 = die) && p.2.placed)).map
    (fun p => (p.1, { s2.core p.1 with placed := false }))) }

end Sys2Proof.Machine
end

