-- ==== Sys2Proof/Machine/Launches.lean ====
section
/-!
DEFINITION. Machine/Launches.lean: the launch path (R456, R457), the arrival of a launch (R399, R402), its banks
(R348, R349, R363), its retirement and completion (R353, R401) and kills (R22, R404).
-/
namespace Sys2Proof.Machine

/-! ## Banks of the stack cache -/

def State.lehr (s : State) (die : Nat) : Lehr := FMap.get {} s.lehrs die
def State.modLehr (s : State) (die : Nat) (f : Lehr → Lehr) : State := { s with lehrs := FMap.set {} s.lehrs die (f (s.lehr die)) }
def Lehr.bank (h : Lehr) (b : Nat) : Bank := FMap.get {} h.banks b
def Lehr.setBank (h : Lehr) (b : Nat) (k : Bank) : Lehr := { h with banks := FMap.set {} h.banks b k }
def Lehr.cntSet (h : Lehr) (c : Nat) : CntSet := FMap.get {} h.sets c
def Lehr.modSet (h : Lehr) (c : Nat) (f : CntSet → CntSet) : Lehr := { h with sets := FMap.set {} h.sets c (f (h.cntSet c)) }

/-- A virtual die is powered: die 0 from stage 2 on, die 1 in stage 3 (R464, R465, R472). -/
def Cdie.powered (c : Cdie) (die : Nat) : Bool := decide (die + 2 ≤ c.stage) && decide (die < 2)

/-- Gaffer, once it runs (R461), reaches a die that is powered. -/
def Cdie.governs (c : Cdie) (die : Nat) : Bool := c.verified && c.powered die

/-- The memory of an address is powered: host memory always, GDDR-7 with a half (R464, R472). -/
def Cdie.serves (c : Cdie) (pa : Nat) : Bool := decide (2 ≤ c.stage) || decide (2 ^ 47 ≤ pa)

def State.now (s : State) (die : Nat) : Nat := (s.die die).watch.toNat

/-- Banks in an order that takes the slices in turn. -/
def bankOrder : List Nat := (List.range 16).flatMap (fun b => (List.range 32).map (fun k => 16 * k + b))

/-- More banks that the test accepts, up to n in all and at most `lim` in a slice. -/
def addBanks (lim n : Nat) (ok : Nat → Bool) (l : List Nat) : List Nat :=
  bankOrder.foldl (fun (out : List Nat) b =>
    if decide (out.length < n) && ok b && !out.contains b && decide ((out.filter (fun c => decide (c / 16 = b / 16))).length < lim)
    then out ++ [b] else out) l

/-- In stage 2 half of each slice is pinned: its banks hold the memory itself (R465). -/
def State.pinned (s : State) (b : Nat) : Bool := s.cdie.stage == 2 && decide (b % 16 < 8)

/-- A bank that a role may take. -/
def State.takeable (s : State) (die b : Nat) (cache : Bool) : Bool :=
  let k := (s.lehr die).bank b
  (k.role == 0 || (cache && k.role == 1)) && k.next.isNone && !s.pinned b

/-- A role that a bank takes: at once where it is HOT, else once it is woken (R348). -/
def Bank.become (k : Bank) (now role owner : Nat) : Bank :=
  if k.state ≠ 0 then { k with next := some (role, owner), clean := false }
  else if role = 0 then { entered := now }
  else { k with role := role, owner := owner, used := now }

/-- A bank becomes HOT: it takes the role it waits for, and goes COLD where it is free or was woken to be cleaned (R348, R359). -/
def Bank.arrive (k : Bank) (now : Nat) : Bank :=
  let h : Bank := { state := 0, role := k.role, owner := k.owner, entered := now, used := now }
  match k.next with
  | some p => h.become now p.1 p.2
  | none => if k.role = 0 then { entered := now } else if k.clean then { h with state := 2 } else h

/-- n banks of a die take a role: free ones, and then cache banks, which are cleaned (R349). -/
def State.takeBanks (s : State) (die lim n role owner : Nat) : Option State :=
  let l := addBanks lim n (fun b => s.takeable die b true) (addBanks lim n (fun b => s.takeable die b false) [])
  if l.length = n then
    some (s.modLehr die (fun h => l.foldl (fun h b => h.setBank b ((h.bank b).become (s.now die) role owner)) h))
  else none

/-- A bank of this role and owner, or one that waits to become so. -/
def Bank.isOf (k : Bank) (role owner : Nat) : Bool :=
  match k.next with
  | some p => p == (role, owner)
  | none => k.role == role && k.owner == owner

/-- A bank is given back: a free bank that still waited for its role stays free. -/
def Bank.release (k : Bank) (now : Nat) : Bank := if k.role = 0 then { k with next := none } else k.become now 0 0

/-- n banks of a role and an owner become free, and so COLD. -/
def State.freeBanks (s : State) (die n role owner : Nat) : State :=
  let l := ((s.lehr die).banks.filter (fun p => p.2.isOf role owner)).take n
  s.modLehr die (fun h => l.foldl (fun h p => h.setBank p.1 ((h.bank p.1).release (s.now die))) h)

/-- The banks of a launch on both dies, in stage 2 on die 0 alone (R465); carved ones belong to its counter sets. -/
def State.takeLaunchBanks (s : State) (l : Launch) : Option State :=
  [0, 1].foldl (fun (a : Option State) die =>
    if die = 1 ∧ s.cdie.stage = 2 then a
    else (l.carves.filter (fun c => c.on die)).foldl (fun (a : Option State) c =>
      a.bind (fun s => s.takeBanks die ((c.banks + 31) / 32) c.banks 2 ((l.lset[die]?).getD 0)))
      (a.bind (fun s => s.takeBanks die 16 l.queueBanks 4 0))) (some s)

def State.freeLaunchBanks (s : State) (l : Launch) : State :=
  if !l.banked then s
  else [0, 1].foldl (fun s die =>
    if die = 1 ∧ s.cdie.stage = 2 then s
    else
      let k := (l.carves.filter (fun c => c.on die)).foldl (fun v c => v + c.banks) 0
      (s.freeBanks die k 2 ((l.lset[die]?).getD 0)).freeBanks die l.queueBanks 4 0) s

/-- Every RCB above keeps its budget of banks (R384). -/
def State.banksAllowed (s : State) (l : Launch) : Bool :=
  (List.range 4).all (fun k =>
    let r := (l.path[k]?).getD {}
    let used := (s.launches.filter (fun m => m.banked && ((m.path[k]?).getD {}).addr == r.addr)).foldl
      (fun v m => v + m.banksOn 0 + m.banksOn 1) 0
    decide (used + l.banksOn 0 + l.banksOn 1 ≤ r.banks))

/-! ## STATUS and interrupts (R401, R457) -/

/-- The word of R401. -/
def statusWord (state code node : Nat) : Nat := node * 2 ^ 16 + code * 2 ^ 8 + state

def State.signal (s : State) (v : Nat) : State := { s with cdie := { s.cdie with msix := v :: s.cdie.msix } }

/-- STATUS at LRCB + 80, and the interrupt where a state ends the launch and IRQ is set. -/
def State.status (s : State) (lrcb state code node : Nat) (irq : Bool) : State :=
  let s1 := s.writePhys (lrcb + 80) (toBytes 4 (statusWord state code node))
  if irq ∧ 2 ≤ state then s1.signal 0 else s1

def State.setPred (s : State) (ctxid : Nat) (p : Pred) : State := { s with preds := FMap.set none s.preds ctxid (some p) }

/-- A rejection (R388): the launch takes no resource. -/
def State.reject (s : State) (lrcb : Nat) (irq : Bool) (r : Reject) : State :=
  let s1 := match s.contextOf lrcb with | some c => s.setPred c .rejected | none => s
  s1.status lrcb 3 r.code r.node irq

/-! ## The launch ring (R456, R457) -/

def Cdie.ringSize (c : Cdie) : Nat := 2 ^ (bits c.lrbase.toNat 3 0 + 4)
def Cdie.ringAt (c : Cdie) (n : Nat) : Nat := c.lrbase.toNat / 4096 * 4096 + 16 * (n % c.ringSize)

/-- An entry that is skipped: LRSTAT, LRERR. -/
def Cdie.badEntry (c : Cdie) (n bit reason : Nat) : Cdie :=
  { c with lrstat := Nat.lor c.lrstat (2 ^ bit), lrentry := .ofNat 32 n, lrreason := reason }

/-- LAUNCH_ENTRY_CONSUME (R457): one entry at a time. A launch whose entry and RCB are readable is checked when it arrives, and LRHEAD
passes its entry then. -/
def execLaunchEntryConsume (s : State) : Host.Outcome State Fault Refusal :=
  let c := s.cdie
  let n := c.lrhead.toNat
  let a := c.ringAt n
  let e := s.readPhys a 16
  let lrcb := fld e 0 8
  let irq := bitN (fld e 8 1) 0
  let go := fun (s : State) => { s with cdie := { s.cdie with lrhead := s.cdie.lrhead + 1 } }
  let sig := fun (s : State) => if irq then s.signal 0 else s
  .next (if c.stage < 2 ∨ c.lrhead = c.lrtail ∨ c.arrived ≠ [] then s
    else if !s.memOk a 16 then go { s with cdie := c.badEntry n 1 2 }
    else if fld e 8 1 / 2 ≠ 0 ∨ fld e 9 7 ≠ 0 ∨ lrcb % 128 ≠ 0 then
      let s1 : State := go { s with cdie := c.badEntry n 1 1 }
      if lrcb % 128 = 0 ∧ s.memOk lrcb 128 then s1.reject lrcb irq { code := 1 } else sig s1
    else if !s.memOk lrcb 128 then sig (go { s with cdie := c.badEntry n 2 3 })
    else { s with cdie := { c with arrived := [⟨lrcb, irq, n⟩] } })

/-- LRHEAD passes the entry of a launch that has been checked (R457). -/
def Cdie.passEntry (c : Cdie) : Cdie := { c with lrhead := c.lrhead + 1 }

/-! ## Kills (R22, R404) -/

/-- A wave is killed: its lanes are gone and its tails end, its commands and items cancelled, its open slot resolves false, what is
left of its reservation is released; what it has under way drains. -/
def State.killWave (s : State) (die core w : Nat) : State :=
  let ck := coreKey die core
  let s1 := (List.range 4).foldl (fun s ch => (s.cancelCopies ck w ch).2) (s.unblockAll ck w)
  let s2 := ((s1.cancelMx ck w).2.withdraw ck w)
  let s3 := match (s2.core ck).mx.slot with
    | some (v, g) => if v = w then s2.mxRelease ck w g else s2
    | none => s2
  let s4 := (s3.tailsOf ck w).foldl (fun s t => s.modTail (ck * 32 + t) (fun u => { u with stack := [], ctx := { u.ctx with sleep := none } })) s3
  s4.modWave (ck * 64 + w) (fun v =>
    { v with
      state := 0, pend := [], parked := none, stopReq := false, redo := [], posted := true
      div := { v.div with stack := [] }
      main := { v.main with sleep := none, sync := none }
      funel := { v.funel with resq := [], ress := [], halted := false } })

/-- Everything that a launch holds besides its waves. -/
def State.dropLaunch (s : State) (l : Launch) : State :=
  let cells := s.cells.filter (fun p => match p.2 with | some c => c.launch == some l.seq | none => false)
  let s1 := cells.foldl (fun s p => s.freeCell (4 * p.1)) (s.freeLaunchBanks l)
  { s1 with
    launches := s1.launches.filter (fun m => m.seq ≠ l.seq)
    regions := s1.regions.filter (fun r => r.launch ≠ l.seq)
    saved := s1.saved.filter (fun v => v.launch ≠ l.seq)
    rasters := s1.rasters.filter (fun p => !(match p.2.serves with | some q => decide (q.1 = l.seq) | none => false))
    rays := s1.rays.map (fun p => (p.1, { p.2 with units := p.2.units.map (fun u => (u.1, u.2.filter (fun r => r.launch ≠ l.seq))) }))
    shadows := s1.shadows.map (fun h => { h with
      waves := h.waves.filter (fun p => p.2.funel.launch ≠ some l.seq)
      tails := h.tails.map (fun t => (t.1, if h.waves.any (fun p =>
        decide (p.1 = t.1 / 32 * 64 + t.2.wave) && p.2.funel.launch == some l.seq) then t.2.freed else t.2))
      regions := h.regions.filter (fun r => r.launch ≠ l.seq) }) }

/-- One launch is killed: its waves with everything else. -/
def State.killOne (s : State) (l : Launch) (node code : Nat) : State :=
  let ws := s.waves.filter (fun p => p.2.valid && p.2.funel.launch == some l.seq)
  let s1 := ws.foldl (fun s p =>
    (s.killWave (p.1 / 64 / 99) (p.1 / 64 % 99) (p.1 % 64)).modWave p.1 (fun v => { v with funel := { v.funel with launch := none } })) s
  let s2 : State := { s1 with cores := s1.cores.map (fun p => (p.1, { p.2 with
    groups := p.2.groups.map (fun g => if g.launch = some l.seq then { g with launch := none } else g) })) }
  let s3 := (s2.dropLaunch l).status l.lrcb 4 code node l.irq
  match FMap.get none s3.preds l.ctxid with
  | some (.accepted q) => if q = l.seq then s3.setPred l.ctxid (.killed code) else s3
  | _ => s3

/-- A launch is killed, and then those that depend on it (R402). -/
def State.killLaunch : Nat → State → Launch → Nat → Nat → State
  | 0, s, _, _, _ => s
  | f + 1, s, l, node, code =>
    let s1 := s.killOne l node code
    match s1.launches.find? (fun m => m.pred == some l.seq) with
    | some m => s1.killLaunch f m 0 code
    | none => s1

/-- A kill of a wave, a launch or a context; node and code name a fault that caused it. -/
def State.kill (s : State) (what : KillDom) (node code : Nat) : State :=
  match what with
  | .wave die core w => if (s.wave (waveKey die core w)).valid ∧ core < 96 then s.killWave die core w else s
  | .launch q => match s.launch? q with
    | some l => s.killLaunch (s.launches.length + 1) l node code
    | none => s
  | .context c =>
    let s1 := (s.launches.filter (fun l => decide (l.ctxid = c))).foldl (fun s l => match s.launch? l.seq with
      | some m => s.killLaunch (s.launches.length + 1) m node code
      | none => s) s
    let gone := fun (a : Arrival) => s1.contextOf a.lrcb == some c
    let s2 := (s1.cdie.arrived.filter gone).foldl (fun s a => (s.setPred c (.killed code)).status a.lrcb 4 code 0 a.irq) s1
    { s2 with
      cdie := { (if s1.cdie.arrived.any gone then s2.cdie.passEntry else s2.cdie) with arrived := s1.cdie.arrived.filter (fun a => !gone a) }
      preempts := s2.preempts.filter (fun p => p.ctxid ≠ c), shadows := s2.shadows.filter (fun h => h.ctxid ≠ c) }

/-- A kill under the fault domain of the effective RCB of a wave's node (R22). -/
def State.killUnder (s : State) (die core w node code : Nat) : State :=
  let v := s.wave (waveKey die core w)
  let q := v.funel.launch.getD 0
  match ((s.launch q).node v.funel.node).rcb.fdom with
  | 0 => s.kill (.wave die core w) node code
  | 1 => s.kill (.launch q) node code
  | _ => s.kill (.context v.ctxid) node code

/-- LAUNCH_KILL (R22, R404): a stopped wave's fault kills under its fault domain; Gaffer's own kill of a context names no
fault. -/
def execLaunchKill (what : KillReq) (core w : Nat) (s : State) : Host.Outcome State Fault Refusal :=
  .next (match what with
    | .fault die =>
      let v := s.wave (waveKey die core w)
      if v.valid && decide (core < 96) && (v.state == 1 || v.state == 4) && v.cause != 0 then s.killUnder die core w v.funel.node v.cause
      else s
    | .context c => s.kill (.context c) 0 0)

/-! ## Arrival (R399, R402) -/

/-- The lowest counter set of a die that no launch holds, or set 0 (R363). -/
def State.freeSet (s : State) (die : Nat) : Nat :=
  (lowest 64 (fun c => decide (1 ≤ c) && !s.launches.any (fun l => (l.lset[die]?).getD 0 == c))).getD 0

/-- Banks and regions are found: the launch record joins the entry node's sub-queue on die 0. -/
def State.bankLaunch (s : State) (l : Launch) : Option State :=
  if !s.banksAllowed l then none
  else (s.takeLaunchBanks l).map (fun s1 =>
    let rs := [0, 1].flatMap (fun die => (l.carves.filter (fun c => c.on die)).map (fun c =>
      (⟨die, l.seq, c.vbase, c.size, c.rd, c.wr, c.fill, c.wbend, []⟩ : Region)))
    { s1 with regions := s1.regions ++ rs }.modLaunch l.seq (fun l =>
      { l.append l.entry 0 l.first 0 (s.die 0).watch.toNat false with banked := true }))

/-- A launch that passes its checks is accepted (R399): SEQ, counter sets, STATE 1. -/
def State.accept (s : State) (l : Launch) (irq : Bool) (pred : Option Nat) : State :=
  let l1 : Launch := { l with seq := s.nextSeq, irq := irq, pred := pred, lset := [s.freeSet 0, s.freeSet 1] }
  let s1 := [0, 1].foldl (fun s die => match (l1.lset[die]?).getD 0 with
    | 0 => s
    | c => s.modLehr die (fun h => h.modSet c (fun _ => {}))) s
  let s2 := (s1.writePhys (l.lrcb + 72) (toBytes 8 l1.seq)).writePhys (l.lrcb + 84) (toBytes 2 ((l1.lset[0]?).getD 0 + 256 * (l1.lset[1]?).getD 0))
  let s3 := ({ s2 with launches := s2.launches ++ [l1], nextSeq := s2.nextSeq + 1 } : State).setPred l.ctxid (.accepted l1.seq)
  let s4 := s3.status l.lrcb 1 0 0 false
  (s4.bankLaunch l1).getD s4

/-- An arrival is rejected; a structure that cannot be read also leaves its entry's number in LRERR (R457). -/
def State.turnAway (s : State) (a : Arrival) (r : Reject) : State :=
  (if r.code = 11 then { s with cdie := { s.cdie with lrentry := .ofNat 32 a.entry } } else s).reject a.lrcb a.irq r

/-- The launch record is read last: no check needs it (R388). -/
def State.acceptWith (s : State) (l : Launch) (a : Arrival) (pred : Option Nat) : State :=
  match s.firstRecord l with
  | none => s.turnAway a { code := 11 }
  | some ws => s.accept { l with first := ws } a.irq pred

/-- One launch arrives and is checked. -/
def State.launchArrives (s : State) (a : Arrival) : State :=
  match s.checkLaunch a.lrcb with
  | .error r => s.turnAway a r
  | .ok l =>
    let s := s.keepLaunch l
    if s.depOf a.lrcb then
      match FMap.get none s.preds l.ctxid with
      | some .rejected => s.turnAway a { code := 10 }
      | some (.killed c) => (s.setPred l.ctxid (.killed c)).status a.lrcb 4 c 0 a.irq
      | some (.accepted q) => s.acceptWith l a (some q)
      | none => s.acceptWith l a none
    else s.acceptWith l a none

/-- LAUNCH_ARRIVE (R399): an accepted launch that waited finds its banks, or the next launch arrives. -/
def execLaunchArrive (s : State) : Host.Outcome State Fault Refusal :=
  .next (match (s.launches.filter (fun l => !l.banked)).findSome? (fun l => s.bankLaunch l) with
    | some s1 => s1
    | none => match s.cdie.arrived with
      | [] => s
      | a :: r =>
        let s1 := ({ s with cdie := { s.cdie with arrived := r } } : State).launchArrives a
        { s1 with cdie := s1.cdie.passEntry })

/-! ## Retirement and completion (R353, R401) -/

/-- Every wave of the launch has ended and none can start. -/
def State.launchOver (s : State) (l : Launch) : Bool :=
  !s.hasRecords l && l.formed.isEmpty && l.opened.isEmpty && (s.wavesOf l.seq).isEmpty && !s.saved.any (fun v => decide (v.launch = l.seq))

/-- Dirty lines of a region go home, each by itself; one that cannot posts its page (R353). -/
def State.retireRegion (s : State) (l : Launch) (ri : Nat) : State :=
  let r := s.region ri
  if !r.wbend then s
  else
    let ag : Ag := { die := r.die, ck := 0, root := some l.root, launch := some l.seq }
    (r.lines.filter (fun p => p.2.dirty ≠ 0)).foldl (fun s p => match s.writeBackLine ag ri p.1 with
      | .ok s1 => s1
      | .error _ => (s.post r.die 127 (some l.root) l.ctxid 2 (r.vbase + 64 * p.1)).2) s

/-- Regions of a launch in shadow storage are regions of the die again (R278). -/
def State.regionsBack (s : State) (q : Nat) : State :=
  { s with
    regions := s.regions ++ s.shadows.flatMap (fun h => h.regions.filter (fun r => decide (r.launch = q)))
    shadows := s.shadows.map (fun h => { h with regions := h.regions.filter (fun r => r.launch ≠ q) }) }

/-- CARVE_RETIRE (R353, R233): regions are written back or discarded, and the cells of the launch released. -/
def execCarveRetire (launch : Nat) (s : State) : Host.Outcome State Fault Refusal :=
  .next (match s.launch? launch with
    | none => s
    | some l =>
      if !s.launchOver l || l.retired then s
      else
        let s := s.regionsBack l.seq
        let mine := (List.range s.regions.length).filter (fun ri => decide ((s.region ri).launch = l.seq))
        let s1 := mine.foldl (fun s ri => s.retireRegion l ri) s
        let cells := s1.cells.filter (fun p => match p.2 with | some c => c.launch == some l.seq | none => false)
        let s2 := cells.foldl (fun s p => s.freeCell (4 * p.1)) s1
        ({ s2 with regions := s2.regions.filter (fun r => r.launch ≠ l.seq) } : State).modLaunch l.seq (fun l => { l with retired := true }))

/-- LAUNCH_COMPLETE (R401): counters, then STATUS. -/
def execLaunchComplete (launch : Nat) (s : State) : Host.Outcome State Fault Refusal :=
  .next (match s.launch? launch with
    | none => s
    | some l =>
      if !s.launchOver l || !l.retired then s
      else
        let cs := [l.nwaves, l.underc, l.underl, l.steals, l.spills]
        let s1 := s.writePhys (l.lrcb + 88) (cs.flatMap (fun c => toBytes 8 c))
        (s1.status l.lrcb 2 0 0 l.irq).dropLaunch l)

end Sys2Proof.Machine
end

