-- ==== Sys2Proof/Machine/Raster.lean ====
section
/-!
DEFINITION. Machine/Raster.lean: the raster engine (R422 to R434): the exact geometry of a triangle, the fragments and
samples of a tile, passes and partial passes.
-/
namespace Sys2Proof.Machine

/-! ## Exact values

A finite FP32 value is a whole number of units of 2^-149. -/

def unitBits : Nat := 149

/-- A finite FP32 value in units, none for NaN and infinities. -/
def fx32 (x : Nat) : Option Int :=
  match F32.val false x with
  | .fin n m e => some (if n then -((m * 2 ^ (e + unitBits).toNat : Nat) : Int) else ((m * 2 ^ (e + unitBits).toNat : Nat) : Int))
  | _ => none

/-- n ⁄ d × 2^e rounded once to nearest even; a zero is +0 unless `nz`. -/
def roundQ (f : Fmt) (n d : Int) (e : Int) (nz : Bool) : Nat :=
  if n = 0 then f.withSign nz 0
  else (f.quot .rn false (decide (n < 0) != decide (d < 0)) n.natAbs e d.natAbs 0).1

/-! ## Triangle records and pass descriptors (R424, R425) -/

/-- The words of a record as one number. -/
def packWords (ws : List Word) : Nat := ws.foldr (fun w v => w.toNat + 2 ^ 32 * v) 0

/-- R424: the unlisted bytes are 0. -/
def triOk (r : Nat) : Bool :=
  fld r 0 8 % 64 == 0 && decide (fld r 8 1 < 2) && fld r 9 7 == 0 && (List.range 3).all (fun v => fld r (16 + 32 * v + 30) 2 == 0)
    && fld r 112 16 == 0

def triEnd (r : Nat) : Bool := bitN (fld r 8 1) 0
/-- Component c (0 X, 1 Y, 2 Z) of vertex v. -/
def triPos (r v c : Nat) : Nat := fld r (16 + 32 * v + 4 * c) 4
/-- Attribute a of vertex v: COL 0 to 3, NRM 4 to 6, MOT 7 and 8. -/
def triAttr (r v a : Nat) : Nat := fld r (16 + 32 * v + 12 + 2 * a) 2

def descW (d : Nat) : Nat := fld d 44 2
def descH (d : Nat) : Nat := fld d 46 2
def descTx (d : Nat) : Nat := descW d / 32
/-- NT and NS of R425. -/
def descNT (d : Nat) : Nat := descTx d * (descH d / 32)
def descNS (d : Nat) : Nat := match fld d 48 1 with | 0 => 64 | 1 => 256 | _ => 1024
def descGeo (d : Nat) : Nat := fld d 36 4
def descTl (d : Nat) : Nat := fld d 40 4
def descFlag (d i : Nat) : Bool := bitN (fld d 51 1) i
def descFmt (d : Nat) : Fmt := if descFlag d 2 then BF16 else F16
def descPat (d e : Nat) : Nat := fld d (128 + e) 1

/-- R425 and R426: the descriptor's limits. -/
def descOk (d : Nat) : Bool :=
  let n := match fld d 48 1 with | 0 => 4 | 1 => 16 | _ => 0
  let size := fun v => v % 32 == 0 && decide (32 ≤ v) && decide (v ≤ 8192)
  decide (1 ≤ descGeo d) && decide (descGeo d ≤ 65535) && decide (1 ≤ descTl d) && decide (descTl d ≤ 65535)
    && size (descW d) && size (descH d) && decide (fld d 48 1 ≤ 2) && decide (fld d 49 1 ≤ 2) && decide (fld d 50 1 ≤ 2)
    && decide (fld d 51 1 < 16) && fld d 72 56 == 0 && (List.range 64).all (fun e => decide (descPat d e < 64))
    && fld d 196 4 == 0 && fld d 232 24 == 0
    && (List.range n).all (fun i => (List.range i).all (fun j => descPat d i ≠ descPat d j))

/-! ## Geometry (R427, R428) -/

/-- Twice the signed area of a, b, p. -/
def edgeFn (a b p : Int × Int) : Int := (b.1 - a.1) * (p.2 - a.2) - (b.2 - a.2) * (p.1 - a.1)

/-- Positions of the vertices in units, where every component is finite. -/
def triPoints (r : Nat) : Option (List (Int × Int × Int)) :=
  (List.range 3).foldr (fun v a => match fx32 (triPos r v 0), fx32 (triPos r v 1), fx32 (triPos r v 2), a with
    | some x, some y, some z, some l => some ((x, y, z) :: l)
    | _, _, _, _ => none) (some [])

def ptAt (l : List (Int × Int × Int)) (i : Nat) : Int × Int × Int := (l[i]?).getD (0, 0, 0)
def flat (p : Int × Int × Int) : Int × Int := (p.1, p.2.1)

def triArea (l : List (Int × Int × Int)) : Int := edgeFn (flat (ptAt l 0)) (flat (ptAt l 1)) (flat (ptAt l 2))

/-- The triangle is dropped before it is binned: not finite, of no area, or culled by its winding, which with y downward
is clockwise for a positive area. -/
def triDropped (d r : Nat) : Bool :=
  match triPoints r with
  | none => true
  | some l =>
    let a := triArea l
    a == 0 || (decide (0 < a) && descFlag d 0) || (decide (a < 0) && descFlag d 1)

/-- n pixels in units. -/
def pixels (n : Nat) : Int := (n : Int) * 2 ^ unitBits

/-- The bounding box meets the pixel rectangle of tile t. -/
def meetsTile (d r t : Nat) : Bool :=
  match triPoints r with
  | none => false
  | some l =>
    let xs := l.map (fun p => p.1)
    let ys := l.map (fun p => p.2.1)
    let lo := fun (v : List Int) => v.foldl min (v.headD 0)
    let hi := fun (v : List Int) => v.foldl max (v.headD 0)
    let tx := t % descTx d
    let ty := t / descTx d
    decide (lo xs < pixels (32 * tx + 32)) && decide (pixels (32 * tx) ≤ hi xs)
      && decide (lo ys < pixels (32 * ty + 32)) && decide (pixels (32 * ty) ≤ hi ys)

/-- Tiles that a triangle is binned into. -/
def binnedTiles (d r : Nat) : List Nat := if triDropped d r then [] else (List.range (descNT d)).filter (meetsTile d r)

/-- Pixel of sample s of tile t (R426). -/
def samplePixel (d t s : Nat) : Nat × Nat :=
  let n := match fld d 48 1 with | 0 => 4 | 1 => 16 | _ => 0
  let p := if n = 0 then (s % 32, s / 32)
    else
      let b := s / n
      let e := descPat d (s % n)
      (8 * (b % 4) + bits e 2 0, 8 * (b / 4) + bits e 5 3)
  (32 * (t % descTx d) + p.1, 32 * (t / descTx d) + p.2)

/-- The centre of a pixel in units. -/
def centre (p : Nat × Nat) : Int × Int := ((2 * (p.1 : Int) + 1) * 2 ^ (unitBits - 1), (2 * (p.2 : Int) + 1) * 2 ^ (unitBits - 1))

/-- R428: the weights of a covered point, over the area; none where the point is not covered. -/
def coverage (l : List (Int × Int × Int)) (p : Int × Int) : Option (List Int) :=
  let area := triArea l
  let sgn : Int := if area < 0 then -1 else 1
  let w := (List.range 3).map (fun i =>
    let a := flat (ptAt l ((i + 1) % 3))
    let b := flat (ptAt l ((i + 2) % 3))
    let e := sgn * edgeFn a b p
    let nx := sgn * (b.2 - a.2)
    let ny := sgn * (a.1 - b.1)
    (e, decide (0 < e) || (e == 0 && (decide (nx < 0) || (nx == 0 && decide (ny < 0))))))
  if w.all (fun p => p.2) then some (w.map (fun p => p.1)) else none

/-- A fragment's FP32 depth. -/
def fragZ (l : List (Int × Int × Int)) (w : List Int) (r : Nat) : Nat :=
  let n := (List.range 3).foldl (fun v i => v + (w[i]?).getD 0 * (ptAt l i).2.2) (0 : Int)
  roundQ F32 n (triArea l).natAbs (-(unitBits : Int)) ((List.range 3).all (fun v => triPos r v 2 == F32.signBit))

/-- A fragment's attribute. -/
def fragAttr (f : Fmt) (l : List (Int × Int × Int)) (w : List Int) (r a : Nat) : Nat :=
  let e0 : Int := f.emin - f.fb
  let vals := (List.range 3).map (fun v => f.val false (triAttr r v a))
  if vals.any (fun v => v.isNan || v.isInf) then f.nanBits
  else
    let n := (List.range 3).foldl (fun s i => match (vals[i]?).getD .nan with
      | .fin neg m e => let x : Int := ((m * 2 ^ (e - e0).toNat : Nat) : Int)
        s + (w[i]?).getD 0 * (if neg then -x else x)
      | _ => s) (0 : Int)
    roundQ f n (triArea l).natAbs e0 ((List.range 3).all (fun v => triAttr r v a == f.signBit))

/-! ## Samples (R426, R429)

A sample record is a number of 32 bytes. -/

/-- The clear state of a sample. -/
def clearSample (d t s : Nat) : Nat :=
  let p := samplePixel d t s
  p.1 + p.2 * 2 ^ 16 + fld d 52 4 * 2 ^ 32 + fld d 56 8 * 2 ^ 64 + 0xFFFFFFFF * 2 ^ 224

/-- Blended colour component c of a fragment over a sample. -/
def blend (d : Nat) (frag old : Nat → Nat) (c : Nat) : Nat :=
  let f := descFmt d
  let v := fun x => f.val false x
  match fld d 50 1 with
  | 0 => frag c
  | 1 =>
    let na := (sumFV .rn [v f.oneBits, (v (frag 3)).flip]).1
    let scaled := (mulFV (v (old c)) na).1
    let new := if c = 3 then v (frag 3) else (mulFV (v (frag c)) (v (frag 3))).1
    (f.enc .rn false (sumFV .rn [new, scaled]).1).1
  | _ => (f.enc .rn false (sumFV .rn [v (frag c), v (old c)]).1).1

/-- The depth test of R429. -/
def depthPasses (d zf z : Nat) : Bool :=
  let a := F32.val false zf
  let b := F32.val false z
  match fld d 49 1 with
  | 0 => ltNum a b
  | 1 => !a.isNan && !b.isNan && !ltNum b a
  | _ => true

/-- The fragment of a triangle with this stamp is applied to a sample, if it covers it and passes. -/
def applyTri (d t s : Nat) (smp : Nat × Nat) (tri : Nat × List Word) : Nat × Nat :=
  let r := packWords tri.2
  match triPoints r with
  | none => smp
  | some l => match coverage l (centre (samplePixel d t s)) with
    | none => smp
    | some w =>
      let z := fragZ l w r
      if !depthPasses d z (fld smp.1 4 4) then smp
      else
        let f := descFmt d
        let at_ := fun a => fragAttr f l w r a
        let col := (List.range 4).foldl (fun v c => v + blend d at_ (fun c => fld smp.1 (8 + 2 * c) 2) c * 2 ^ (64 + 16 * c)) 0
        let rest := (List.range 5).foldl (fun v a => v + at_ (4 + a) * 2 ^ (128 + 16 * a)) 0
        (smp.1 % 2 ^ 32 + (if descFlag d 3 then z else fld smp.1 4 4) * 2 ^ 32 + col + rest + 2 ^ 208 + tri.1 % 2 ^ 32 * 2 ^ 224,
          smp.2 + 1)

def sampleAt (d t s : Nat) : Nat := fld d 16 8 + 32 * (descNS d * t + s)

/-- A tile is finished: its samples, and the fragments that passed. -/
def State.finishTile (s : State) (root : Nat) (p : Pass) (t : Nat) : State × Nat :=
  let d := p.desc
  let tris := p.geo.filter (fun g => meetsTile d (packWords g.2) t)
  (List.range (descNS d)).foldl (fun (a : State × Nat) i =>
    let x0 := if FMap.get false p.stored t then s.readV root (sampleAt d t i) 32 else clearSample d t i
    let r := tris.foldl (applyTri d t i) (x0, a.2)
    (a.1.writeV root (sampleAt d t i) 32 r.1, r.2)) (s, 0)

/-- Tiles of the render area that the test accepts are finished. -/
def State.finishTiles (s : State) (root : Nat) (p : Pass) (want : Nat → Bool) : State × Pass :=
  ((List.range (descNT p.desc)).filter want).foldl (fun (a : State × Pass) t =>
    let r := a.1.finishTile root p t
    (r.1, { a.2 with frags := a.2.frags + r.2, stored := a.2.stored.set false t true })) (s, p)

/-! ## Passes (R423, R430, R431, R433) -/

/-- An area that cannot be used: its code and address. -/
def State.areaFail (s : State) (root : Nat) (p : Pass) : Option (Nat × Nat) :=
  let d := p.desc
  let areas := [(p.addr, 256), (fld d 0 8, 128 * descGeo d), (fld d 8 8, descNT d * (8 + 4 * descTl d)),
    (fld d 16 8, descNT d * descNS d * 32)]
  areas.findSome? (fun a => (s.badPage root a.1 a.2 .rdwr).map (fun e => (match e.1 with | .fault => 3 | .nonres => 4, e.2)))

/-- A pass fails with a code; a page that is not resident is requested. -/
def State.failPass (s : State) (die : Nat) (l : Launch) (p : Pass) (code va : Nat) : State × Pass :=
  (if code = 4 then (s.post die 127 (some l.root) l.ctxid 1 va).2 else s, { p with fail := code, geo := [], lists := [] })

/-- The pass that a record starts: its descriptor is read. One at an address that is not aligned to 64 breaks R424. -/
def State.startPass (s : State) (die : Nat) (l : Launch) (addr : Nat) : State × Pass :=
  let p0 : Pass := { addr := addr, desc := 0 }
  if addr % 64 ≠ 0 then (s, { p0 with fail := 2, unread := (s.badPage l.root addr 256 .rd).isSome })
  else match s.badPage l.root addr 256 .rd with
    | some (.fault, _) => (s, { p0 with fail := 3, unread := true })
    | some (.nonres, va) => let r := s.failPass die l p0 4 va; (r.1, { r.2 with unread := true })
    | none =>
      let p : Pass := { p0 with desc := s.readV l.root addr 256 }
      if !descOk p.desc then (s, { p with fail := 2 })
      else match s.areaFail l.root p with
        | some (c, va) => s.failPass die l p c va
        | none => (s, p)

/-- A partial pass (R430). -/
def State.partialPass (s : State) (die : Nat) (l : Launch) (p : Pass) : State × Pass :=
  match s.areaFail l.root p with
  | some (c, va) => s.failPass die l p c va
  | none =>
    let r := s.finishTiles l.root p (fun t => FMap.get 0 p.lists t ≠ 0)
    (r.1, { r.2 with geo := [], lists := [], partials := r.2.partials + 1 })

/-- The unit's own data: a copied record, and a list entry whose form the unit chooses. -/
def State.binData (s : State) (root : Nat) (p : Pass) (i : Nat) (r : Nat) (tiles : List Nat) : State :=
  let d := p.desc
  let s1 := s.writeV root (fld d 0 8 + 128 * i) 128 r
  tiles.foldl (fun s t =>
    let base := fld d 8 8 + t * (8 + 4 * descTl d)
    let k := FMap.get 0 p.lists t
    let w := fun j => (Config.word s.tick (base + j)).toNat
    (s.writeV root base 8 (w 0 + 2 ^ 32 * w 1)).writeV root (base + 8 + 4 * k) 4 (w 2)) s1

/-- A triangle is binned (R427), after a partial pass where it finds no room. -/
def State.binTri (s : State) (die : Nat) (l : Launch) (p : Pass) (stamp : Nat) (ws : List Word) : State × Pass :=
  let r := packWords ws
  let tiles := binnedTiles p.desc r
  if tiles.isEmpty then (s, { p with culled := p.culled + 1 })
  else
    let full := decide (descGeo p.desc ≤ p.geo.length) || tiles.any (fun t => decide (descTl p.desc ≤ FMap.get 0 p.lists t))
    let (s1, p1) := if full then s.partialPass die l p else (s, p)
    if p1.fail ≠ 0 then (s1, p1)
    else
      (s1.binData l.root p1 p1.geo.length r tiles,
        { p1 with geo := p1.geo ++ [(stamp, ws)], lists := tiles.foldl (fun m t => m.set 0 t (FMap.get 0 m t + 1)) p1.lists })

/-! ## The unit (R422) -/

def State.raster (s : State) (die : Nat) : Raster := FMap.get {} s.rasters die
def State.setRaster (s : State) (die : Nat) (r : Raster) : State := { s with rasters := FMap.set {} s.rasters die r }

/-- The node that a unit serves, or that it would take: the unit of die 0 first. -/
def State.rasterNode (s : State) (die : Nat) : Option (Launch × Nat) :=
  match (s.raster die).serves with
  | some (q, n) => (s.launch? q).map (fun l => (l, n))
  | none =>
    if die = 1 ∧ (s.raster 0).serves.isNone then none
    else s.allNodes.find? (fun p => s.forms p.1 && (p.1.node p.2).kind == 2 && (p.1.nextStamp p.2).isSome
      && (s.raster 0).serves ≠ some (p.1.seq, p.2) && (s.raster 1).serves ≠ some (p.1.seq, p.2))

/-- RASTER_TRIANGLE (R424 to R427, R430, R433): the unit takes the next record of its pass. -/
def execRasterTriangle (die : Nat) (s : State) : Host.Outcome State Fault Refusal :=
  .next (match s.rasterNode die with
    | none => s
    | some (l, nd) => match l.nextStamp nd with
      | none => s
      | some (d, rc) =>
        let u := s.raster die
        let r := packWords rc.words
        let other := match u.pass with | some p => p.addr ≠ fld r 0 8 | none => false
        if !s.forms l || u.ended || other then s
        else
          let s0 := s.modLaunch l.seq (fun l => l.setQueue nd d ((l.queue nd d).drop 1))
          let (s1, p0) := match u.pass with | some p => (s0, p) | none => s0.startPass die l (fld r 0 8)
          let p1 : Pass := { p0 with tris := p0.tris + 1 }
          let (s2, p2) := if p1.fail ≠ 0 then (s1, p1)
            else if !triOk r then s1.failPass die l p1 2 0
            else s1.binTri die l p1 rc.stamp rc.words
          s2.setRaster die { serves := some (l.seq, nd), pass := some p2, ended := triEnd r })

/-- A reconstruction record (R431, R338). -/
def reconRecord (d t g : Nat) : List Word :=
  let tag := 16 * t + g
  let v := fld d 64 8 + (sampleAt d t (64 * g)) % 2 ^ 64 * 2 ^ 64
    + (fld d 24 8 + fld d 32 4 * tag) % 2 ^ 64 * 2 ^ 128 + 64 * 2 ^ 192 + tag % 2 ^ 32 * 2 ^ 224
  (List.range 16).map (fun i => .ofNat 32 (v / 2 ^ (32 * i)))

/-- Counters, then STATUS, where the descriptor could be read. -/
def State.passStatus (s : State) (root : Nat) (p : Pass) : State :=
  if p.unread then s
  else
    let cs := [p.tris, p.culled, p.partials, p.frags]
    let s1 := ((List.range 4).zip cs).foldl (fun s c => s.writeV root (p.addr + 200 + 8 * c.1) 8 c.2) s
    s1.writeV root (p.addr + 192) 4 (if p.fail = 0 then 1 else p.fail)

/-- The records of a pass and the room for them: those that find room in the queue, or none where they do not all fit. -/
def State.passRoom (s : State) (l : Launch) (nd die n : Nat) : Option Nat :=
  match l.target nd 0 with
  | none => none
  | some t =>
    let k := min n (s.roomOf l t die)
    if (n - k) * (l.node t).rsz ≤ s.spillFree l false then some k else none

/-- The pass is over (R423). -/
def State.passOver (s : State) (l : Launch) (nd : Nat) (u : Raster) : Bool :=
  u.ended || (match u.pass, l.nextStamp nd with
    | some p, some (_, r) => p.addr ≠ fld (packWords r.words) 0 8
    | _, none => s.closed l nd
    | _, _ => false)

/-- RASTER_PASS_END (R431, R433). -/
def execRasterPassEnd (die : Nat) (s : State) : Host.Outcome State Fault Refusal :=
  let u := s.raster die
  .next (match u.serves, u.pass with
    | some (q, nd), some p => match s.launch? q with
      | none => s
      | some l =>
        let done := fun (s : State) => s.setRaster die { u with pass := none, ended := false }
        if !s.forms l || !s.passOver l nd u then s
        else if p.fail ≠ 0 then done (s.passStatus l.root p)
        else match s.areaFail l.root p with
          | some (c, va) =>
            let r := s.failPass die l p c va
            done (r.1.passStatus l.root r.2)
          | none =>
            let g := descNS p.desc / 64
            match s.passRoom l nd die (descNT p.desc * g), l.target nd 0 with
            | some k, some t =>
              let r := s.finishTiles l.root p (fun _ => true)
              let s1 := r.1.modLaunch q (fun l => (List.range (descNT p.desc * g)).foldl (fun l i =>
                l.append t die (reconRecord p.desc (i / g) (i % g)) 0 (s.die die).watch.toNat (decide (k ≤ i))) l)
              done (s1.passStatus l.root r.2)
            | _, _ => s
    | _, _ => s)

/-- Pre-emption (R434): the open pass is stored by a partial pass. -/
def State.drainRaster (s : State) (die ctxid : Nat) : State :=
  let u := s.raster die
  match u.serves, u.pass with
  | some (q, _), some p => match s.launch? q with
    | some l =>
      if l.ctxid = ctxid ∧ p.fail = 0 then
        let r := s.partialPass die l p
        r.1.setRaster die { u with pass := some r.2 }
      else s
    | none => s
  | _, _ => s

end Sys2Proof.Machine
end

