-- ==== Sys2Proof/Machine/Rays.lean ====
section
/-!
DEFINITION. Machine/Rays.lean: the ray engine (R436 to R452): the exact tests, the traversal of a hierarchy, and the
traversal units.
-/
namespace Sys2Proof.Machine

abbrev Vec := Int × Int × Int

def Vec.sub (a b : Vec) : Vec := (a.1 - b.1, a.2.1 - b.2.1, a.2.2 - b.2.2)
def Vec.dot (a b : Vec) : Int := a.1 * b.1 + a.2.1 * b.2.1 + a.2.2 * b.2.2
def Vec.cross (a b : Vec) : Vec :=
  (a.2.1 * b.2.2 - a.2.2 * b.2.1, a.2.2 * b.1 - a.1 * b.2.2, a.1 * b.2.1 - a.2.1 * b.1)
def Vec.at_ (a : Vec) (i : Nat) : Int := match i with | 0 => a.1 | 1 => a.2.1 | _ => a.2.2

/-- Three FP32 values at byte o of a structure, where all are finite. -/
def vecAt (b o : Nat) : Option Vec :=
  match fx32 (fld b o 4), fx32 (fld b (o + 4) 4), fx32 (fld b (o + 8) 4) with
  | some x, some y, some z => some (x, y, z)
  | _, _, _ => none

/-! ## Ray records (R438, R445) -/

def rayFlag (r i : Nat) : Bool := bitN (fld r 40 1) i
def rayCoh (r : Nat) : Bool := rayFlag r 0
def rayAny (r : Nat) : Bool := rayFlag r 1
def rayCullB (r : Nat) : Bool := rayFlag r 2
def rayResume (r : Nat) : Bool := rayFlag r 3
def rayRoot (r : Nat) : Nat := fld r 0 8
def rayLevel (r : Nat) : Nat := fld r 41 1
def rayTrail (r i : Nat) : Nat := fld r 44 4 / 4 ^ i % 4

/-- R438's limits. -/
def rayOk (r : Nat) : Bool :=
  rayRoot r % 128 == 0 && decide (rayRoot r < 2 ^ 57) && decide (fld r 40 1 < 16) && fld r 42 2 == 0
    && (if rayResume r then decide (rayLevel r ≤ 16) && decide (fld r 44 4 < 4 ^ rayLevel r)
        else rayLevel r == 0 && fld r 44 4 == 0 && fld r 48 8 == 0)

/-- R445. -/
def rayInvalid (r : Nat) : Bool :=
  let a := F32.val false (fld r 32 4)
  let b := F32.val false (fld r 36 4)
  a.isNan || b.isNan || ltNum b a || (match vecAt r 8, vecAt r 20 with
    | some _, some d => d == (0, 0, 0)
    | _, _ => true)

def rayO (r : Nat) : Vec := (vecAt r 8).getD (0, 0, 0)
def rayD (r : Nat) : Vec := (vecAt r 20).getD (0, 0, 0)

/-! ## Tests (R442, R443) -/

/-- Fractions with positive denominators: a ≤ b. -/
def leFrac (a b : Int × Int) : Bool := decide (a.1 * b.2 ≤ b.1 * a.2)
/-- n ⁄ d with the sign in n. -/
def frac (n d : Int) : Int × Int := if d < 0 then (-n, -d) else (n, d)

/-- Bounds of t, none where a side is open; `none` as a whole where no t is possible. -/
abbrev Bounds := Option (List (Int × Int) × List (Int × Int))

/-- The exact ray meets a box for some t from tmin to tmax. A box with a NaN is accepted. -/
def boxMeets (r tmax box : Nat) : Bool :=
  let lim := fun (x : Nat) (low : Bool) => match F32.val false x with
    | .fin _ _ _ => some [(((fx32 x).getD 0), (2 : Int) ^ unitBits)]
    | .inf n => if n = low then some [] else none
    | .nan => some []
  let vals := (List.range 6).map (fun i => F32.val false (fld box (4 * i) 4))
  if vals.any FV.isNan then true
  else
    let start : Bounds := match lim (fld r 32 4) true, lim tmax false with
      | some a, some b => some (a, b)
      | _, _ => none
    let b := (List.range 3).foldl (fun (b : Bounds) i =>
      match b with
      | none => none
      | some (lo, hi) =>
        let o := (rayO r).at_ i
        let d := (rayD r).at_ i
        let side := fun (k : Nat) => match (vals[k]?).getD .nan with
          | .fin _ _ _ => some ((fx32 (fld box (4 * k) 4)).getD 0)
          | _ => none
        let lowInf := match (vals[i]?).getD .nan with | .inf n => some n | _ => none
        let highInf := match (vals[i + 3]?).getD .nan with | .inf n => some n | _ => none
        if lowInf = some false ∨ highInf = some true then none
        else if d = 0 then
          (if (match side i with | some x => decide (x ≤ o) | none => true) && (match side (i + 3) with | some x => decide (o ≤ x) | none => true)
            then some (lo, hi) else none)
        else
          let near := (side i).map (fun x => frac (x - o) d)
          let far := (side (i + 3)).map (fun x => frac (x - o) d)
          if 0 < d then some (lo ++ near.toList, hi ++ far.toList) else some (lo ++ far.toList, hi ++ near.toList)) start
    match b with
    | none => false
    | some (lo, hi) => lo.all (fun a => hi.all (fun c => leFrac a c))

/-- A hit: rounded t, PRIM, u, v, back face, and the triangle's address. -/
structure RayHit where
  t : Nat
  prim : Nat
  u : Nat
  v : Nat
  back : Bool
  addr : Nat
  deriving DecidableEq, Repr

/-- R443: the ray meets the triangle whose 48 bytes are given. -/
def triMeets (r b addr : Nat) : Option RayHit :=
  match vecAt b 0, vecAt b 12, vecAt b 24 with
  | some v0, some v1, some v2 =>
    let e1 := Vec.sub v1 v0
    let e2 := Vec.sub v2 v0
    let dn := Vec.dot (rayD r) (Vec.cross e1 e2)
    if dn = 0 then none
    else
      let k : Int := if dn < 0 then 1 else -1
      let a := -dn * k
      let o := Vec.sub (rayO r) v0
      let q := Vec.cross o e1
      let u := k * Vec.dot o (Vec.cross (rayD r) e2)
      let v := k * Vec.dot (rayD r) q
      let t := k * Vec.dot e2 q
      if u < 0 ∨ v < 0 ∨ a < u + v ∨ (rayCullB r ∧ 0 < dn) then none
      else some ⟨roundQ F32 t a 0 false, fld b 36 4, roundQ F16 u a 0 false, roundQ F16 v a 0 false, decide (0 < dn), addr⟩
  | _, _, _ => none

/-- R444. -/
def hitAccepts (r tmax t : Nat) : Bool :=
  let x := F32.val false t
  !x.isNan && !ltNum x (F32.val false (fld r 32 4)) && !ltNum (F32.val false tmax) x

/-! ## Traversal (R439 to R441, R446) -/

/-- A child still to be visited: the slots from the root, its box (none for the root), its reference. -/
structure Todo where
  path : List Nat
  box : Option Nat
  ref : Nat
  deriving DecidableEq, Repr

/-- A traversal: children to visit, the next first; the best hit; TMAX in force; how it ended (0 for a first hit with ANY,
else ERR), and the page that is to be requested. -/
structure Trav where
  todo : List Todo
  best : Option RayHit := none
  tmax : Nat
  stop : Option Nat := none
  want : Option Nat := none
  deriving DecidableEq, Repr

def refType (x : Nat) : Nat := bits x 63 62
def refCnt (x : Nat) : Nat := bits x 61 57
def refAddr (x : Nat) : Nat := bits x 56 0

/-- R440 of a reference. -/
def refOk (x : Nat) : Bool :=
  match refType x with
  | 0 => refCnt x == 0 && refAddr x == 0
  | 1 => refAddr x % 128 == 0
  | 2 => refAddr x % 16 == 0
  | _ => false

def Trav.err (a : Trav) (c : Nat) : Trav := { a with stop := some c }
/-- A read that fails: ERR 4, or ERR 5 with a request for the page. -/
def Trav.unread (a : Trav) (e : NoPage × Nat) : Trav :=
  match e.1 with
  | .fault => a.err 4
  | .nonres => { a.err 5 with want := some e.2 }

/-- Children whose box is not met are skipped. -/
def Trav.trim (r : Nat) (a : Trav) : Trav :=
  { a with todo := a.todo.dropWhile (fun t => match t.box with | some b => !boxMeets r a.tmax b | none => false) }

/-- The children of a node, as they are still to be visited. -/
def children (b : Nat) (path : List Nat) (from_ : Nat) : List Todo :=
  ((List.range 4).filter (fun c => decide (from_ ≤ c) && refType (fld b (96 + 8 * c) 8) ≠ 0)).map (fun c =>
    ⟨path ++ [c], some (fld b (24 * c) 24), fld b (96 + 8 * c) 8⟩)

def nodeRefsOk (b : Nat) : Bool := (List.range 4).all (fun c => refOk (fld b (96 + 8 * c) 8))

/-- One triangle of a leaf. -/
def State.testTri (s : State) (root r addr : Nat) (a : Trav) : Trav :=
  if a.stop.isSome then a
  else match s.badPage root addr 48 .rd with
    | some e => a.unread e
    | none =>
      let b := s.readV root addr 48
      if fld b 40 8 ≠ 0 then a.err 2
      else match triMeets r b addr with
        | none => a
        | some h =>
          if !hitAccepts r a.tmax h.t then a
          else if rayAny r then { a with best := some h, stop := some 0 }
          else
            let better := match a.best with
              | none => true
              | some o => ltNum (F32.val false h.t) (F32.val false o.t)
                  || (!ltNum (F32.val false o.t) (F32.val false h.t) && decide (h.prim < o.prim))
            if better then { a with best := some h, tmax := h.t } else a

/-- The next node or leaf is visited. -/
def State.visit (s : State) (root r : Nat) (a : Trav) : Trav :=
  match a.todo with
  | [] => a
  | t :: rest =>
    let a1 := { a with todo := rest }
    if 17 ≤ t.path.length then a1.err 3
    else if refType t.ref = 1 then
      match s.badPage root (refAddr t.ref) 128 .rd with
      | some e => a1.unread e
      | none =>
        let b := s.readV root (refAddr t.ref) 128
        if !nodeRefsOk b then a1.err 2 else { a1 with todo := children b t.path 0 ++ rest }
    else (List.range (refCnt t.ref + 1)).foldl (fun a i => s.testTri root r (refAddr t.ref + 48 * i) a) a1

/-- The traversal has ended. -/
def Trav.over (a : Trav) : Bool := a.stop.isSome || a.todo.isEmpty

/-- A traversal whose next child lies at depth 17 or deeper has ended (R441). -/
def Trav.deep (a : Trav) : Trav :=
  match a.todo with
  | t :: _ => if !a.stop.isSome && decide (17 ≤ t.path.length) then a.err 3 else a
  | [] => a

/-- n visits, or fewer where the traversal ends. -/
def State.visits (s : State) (root r : Nat) : Nat → Trav → Trav
  | 0, a => a
  | n + 1, a => if a.over then a else s.visits root r n ((s.visit root r a).trim r)

/-- Descent along a trail: the rest of the slots, with the path so far. -/
def State.descend (s : State) (root r : Nat) : List Nat → List Nat → Nat → Trav → Trav
  | [], path, ref, a => { a with todo := ⟨path, none, ref⟩ :: a.todo }
  | c :: cs, path, ref, a =>
    if refType ref ≠ 1 then a.err 2
    else match s.badPage root (refAddr ref) 128 .rd with
      | some e => a.unread e
      | none =>
        let b := s.readV root (refAddr ref) 128
        let x := fld b (96 + 8 * c) 8
        if !nodeRefsOk b then a.err 2
        else
          let a1 := { a with todo := children b path (c + 1) ++ a.todo }
          if refType x = 0 then (if cs.isEmpty then a1 else a1.err 2) else s.descend root r cs (path ++ [c]) x a1

/-- The start of a traversal (R441, R451): a resumed ray recovers its best hit and its position. -/
def State.travStart (s : State) (root r : Nat) : Trav :=
  let a0 : Trav := { todo := [], tmax := fld r 36 4 }
  let a1 := if rayResume r ∧ fld r 48 8 ≠ 0 then
      (if fld r 48 8 % 16 ≠ 0 then a0.err 2
       else match s.badPage root (fld r 48 8) 48 .rd with
        | some e => a0.unread e
        | none =>
          let b := s.readV root (fld r 48 8) 48
          if fld b 40 8 ≠ 0 then a0.err 2 else { a0 with best := triMeets r b (fld r 48 8) })
    else a0
  if a1.stop.isSome then a1
  else
    let path := if rayResume r then (List.range (rayLevel r)).map (rayTrail r) else []
    (s.descend root r path [] (2 ^ 62 + rayRoot r) a1).trim r

/-- More visits than any hierarchy of R441 has. -/
def allVisits : Nat := 2 ^ 36

/-! ## Output records (R448, R449) -/

/-- The output record of a ray: the edge, the words, and ERR. -/
def rayOutput (r : Nat) (best : Option RayHit) (err : Nat) (invalid : Bool) : Nat × List Word × Nat :=
  let copied := fld r 8 24 * 2 ^ 128 + rayRoot r * 2 ^ 320 + fld r 56 8 * 2 ^ 448
  let (edge, v) := match (if err = 0 then best else none) with
    | some h => (0, h.t + h.prim * 2 ^ 32 + h.u * 2 ^ 64 + h.v * 2 ^ 80 + (1 + 2 * h.back.toNat) * 2 ^ 96 + h.addr * 2 ^ 384)
    | none => (1, 0x7F800000 + 0xFFFFFFFF * 2 ^ 32 + (4 * invalid.toNat + 16 * err) * 2 ^ 96)
  (edge, (List.range 16).map (fun i => .ofNat 32 ((v + copied) / 2 ^ (32 * i))), err)

/-- How a ray ends that reads no memory: malformed (R438), invalid (R445) or both. -/
def rayAtOnce (r : Nat) : Option (Nat × List Word × Nat) :=
  if !rayOk r then some (rayOutput r none 1 (rayInvalid r))
  else if rayInvalid r then some (rayOutput r none 0 true)
  else none

def Trav.output (r : Nat) (a : Trav) : Nat × List Word × Nat := rayOutput r a.best (a.stop.getD 0) false

/-! ## Units (R436, R447) -/

def State.raysAt (s : State) (die : Nat) : Rays := FMap.get {} s.rays die
def State.setRays (s : State) (die : Nat) (r : Rays) : State := { s with rays := FMap.set {} s.rays die r }
def Rays.unit (r : Rays) (u : Nat) : List Ray := FMap.get [] r.units u

def Rcd.ray (r : Rcd) : Nat := packWords r.words

/-- Records of one packet from the oldest on: 1 where it goes alone. -/
def packetLen (q : List Rcd) : Nat :=
  match q with
  | [] => 0
  | a :: _ =>
    if rayCoh a.ray && !rayResume a.ray then
      ((q.take 64).takeWhile (fun b => rayCoh b.ray && !rayResume b.ray && rayRoot b.ray == rayRoot a.ray)).length
    else 1

/-- Records put in flight one by one, each with its reservations, until one finds none or the unit is full. -/
def State.fly (s : State) (l : Launch) (nd die home unit : Nat) (packet : Option Nat) : List Rcd → State
  | [] => s
  | r :: rest =>
    let y := s.raysAt die
    match s.reserve l nd die 1 with
    | none => s
    | some res =>
      if 256 ≤ (y.unit unit).length then s
      else
        let ray : Ray :=
          { id := y.next, launch := l.seq, node := nd, rcd := r, home := home, packet := packet
            resq := FMap.setMany 0 [] ((List.range 8).zip (res.map Prod.fst))
            ress := FMap.setMany 0 [] ((List.range 8).zip (res.map Prod.snd)) }
        let s1 := s.setRays die { y with next := y.next + 1, units := y.units.set [] unit (y.unit unit ++ [ray]) }
        let s2 := s1.modLaunch l.seq (fun l => l.setQueue nd home ((l.queue nd home).erase r))
        State.fly s2 (s2.launch l.seq) nd die home unit packet rest

/-- A packet or one ray from the head of a list of records. -/
def State.flyHead (s : State) (l : Launch) (nd die home unit : Nat) (q : List Rcd) : State :=
  let k := packetLen q
  let y := s.raysAt die
  let coh := match q with | a :: _ => rayCoh a.ray && !rayResume a.ray | [] => false
  let s1 := s.fly l nd die home unit (if coh then some y.next else none) (q.take k)
  if coh && decide (y.next < (s1.raysAt die).next) then
    s1.setRays die { s1.raysAt die with packets := (s1.raysAt die).packets + 1 }
  else s1

/-- All of a list, packet by packet. -/
def State.flyAll : Nat → State → Nat → Nat → Nat → Nat → Nat → List Rcd → State
  | 0, s, _, _, _, _, _, _ => s
  | f + 1, s, q, nd, die, home, unit, rs =>
    if rs.isEmpty then s
    else State.flyAll f (s.flyHead (s.launch q) nd die home unit rs) q nd die home unit (rs.drop (packetLen rs))

/-- The records of a list up to each resume record, which no packet crosses (R447). -/
def rayRuns : List Rcd → List Rcd → List (List Rcd)
  | run, [] => if run.isEmpty then [] else [run]
  | run, r :: rest =>
    if rayResume r.ray then (if run.isEmpty then rayRuns [] rest else run :: rayRuns [] rest) else rayRuns (run ++ [r]) rest

/-- The first n records of some runs. -/
def takeRuns : Nat → List (List Rcd) → List (List Rcd)
  | _, [] => []
  | n, run :: rest => if run.length < n then run :: takeRuns (n - run.length) rest else [run.take n]

/-- RAY_TAKE (R436, R447). A take of 64 leaves resume records in their queue: they are taken one at a time (log entry 77), and no packet
goes over one. -/
def execRayTake (die unit launch node : Nat) (s : State) : Host.Outcome State Fault Refusal :=
  .next (match s.launch? launch with
    | none => s
    | some l =>
      let own := l.queue node die
      let far := l.queue node (1 - die)
      if !s.forms l || (l.node node).kind ≠ 3 || decide (12 ≤ unit) then s
      else if !own.isEmpty then s.flyHead l node die die unit own
      else
        let runs := if 128 ≤ far.length then
            (match far with | a :: _ => if rayResume a.ray then [[a]] else takeRuns 64 (rayRuns [] far) | [] => [])
          else ((far.find? (fun r => rayResume r.ray)).toList).map (fun r => [r])
        let s1 := runs.foldl (fun s rs => State.flyAll (rs.length + 1) s launch node die (1 - die) unit rs) s
        if (s1.raysAt die).next = (s.raysAt die).next then s
        else s1.modLaunch launch (fun l => { l with steals := l.steals + 1 }))

/-- A ray leaves its unit; a packet that falls below 16 rays is split. -/
def Rays.drop (y : Rays) (unit : Nat) (r : Ray) : Rays :=
  let rest := (y.unit unit).erase r
  let left := (rest.filter (fun q => decide (q.packet = r.packet))).length
  let split := r.packet.isSome && decide (0 < left) && decide (left < 16)
  let rest1 := if split then rest.map (fun q => if q.packet = r.packet then { q with packet := none } else q) else rest
  { y with units := y.units.set [] unit rest1, splits := y.splits + (if split then 1 else 0) }

/-- A ray leaves its unit for its queue: pre-emption dissolves its packet, which is no split (R451, R452). -/
def Rays.dissolve (y : Rays) (unit : Nat) (r : Ray) : Rays :=
  { y with units := y.units.set [] unit (((y.unit unit).erase r).map (fun q => if q.packet = r.packet then { q with packet := none } else q)) }

/-- The output record of a ray is appended on its reservation, and the rest of it is released. -/
def State.rayEnds (s : State) (die unit : Nat) (r : Ray) (out : Nat × List Word × Nat) (want : Option Nat) : State :=
  let l := s.launch r.launch
  let s1 := match want with | some va => (s.post die 127 (some l.root) l.ctxid 1 va).2 | none => s
  let y := (s1.raysAt die).drop unit r
  let s2 := s1.setRays die { y with rays := y.rays + 1, errors := y.errors + (if out.2.2 = 0 then 0 else 1) }
  match l.target r.node out.1 with
  | none => s2
  | some t => s2.modLaunch l.seq (fun l =>
      l.append t die (padTo ((l.node t).rsz / 4) out.2.1) 0 (s.die die).watch.toNat (FMap.get 0 r.resq out.1 == 0))

def Rays.find (y : Rays) (unit ray : Nat) : Option Ray := (y.unit unit).find? (fun r => decide (r.id = ray))

/-- RAY_RESULT (R448). -/
def execRayResult (die unit ray : Nat) (s : State) : Host.Outcome State Fault Refusal :=
  .next (match (s.raysAt die).find unit ray with
    | none => s
    | some r =>
      let v := r.rcd.ray
      match rayAtOnce v with
      | some out => s.rayEnds die unit r out none
      | none =>
        let root := (s.launch r.launch).root
        let a := s.visits root v allVisits (s.travStart root v)
        s.rayEnds die unit r (a.output v) a.want)

/-- A resume record (R451). -/
def resumeRecord (r : Nat) (a : Trav) : List Word :=
  let path := match a.todo with | t :: _ => t.path | [] => []
  let trail := ((List.range path.length).zip path).foldl (fun v p => v + p.2 * 4 ^ p.1) 0
  let htri := match a.best with | some h => h.addr | none => 0
  let v := r % 2 ^ 288 + a.tmax * 2 ^ 288 + Nat.lor (fld r 40 1) 8 * 2 ^ 320 + path.length * 2 ^ 328 + trail * 2 ^ 352
    + htri * 2 ^ 384 + fld r 56 8 * 2 ^ 448
  (List.range 16).map (fun i => .ofNat 32 (v / 2 ^ (32 * i)))

/-- RAY_RESUME_WRITE (R451): after some visits the ray of a pre-empted context goes back to the queue, or its output is
appended where its traversal has ended. -/
def execRayResumeWrite (die unit ray n : Nat) (s : State) : Host.Outcome State Fault Refusal :=
  .next (match (s.raysAt die).find unit ray with
    | none => s
    | some r =>
      let l := s.launch r.launch
      let v := r.rcd.ray
      if !s.preempted l.ctxid then s
      else match rayAtOnce v with
        | some out => s.rayEnds die unit r out none
        | none =>
          let a := (s.visits l.root v n (s.travStart l.root v)).deep
          if a.over then s.rayEnds die unit r (a.output v) a.want
          else
            let y := (s.raysAt die).dissolve unit r
            let rc : Rcd := { r.rcd with words := resumeRecord v a }
            (s.setRays die { y with resumes := y.resumes + 1 }).modLaunch l.seq (fun l =>
              l.setQueue r.node die (l.queue r.node die ++ [rc])))

end Sys2Proof.Machine
end

