-- ==== Sys2Proof/Machine/MxNode.lean ====
section
/-!
DEFINITION. Machine/MxNode.lean: the matrix fixed node (R337 to R340).
-/
namespace Sys2Proof.Machine

/-! ## Records and descriptors (R338) -/

/-- Status 1 of an input record: a bound or a byte that must be 0. -/
def mxRecOk (r : Nat) : Bool :=
  fld r 0 8 % 64 == 0 && decide (1 ≤ fld r 24 2) && decide (fld r 24 2 ≤ 64) && fld r 26 2 == 0 && fld r 32 32 == 0

/-- Status 1 of a network header. -/
def mxHeadOk (h : Nat) : Bool := decide (1 ≤ fld h 0 1) && decide (fld h 0 1 ≤ 16) && fld h 1 63 == 0

/-- Status 1 of a layer; `prev` is N of the layer before. -/
def mxLayerOk (y : Nat) (prev : Option Nat) : Bool :=
  let k := fld y 16 2
  decide (16 ≤ k) && decide (k ≤ 4096) && k % 16 == 0 && decide (1 ≤ fld y 18 2) && decide (fld y 18 2 ≤ 64)
    && decide (fld y 20 1 ≤ 2) && fld y 21 43 == 0 && (match prev with | some n => k == n | none => true)

/-- Status 2 or 4 of ranges (R340), with the page to be requested: a page that may not be accessed comes before one that is not
resident, wherever it lies. -/
def State.mxRanges (s : State) (root : Nat) (l : List (Nat × Nat × Need)) : Except (Nat × Option Nat) Unit :=
  let bad := l.flatMap (fun r => (pagesOf r.1 r.2.1).filterMap (fun p =>
    match s.pageAt root p.1 r.2.2 with | .ok _ => none | .error e => some (e, p.1)))
  if bad.any (fun e => e.1 == .fault) then .error (2, none)
  else match bad with
    | [] => .ok ()
    | e :: _ => .error (4, some e.2)

/-! ## The network (R339)

X is kept as BF16 bits, row by row. -/

/-- Elements of n bytes from an address on. -/
def State.elems (s : State) (root va n count : Nat) : List Nat :=
  let v := s.readV root va (n * count)
  (List.range count).map (fun i => fld v (n * i) n)

/-- ACT: a NaN stays canonical. -/
def mxAct (act x : Nat) : Nat :=
  match BF16.val false x with
  | .nan => BF16.nanBits
  | v => match act with
    | 1 => if v.neg then 0 else x
    | 2 => BF16.clamp01 x
    | _ => x

/-- One output element of a layer. -/
def mxElem (x w : List Nat) (k n i j : Nat) (bias : Option Nat) (act : Nat) : Nat :=
  let acc := (List.range (k / 16)).foldl (fun acc m =>
    accFloat acc (groupSum ((List.range 16).map (fun t =>
      (BF16.val false ((x[i * k + 16 * m + t]?).getD 0), BF16.val false ((w[(16 * m + t) * n + j]?).getD 0)))))) 0
  let acc := match bias with
    | some b => (F64.enc .rn false (sumFV .rn [F64.val false acc, F32.val false b]).1).1
    | none => acc
  mxAct act (outConvert 2 false acc)

/-- One layer, checked before it is read: the next X and N. -/
def State.mxLayer (s : State) (root net l m : Nat) (first : Option Nat) (x : List Nat) (prev : Option Nat) :
    Except (Nat × Option Nat) (List Nat × Nat) := do
  let a := net + 64 + 64 * l
  s.mxRanges root [(a, 64, .rd)]
  let y := s.readV root a 64
  if !mxLayerOk y prev then .error (1, none)
  else
    let k := fld y 16 2
    let n := fld y 18 2
    s.mxRanges root ((match first with | some inp => [(inp, 2 * m * k, .rd)] | none => [])
      ++ (fld y 0 8, 2 * k * n, .rd) :: (if fld y 8 8 ≠ 0 then [(fld y 8 8, 4 * n, .rd)] else []))
    let x := match first with | some inp => s.elems root inp 2 (m * k) | none => x
    let w := s.elems root (fld y 0 8) 2 (k * n)
    let b := if fld y 8 8 ≠ 0 then some (s.elems root (fld y 8 8) 4 n) else none
    .ok ((List.range (m * n)).map (fun e =>
      mxElem x w k n (e / n) (e % n) (b.map (fun l => (l[e % n]?).getD 0)) (fld y 20 1)), n)

/-- Layers from l on. -/
def State.mxLayers (s : State) (root net m inp : Nat) : Nat → Nat → List Nat → Option Nat → Except (Nat × Option Nat) (List Nat × Nat)
  | 0, _, x, prev => .ok (x, prev.getD 0)
  | f + 1, l, x, prev =>
    match s.mxLayer root net l m (if l = 0 then some inp else none) x prev with
    | .error e => .error e
    | .ok (x', n) => s.mxLayers root net m inp f (l + 1) x' (some n)

/-- A record through its network: the bytes of OUT, or its STATUS. -/
def State.mxNetwork (s : State) (root r : Nat) : Except (Nat × Option Nat) (List Nat) := do
  if !mxRecOk r then .error (1, none)
  else
    let net := fld r 0 8
    let m := fld r 24 2
    s.mxRanges root [(net, 64, .rd)]
    let h := s.readV root net 64
    if !mxHeadOk h then .error (1, none)
    else
      let (x, n) ← s.mxLayers root net m (fld r 8 8) (fld h 0 1) 0 [] none
      s.mxRanges root [(fld r 16 8, 2 * m * n, .wr)]
      .ok x

/-- The output record (R338). -/
def mxOutRecord (r status : Nat) : List Word :=
  let v := fld r 16 8 + fld r 28 4 * 2 ^ 64 + status * 2 ^ 96
  (List.range 4).map (fun i => .ofNat 32 (v / 2 ^ (32 * i)))

/-- The node uses both sets of the unit, which hold what it leaves: the spec gives no value. -/
def Mx.used (tick : Nat) (m : Mx) : Mx :=
  let free := fun k => (List.range 4096).foldl (fun (f : FMap Dword) i =>
    f.set 0 i ((Config.word tick (k + 2 * i)) ++ (Config.word tick (k + 2 * i + 1)))) []
  { m with live := free 0, shad := free 8192, ovfl := Config.choice tick 0, ovfs := Config.choice tick 1 }

/-- MXNODE_RECORD (R339, R340): a reserved unit takes the next record of its die's sub-queue. -/
def execMxnodeRecord (die unit launch node : Nat) (s : State) : Host.Outcome State Fault Refusal :=
  .next (match s.launch? launch with
    | none => s
    | some l =>
      let n := l.node node
      match l.queue node die with
      | [] => s
      | rc :: rest =>
        if !s.forms l || n.kind ≠ 4 || decide (96 ≤ unit) || decide (unit + n.ru < 96) then s
        else match s.reserve l node die 1, l.target node 0 with
          | some res, some t =>
            let r := packWords rc.words
            let (s1, status) := match s.mxNetwork l.root r with
              | .ok x => (s.writeV l.root (fld r 16 8) (2 * x.length) (ofBytes (x.flatMap (toBytes 2))), 0)
              | .error (c, want) => ((match want with | some va => (s.post die 127 (some l.root) l.ctxid 1 va).2 | none => s), c)
            (s1.modMx (coreKey die unit) (Mx.used s.tick)).modLaunch launch (fun l =>
              (l.setQueue node die rest).append t die (padTo ((l.node t).rsz / 4) (mxOutRecord r status)) 0
                (s.die die).watch.toNat (((res[0]?).getD (0, 0)).1 == 0))
          | _, _ => s)

end Sys2Proof.Machine
end

