-- ==== Sys2Proof/Machine/Preempt.lean ====
section
/-!
DEFINITION. Machine/Preempt.lean: pre-emption by software and by the shadow swap, and the way back (R277 to R281, R258,
R259, R403).
-/
namespace Sys2Proof.Machine

/-! ## The request (R277, R403) -/

/-- Places of the valid waves of a context on shader cores. -/
def State.ctxWaves (s : State) (ctxid : Nat) : List (Nat × Wave) :=
  s.waves.filter (fun p => p.2.valid && decide (p.1 / 64 % 99 < 96) && decide (p.2.ctxid = ctxid))

/-- PREEMPT_REQUEST (R277, R403, R434): running waves stop, the others when they would run again, open raster passes are
stored. A wave without a lane in any context drains. -/
def execPreemptRequest (ctxid : Nat) (s : State) : Host.Outcome State Fault Refusal :=
  .next (if s.preempted ctxid then s
    else
      let s1 : State := { s with preempts := s.preempts ++ [⟨ctxid, [(s.die 0).watch.toNat, (s.die 1).watch.toNat]⟩] }
      let s2 := ((s1.ctxWaves ctxid).filter (fun p => p.2.liveLanes ≠ 0 || !(s1.tailsOf (p.1 / 64) (p.1 % 64)).isEmpty)).foldl (fun s p =>
        (s.modWave p.1 (fun w => { w with stopReq := true })).boundaryStop (p.1 / 64 / 99) (p.1 / 64 % 99) (p.1 % 64)) s1
      (s2.drainRaster 0 ctxid).drainRaster 1 ctxid)

/-! ## The redirect (R258, R259) -/

/-- Registers k0 to k7 at the entry of a handler: the save area, 1 or 2, the group's wave count, zeros. -/
def handlerRegs (area kind count : Nat) : List (Nat × Word) :=
  (List.range 8).flatMap (fun k =>
    let v : Word := match k with
      | 0 => .ofNat 32 area
      | 1 => .ofNat 32 (area / 2 ^ 32)
      | 2 => .ofNat 32 kind
      | 3 => .ofNat 32 count
      | _ => 0
    (List.range 32).map (fun lane => (regKey (420 + k) lane, v)))

/-- The wave's divergence state is parked, and its live lanes run at a handler with STATE 3. -/
def Wave.redirect (w : Wave) (entry area kind count : Nat) : Wave :=
  let w1 := (List.range 8).foldl (fun w k => w.plain (420 + k)) w
  { w1 with
    parked := some { w.div with redo := w.redo }
    div := { stack := [runE (.ofNat 57 entry) 0 (liveMask w.div.stack)] }
    state := 3, cause := 0, number := 0, async := false, redo := []
    regs := FMap.setMany 0 w1.regs (handlerRegs area kind count) }

/-- A wave that pre-emption stopped. -/
def State.stopped2 (s : State) (die core wave : Nat) : Bool :=
  let w := s.wave (waveKey die core wave)
  w.valid && decide (core < 96) && w.state == 2 && s.preempted w.ctxid

/-- PREEMPT_REDIRECT (R258, R278): the wave's stores have drained, and it runs its save handler. A wave whose main context has
ended has no lane to run it, and stays stopped in its slot (log entry 70). -/
def execPreemptRedirect (die core wave : Nat) (s : State) : Host.Outcome State Fault Refusal :=
  let ck := coreKey die core
  let w := s.wave (ck * 64 + wave)
  let l := s.launch (w.funel.launch.getD 0)
  let t := s.publishWave (mainSel die core wave)
  .next (if !s.stopped2 die core wave || !s.storesDrained ck wave || w.liveLanes == 0 then s
    else t.setWave (ck * 64 + wave)
      ((t.wave (ck * 64 + wave)).redirect l.saveh (l.saveArea die core wave) 1 ((s.core ck).group w.gid).waves.length))

/-- REDIRECT_TIMEOUT (R278): 20 µs after the request, a wave whose stores have not drained is killed under its fault
domain. -/
def execRedirectTimeout (die core wave : Nat) (s : State) : Host.Outcome State Fault Refusal :=
  let w := s.wave (waveKey die core wave)
  let since := (((s.preempts.find? (fun p => decide (p.ctxid = w.ctxid))).getD ⟨0, []⟩).since[die]?).getD 0
  .next (if !s.stopped2 die core wave || s.storesDrained (coreKey die core) wave
      || decide (((s.die die).watch.toNat + 2 ^ 64 - since) % 2 ^ 64 < 2000) then s
    else s.killUnder die core wave 0 0)

/-! ## The way back (R279, R403) -/

/-- No wave of the context is stopped for pre-emption with lanes left, in a handler, or on its way out of one. -/
def State.canResume (s : State) (ctxid : Nat) : Bool :=
  (s.ctxWaves ctxid).all (fun p => (p.2.state ≠ 2 || p.2.liveLanes == 0) && (p.2.state ≠ 3 || !p.2.stopReq) && !p.2.funel.halted)
    && !s.shadows.any (fun h => decide (h.ctxid = ctxid))

/-- A wave that was stopped for pre-emption runs again in its slot, its contexts settled (R87). -/
def State.settleWave (s : State) (wk : Nat) : State := s.settleAll ⟨wk / 64 / 99, wk / 64 % 99, wk % 64, 63⟩

/-- The context runs again, and in it the waves that stayed stopped in their slots. -/
def State.endPreempt (s : State) (ctxid : Nat) : State :=
  (s.ctxWaves ctxid).foldl (fun s p =>
      let again := p.2.state == 2 && p.2.liveLanes == 0
      let s1 := s.modWave p.1 (fun w => { w with stopReq := false, state := if again then 0 else w.state })
      if again then s1.settleWave p.1 else s1)
    { s with preempts := s.preempts.filter (fun p => p.ctxid ≠ ctxid) }

/-- The listed waves of a group, by their number in it. -/
def State.listed (s : State) (q gno : Nat) : List SavedWave :=
  (s.saved.filter (fun v => decide (v.launch = q) && decide (v.gno = gno))).mergeSort (fun a b => decide (a.gi ≤ b.gi))

/-- A listed wave as it is placed again, redirected to the restore handler: its parked state is that of a wave at its
start (R80), with the lanes that the Funel gave it. -/
def Launch.restoreWave (l : Launch) (v : SavedWave) (gid count : Nat) (p : WavePlace) : Wave :=
  let n := l.node v.funel.node
  let lanes := if n.clu = 0 then v.funel.batchn else n.b
  let w : Wave :=
    { valid := true, n := n.rows, row := p.2, gid := gid, gi := v.gi, ctxid := l.ctxid, root := some l.root
      div := { stack := [runE (.ofNat 57 n.code) 0 (.ofNat 32 (2 ^ lanes - 1))], can := v.funel.can }
      redo := v.funel.redo, table := v.funel.table
      fpctl := .ofNat 32 n.fpctl, recbase := if n.recsp then n.recArea v.gi else 0xFFFFFFFF
      funel := { v.funel with halted := false, tails := 0, redo := [], can := none, table := [] } }
  w.redirect l.resth v.area 2 count

/-- Free tail slots for the tails of a group (R195). -/
def State.tailsFit (s : State) (die core : Nat) (vs : List SavedWave) : Bool :=
  decide (vs.foldl (fun n v => n + v.funel.tails) 0 ≤ s.freeTails (coreKey die core))

/-- A listed group takes a place. -/
def State.restoreGroup (s : State) (l : Launch) (nd gno m nb : Nat) (cl : Option ClusterInfo) (sp : Spot) (vs : List SavedWave) : State :=
  (s.placeGroup l nd gno m nb cl sp (fun _ c => c) (fun gid i p => match vs[i]? with
    | some v => l.restoreWave v gid vs.length p
    | none => {}))

/-- The places of a listed cluster: member m on core m of one cluster of each die (R403, R78, R20). -/
def State.listedSpots (s : State) (l : Launch) (nd die first : Nat) (vs : Nat → List SavedWave) (other : List Spot) : Option (List Spot) :=
  let n := l.node nd
  let all := (List.range 12).filterMap (fun k =>
    let ps := (List.range 8).foldl (fun (a : Option (List Spot)) m =>
      match a with
      | none => none
      | some out =>
        let c := 8 * k + m
        let g := vs (first + m)
        if s.coreAllowed l n die c && !s.coreHeld n die c && s.tailsFit die c (if m < n.clun then g else []) then
          (s.spot n (if m < n.clun then g.length else 0) (if m < n.clun then n.nbar else 0) die c).map (fun p => out ++ [p])
        else none) (some [])
    match ps with
    | some ps => if s.budgetOk l nd (other ++ ps) then some ps else none
    | none => none)
  leastBy (fun a b => decide ((a.foldl (fun v p => v + s.occupied die p.core) 0) < (b.foldl (fun v p => v + s.occupied die p.core) 0))) all

/-- The members of a cluster on one die. -/
def State.restoreMembers (s : State) (l : Launch) (nd first : Nat) (cl : ClusterInfo) (vs : Nat → List SavedWave) (ps : List Spot) : State :=
  let n := l.node nd
  ((List.range ps.length).zip ps).foldl (fun s p =>
    s.restoreGroup l nd (first + p.1) p.1 (if p.1 < n.clun then n.nbar else 0) (some cl) p.2
      (if p.1 < n.clun then vs (first + p.1) else [])) s

/-- A listed cluster starts again, on one die or on both. -/
def State.restoreCluster (s : State) (l : Launch) (v : SavedWave) : State :=
  let nd := v.funel.node
  let n := l.node nd
  let count := n.clun * n.clu
  let vs := fun g => s.listed l.seq g
  let gone := fun (s : State) => { s with saved := s.saved.filter (fun u =>
    !(decide (u.launch = l.seq) && decide (v.first ≤ u.gno) && decide (u.gno < v.first + count))) }
  let total := fun a => (List.range n.clun).foldl (fun t i => t + (vs (a + i)).length) 0
  let base := fun (ps : List Spot) => (ps.map (fun p => p.core)).headD 0
  let cid := l.seq * 2 ^ 32 + v.first
  if n.clu = 1 then
    match s.listedSpots l nd v.die v.first vs [] with
    | none => s
    | some ps => (gone s).restoreMembers l nd v.first ⟨cid, base ps, false, 0, total v.first⟩ vs ps
  else match s.listedSpots l nd 0 v.first vs [] with
    | none => s
    | some a => match s.listedSpots l nd 1 (v.first + n.clun) vs a with
      | none => s
      | some b =>
        ((gone s).restoreMembers l nd v.first ⟨cid, base a, true, base b, total v.first⟩ vs a).restoreMembers l nd (v.first + n.clun)
          ⟨cid, base b, true, base a, total (v.first + n.clun)⟩ vs b

/-- RESTORE_PLACE (R279, R403, R434): the context runs again, and a listed group or cluster is placed whole. -/
def execRestorePlace (die launch gno : Nat) (s : State) : Host.Outcome State Fault Refusal :=
  .next (match s.launch? launch with
    | none => s
    | some l =>
      if s.preempted l.ctxid && !s.canResume l.ctxid then s
      else
      let s1 := if s.preempted l.ctxid then s.endPreempt l.ctxid else s
      match s.saved.find? (fun v => decide (v.launch = launch) && decide (v.die = die) && decide (v.gno = gno)) with
      | none => s1
      | some v =>
        let n := l.node v.funel.node
        let left := (s.wavesOf launch).any (fun p => if n.clu = 0 then decide (p.2.funel.gno = gno)
          else decide (v.first ≤ p.2.funel.gno) && decide (p.2.funel.gno < v.first + n.clun * n.clu))
        if left then s1
        else if n.clu = 0 then
          let vs := s.listed launch gno
          match s1.pickCore l v.funel.node vs.length die (fun c => !s1.coreHeld n die c && s1.tailsFit die c vs) with
          | none => s1
          | some sp =>
            ({ s1 with saved := s1.saved.filter (fun u => !(decide (u.launch = launch) && decide (u.gno = gno))) } : State).restoreGroup
              l v.funel.node gno 0 n.nbar none sp vs
        else s1.restoreCluster l v)

/-! ## The shadow swap (R278, R280, R281) -/

/-- Cores of the partition of a context, as die and core. -/
def State.partition (s : State) (ctxid : Nat) : List (Nat × Nat) :=
  match s.launches.find? (fun l => decide (l.ctxid = ctxid)) with
  | none => []
  | some l => (List.range 192).filterMap (fun i => if bitN l.cmask i then some (i / 96, i % 96) else none)

/-- The core is halted, and holds waves of this context only: guarded jobs whose run has ended are no longer in flight, and their slot
stays open (R336). -/
def State.coreHalted (s : State) (ctxid die core : Nat) : Bool :=
  (s.residents (coreKey die core)).all (fun p => decide (p.2.ctxid = ctxid) && (p.2.state == 1 || p.2.state == 2 || p.2.state == 4))
    && (s.core (coreKey die core)).mx.items.isEmpty && (s.core (coreKey die core)).chans.all (fun p => p.2.cmds.isEmpty)

/-- Banks of the shadow reservation of a die: 1,152 KiB per core. -/
def shadowBanks (cores : Nat) : Nat := (cores * 1152 + 2047) / 2048

/-- What a swapped core keeps: its split, its counters, its translations and lines. -/
def Core.vacate (c : Core) : Core :=
  { c with scratch := [], prior := [], owner := [], queues := [], pushes := [], bars := [], held := [], groups := [], chans := [], mx := {} }

/-- What a restored core takes from its image. -/
def Core.refill (c i : Core) : Core :=
  { c with
    regg := i.regg, scrg := i.scrg, l1g := i.l1g, scratch := i.scratch, prior := i.prior, owner := i.owner, queues := i.queues, pushes := i.pushes
    bars := i.bars, held := i.held, groups := i.groups, nextGid := i.nextGid, chans := i.chans, mx := i.mx }

/-- SHADOW_SWAP (R278). -/
def execShadowSwap (ctxid : Nat) (s : State) : Host.Outcome State Fault Refusal :=
  let cores := s.partition ctxid
  let cks := cores.map (fun p => coreKey p.1 p.2)
  let whole := s.launches.all (fun l => decide (l.ctxid = ctxid) || cores.all (fun p => !bitN l.cmask (96 * p.1 + p.2)))
  let n := fun die => shadowBanks ((cores.filter (fun p => decide (p.1 = die))).length)
  let banks := (s.takeBanks 0 16 (n 0) 3 0).bind (fun s => s.takeBanks 1 16 (n 1) 3 0)
  .next (match banks with
    | none => s
    | some s1 =>
      if cores.isEmpty || !s.preempted ctxid || !whole || s.shadows.any (fun h => decide (h.ctxid = ctxid))
          || !cores.all (fun p => s.coreHalted ctxid p.1 p.2) then s
      else
        let mine := s.launches.filter (fun l => decide (l.ctxid = ctxid))
        let ofCtx := fun (r : Region) => mine.any (fun l => decide (l.seq = r.launch))
        let image : Shadow :=
          { gen := fmtGen, ctxid := ctxid
            waves := s.waves.filter (fun p => cks.contains (p.1 / 64))
            cores := cks.map (fun k => (k, s.core k))
            tails := s.tails.filter (fun p => cks.contains (p.1 / 32))
            regions := s.regions.filter ofCtx }
        let s2 : State := { s1 with
          waves := s1.waves.filter (fun p => !cks.contains (p.1 / 64))
          tails := s1.tails.filter (fun p => !cks.contains (p.1 / 32))
          regions := s1.regions.filter (fun r => !ofCtx r)
          shadows := s1.shadows ++ [image] }
        cks.foldl (fun s k => s.modCore k Core.vacate) s2)

/-- A wave of a restored image runs again where pre-emption had stopped it; it has not issued since (R82). R268 checks what `hret` resumes,
and nothing checks this wave (log entry 81). -/
def Wave.fromShadow (w : Wave) : Wave :=
  if w.valid then { w with state := if w.state = 2 then (if w.parked.isSome then 3 else 0) else w.state, stopReq := false, lastIssue := 0 } else w

/-- SHADOW_RESTORE (R278, R281): every piece returns to its place, on cores that are empty. An image of another generation is refused, and
set in RFAULT of the management core that serves its first core (log entry 83). -/
def execShadowRestore (ctxid : Nat) (s : State) : Host.Outcome State Fault Refusal :=
  .next (match s.shadows.find? (fun h => decide (h.ctxid = ctxid)) with
    | none => s
    | some h =>
      let cks := h.cores.map Prod.fst
      if !cks.all (fun k => s.coreEmpty (k / 99) (k % 99)) then s
      else if h.gen ≠ fmtGen then
        match cks with
        | [] => s
        | k :: _ => s.modCore (mgmtOf (k / 99) (k % 99)) (fun c =>
            { c with rfault := .ofNat 64 (2 ^ 63 + h.gen % 65536 * 2 ^ 32 + ctxid % 65536 * 2 ^ 16) })
      else
        let n := fun die => shadowBanks ((cks.filter (fun k => decide (k / 99 = die))).length)
        let s1 := (s.freeBanks 0 (n 0) 3 0).freeBanks 1 (n 1) 3 0
        let s2 : State := { s1 with
          waves := FMap.setMany {} s1.waves (h.waves.map (fun p => (p.1, p.2.fromShadow)))
          tails := FMap.setMany {} s1.tails h.tails
          regions := s1.regions ++ h.regions
          shadows := s1.shadows.erase h }
        let s3 := h.cores.foldl (fun s p => s.modCore p.1 (fun c => c.refill p.2)) s2
        ((h.waves.filter (fun p => p.2.valid && p.2.state == 2)).foldl (fun s p => s.settleWave p.1) s3).endPreempt ctxid)

end Sys2Proof.Machine
end

