-- ==== Sys2Proof/Machine/Fabric.lean ====
section
/-!
DEFINITION. Machine/Fabric.lean: the fabric of a die: fault-buffer registers (R275, R276), migrations (R357), time-outs
(R365, R216), the Lehr (R359 to R363) and shared arbitration (R24, R25, R27).
-/
namespace Sys2Proof.Machine

/-- Ticks since a watch value. -/
def State.since (s : State) (die t : Nat) : Nat := (s.now die + 2 ^ 64 - t) % 2 ^ 64

/-! ## The fault buffer (R275, R276) -/

/-- FB_FLUSH (R275). -/
def execFbFlush (die : Nat) (s : State) : Host.Outcome State Fault Refusal := .next (s.modDie die Die.flush)

/-- FBBASE as a write leaves it: ADDR and EN, unless an entry is unserved. -/
def Die.setFbbase (d : Die) (v : Nat) : Die :=
  if fbCount d = 0 then { d with fbbase := .ofNat 64 (bits v 47 14 * 2 ^ 14 + v % 2) } else d

/-- FBBASE_WRITE (R276), Gaffer's. -/
def execFbbaseWrite (die : Nat) (v : Dword) (s : State) : Host.Outcome State Fault Refusal :=
  .next (if s.cdie.governs die then s.modDie die (fun d => d.setFbbase v.toNat) else s)

/-! ## Migrations (R357) -/

/-- A declared cell or a word with deferred requests lies in the page. -/
def State.pageBusy (s : State) (pa size : Nat) : Bool :=
  s.cells.any (fun p => p.2.isSome && decide (pa ≤ 4 * p.1) && decide (4 * p.1 < pa + size))
    || s.defer.any (fun d => d.copy.isNone && decide (pa ≤ d.addr) && decide (d.addr < pa + size))

/-- MIGRATION_OPEN (R357): refused while the page holds a cell or a word with waiting requests, or another open migration touches
its pages; Gaffer runs (R461) and the memory is powered (R472). The page is copied, and the old home performs every access from now on. -/
def execMigrationOpen (old new size : Nat) (s : State) : Host.Outcome State Fault Refusal :=
  let ok := s.cdie.verified && s.cdie.serves old && s.cdie.serves new && decide (0 < size) && s.memOk old size && s.memOk new size && (decide (old + size ≤ new) || decide (new + size ≤ old))
    && !s.pageBusy old size && !s.migs.any (fun g => [g.old, g.new].any (fun a => [old, new].any (fun b => decide (a < b + size) && decide (b < a + g.size))))
  .next (if ok then
      let s1 := (List.range size).foldl (fun (s : State) i => { s with mem := FMap.set memDefault s.mem (new + i) (s.byte (old + i)) }) s
      { s1 with migs := s1.migs ++ [⟨old, new, size⟩] }
    else s)

/-- A translation of the old page names the new home. -/
def Tlb.moved (g : Migration) (t : Tlb) : Tlb :=
  if g.old ≤ t.pa ∧ t.pa < g.old + g.size then { t with pa := g.new + (t.pa - g.old) } else t

/-- An address of the old page as the new home has it. -/
def Migration.moved (g : Migration) (pa : Nat) : Nat := if g.old ≤ pa ∧ pa < g.old + g.size then g.new + (pa - g.old) else pa

/-- What a wave has not yet stored is forwarded. -/
def Wave.moved (g : Migration) (w : Wave) : Wave :=
  { w with late := w.late.map (fun e => match e.place with | .phys pa => { e with place := .phys (g.moved pa) } | _ => e) }

/-- What a core holds of the old page, its translations and its commands' samples, names the new home. -/
def Core.moved (g : Migration) (c : Core) : Core :=
  { c with
    tlb := c.tlb.map (Tlb.moved g)
    chans := c.chans.map (fun p => (p.1, p.2.map (fun k => { k with snap := k.snap.map (Option.map (fun e => (if e.1 < 2 ^ 64 then g.moved e.1 else e.1, e.2))) }))) }

/-- MIGRATION_CLOSE (R357): a page that holds a cell or a deferred request by now stays where it is. The tags of the page have moved
with it, and what an old translation reaches is forwarded. -/
def execMigrationClose (old : Nat) (s : State) : Host.Outcome State Fault Refusal :=
  .next (match s.migs.find? (fun g => decide (g.old = old)) with
    | none => s
    | some g =>
      if s.pageBusy g.old g.size then s
      else
        let is := List.range (g.size / 8)
        let tags := is.map (fun i => (g.new / 8 + i, FMap.get false s.empties (g.old / 8 + i)))
        { s with
          empties := FMap.setMany false (FMap.setMany false s.empties (is.map (fun i => (g.old / 8 + i, false)))) tags
          migs := s.migs.erase g
          waves := s.waves.map (fun p => (p.1, p.2.moved g))
          shadows := s.shadows.map (fun h => { h with waves := h.waves.map (fun p => (p.1, p.2.moved g)), cores := h.cores.map (fun p => (p.1, p.2.moved g)) })
          cores := s.cores.map (fun p => (p.1, p.2.moved g)) })

/-! ## Time-outs (R365, R216) -/

/-- TMO in watch ticks. -/
def State.tmo (s : State) (die : Nat) : Nat := 100 * (s.lehr die).tmo.toNat

/-- An access of a wave times out: its lanes that crossed raise `WATCH`; a load writes nothing in them, what they have not
performed at home is not performed, and a carved line that was to be filled stays ABSENT. -/
def State.accessTimeout (s : State) (die core w : Nat) (a : Access) : State :=
  let wk := waveKey die core w
  let lost := s.modWave wk (fun v => { v with
    accs := v.accs.map (fun b => if b.id = a.id then { b with
      writes := b.writes.filter (fun p => !a.xdie.getLsbD (p.1 % 32)), due := b.due.filter (fun k => !a.xdie.getLsbD (k % 32)) } else b)
    late := v.late.filter (fun e => !(e.acc == a.id && a.xdie.getLsbD e.lane)) })
  let s1 := ((lost.settleLate (accSel die core w a) a.id false).unfill (s.agent (accSel die core w a)) a.at_).endAccess die core w a.id a.load
  s1.modWave wk (fun v => { v with pend := v.pend ++ [{ ctx := a.ctx, cause := cWATCH, lanes := some a.xdie }] })

/-- A `done` is not acknowledged: the waves of its die that are blocked on the barrier raise `WATCH` in the lanes of the blocked
instruction, and stop at it (R216). -/
def State.doneTimeout (s : State) (die core bar : Nat) : State :=
  let ck := coreKey die core
  let b := s.bar ck bar
  let s1 := if Config.choice s.tick 0 then (match execBarrierDoneMsg die core bar s with | .next t => t | _ => s)
    else s.setBar ck bar { b with sent := b.sent.drop 1 }
  (s1.waves.filter (fun p => p.2.valid && decide (p.1 / 64 / 99 = die) && p.2.main.onBar == some (256 * ck + bar))).foldl (fun s p =>
    let x := mainSel die (p.1 / 64 % 99) (p.1 % 64)
    s.stop x (s.waveTrap x cWATCH p.2.main.barMask)) s1

/-- XDIE_TIMEOUT (R365). -/
def execXdieTimeout (what : XReq) (s : State) : Host.Outcome State Fault Refusal :=
  .next (match what with
    | .access die core w acc =>
      (match (s.wave (waveKey die core w)).accs.find? (fun a => decide (a.id = acc)) with
      | some a => if a.xdie ≠ 0 ∧ s.tmo die ≤ s.since die a.born then s.accessTimeout die core w a else s
      | none => s)
    | .copy die core ch =>
      let ck := coreKey die core
      (match (s.chan ck ch).queue with
      | k :: _ =>
        if k.read && k.started && !k.dropped then
          match s.lineCrosses die core k with
          | some a =>
            if s.tmo die ≤ s.since die k.born then s.copyStopped ck ch k (2, a)
            else s
          | none => s
        else s
      | [] => s)
    | .done die core bar =>
      (match (s.bar (coreKey die core) bar).sent with
      | t :: _ => if s.tmo die ≤ s.since die t then s.doneTimeout die core bar else s
      | [] => s))

/-- XTMO_WRITE (R362), Gaffer's. -/
def execXtmoWrite (die : Nat) (v : Word) (s : State) : Host.Outcome State Fault Refusal :=
  .next (if s.cdie.governs die then
      s.modLehr die (fun h => { h with tmo := if v.toNat % 65536 = 0 then 1 else .ofNat 16 v.toNat })
    else s)

/-- An access, a copy or a matrix item of the die is under way, or an access of the other die to it. -/
def State.dieBusy (s : State) (die : Nat) : Bool :=
  s.waves.any (fun p => p.2.accs.any (fun a => decide (p.1 / 64 / 99 = die) || a.xdie != 0))
    || s.cores.any (fun p => decide (p.1 / 99 = die) && !(p.2.idle && p.2.pushes.isEmpty))

/-- STOPPED_CLOCK_ENTRY (R365): only once the die's requests have drained. -/
def execStoppedClockEntry (die : Nat) (s : State) : Host.Outcome State Fault Refusal :=
  .next (if s.dieBusy die then s else s.modLehr die (fun h => { h with stopped := true }))

/-- A request that arrives at a stopped die restarts its clock (R365). -/
def State.wakeClocks (s : State) : State :=
  [0, 1].foldl (fun s die =>
    if (s.lehr die).stopped && s.dieBusy die then s.modLehr die (fun h => { h with stopped := false }) else s) s

/-! ## Banks (R359 to R361) -/

/-- H(n) of R361. -/
def hotBanks (n : Nat) : Nat := match n with | 0 => 1 | 1 => 2 | 2 => 4 | 3 => 6 | 4 => 8 | 5 => 10 | 6 => 12 | _ => 16

/-- The highest phase in force on a die. -/
def State.phaseOf (s : State) (die : Nat) : Nat :=
  (s.waves.filter (fun p => p.2.valid && decide (p.1 / 64 / 99 = die) && decide (p.1 / 64 % 99 < 96))).foldl (fun m p =>
    let cap := match p.2.funel.launch with | some q => ((s.launch q).node p.2.funel.node).rcb.phase | none => 0
    max m (min p.2.bwphase cap)) 0

/-- The cache banks of a bank's slice. -/
def Lehr.cacheOf (h : Lehr) (slice : Nat) : List Nat := ((List.range 16).map (fun i => slice * 16 + i)).filter (fun c => (h.bank c).role == 1)

/-- Bank c was used later than bank b, or as late and stands before it. -/
def Lehr.newer (h : Lehr) (c b : Nat) : Bool :=
  decide ((h.bank b).used < (h.bank c).used) || (decide ((h.bank c).used = (h.bank b).used) && decide (c < b))

/-- The bank counts toward H(n): it is among the most recently used HOT cache banks of its slice. -/
def State.keptHot (s : State) (die b : Nat) : Bool :=
  let h := s.lehr die
  (h.bank b).role == 1 &&
    decide (((h.cacheOf (b / 16)).filter (fun c => (h.bank c).state == 0 && h.newer c b)).length < hotBanks (s.phaseOf die))

/-- BANK_TO_WARM (R359). -/
def execBankToWarm (die bank : Nat) (s : State) : Host.Outcome State Fault Refusal :=
  let h := s.lehr die
  let k := h.bank bank
  .next (if s.cdie.powered die ∧ k.state = 0 ∧ k.role ≠ 0 ∧ k.next = none ∧ !s.pinned bank ∧ h.dwellw ≠ 0 ∧ h.dwellw.toNat ≤ s.since die k.used ∧ !s.keptHot die bank then
      s.modLehr die (fun h => h.setBank bank { k with state := 1, entered := s.now die })
    else s)

/-- Ticks of hold after entry, and of a wake (R359). -/
def holdTicks (state : Nat) : Nat := if state = 1 then 20 else 200
def wakeTicks (state : Nat) : Nat := if state = 1 then 6 else 40

/-- Requests outstanding: of a slice, or of the Lehr itself. -/
def Lehr.outstanding (h : Lehr) (background : Bool) (slice : Nat) : Nat :=
  (h.banks.filter (fun p => match p.2.req with
    | some r => r.background == background && (background || decide (p.1 / 16 = slice))
    | none => false)).length

/-- A wake request for a bank (R360, R363): one that is HOT, waking or requested needs none; an entry of less than 20 ns is
aborted; else the request waits for the end of the bank's hold. -/
def Lehr.ask (h : Lehr) (now bank set : Nat) (background clean : Bool) : Lehr :=
  let k := h.bank bank
  let age := (now + 2 ^ 64 - k.entered) % 2 ^ 64
  if k.state = 0 ∨ k.state = 3 ∨ k.req.isSome ∨ (if background then 8 else 2) ≤ h.outstanding background (bank / 16) then h
  else if age < 2 then
    (h.setBank bank { (Bank.arrive k now) with clean := false }).modSet set (fun t => { t with aborts := t.aborts + 1 })
  else
    let hold := holdTicks k.state - age
    { (h.setBank bank { k with req := some ⟨now, now + hold, h.orders, set, background⟩, clean := clean }).modSet set
        (fun t => { t with holdt := t.holdt + .ofNat 64 hold }) with orders := h.orders + 1 }

/-- BANK_CLEAN_COLD (R359): a cache bank that has stayed WARM for DWELLC ticks is woken as a background request, to be cleaned and
sent COLD. -/
def execBankCleanCold (die bank : Nat) (s : State) : Host.Outcome State Fault Refusal :=
  let h := s.lehr die
  let k := h.bank bank
  .next (if s.cdie.powered die ∧ k.state = 1 ∧ k.role = 1 ∧ k.req.isNone ∧ k.next.isNone ∧ h.dwellc ≠ 0 ∧ h.dwellc.toNat ≤ s.since die k.entered then
      s.modLehr die (fun h => h.ask (s.now die) bank 0 true true)
    else s)

/-- The counter set that a request is charged to (R363): that of the launch whose agent made the access. -/
def State.chargedTo (s : State) (die : Nat) : WakeReq → Nat
  | .wave d core w => match (s.wave (waveKey d core w)).funel.launch with
    | some q => ((s.launch q).lset[die]?).getD 0
    | none => 0
  | .unit q => ((s.launch q).lset[die]?).getD 0

/-- WAKE_REQUEST (R360, R363): an access reaches a bank. A HOT bank serves it; for any other the slice asks for a wake, or the bank
waits its turn where the slice has two requests outstanding. A background request is the Lehr's own, and makes a free bank a
cache bank. Which bank holds a line the spec leaves open, so the event names it (log entry 72). -/
def execWakeRequest (die bank : Nat) (who : WakeReq) (background : Bool) (s : State) : Host.Outcome State Fault Refusal :=
  let k := (s.lehr die).bank bank
  let now := s.now die
  let set := s.chargedTo die who
  .next (if !s.cdie.powered die then s else s.modLehr die (fun h =>
    if background then
      if k.role = 0 ∧ !s.takeable die bank false then h
      else (if k.role = 0 then h.setBank bank { k with next := some (1, 0) } else h).ask now bank 0 true false
    else if k.role = 0 then h
    else if k.state = 0 then h.setBank bank { k with used := now }
    else if k.state = 3 ∨ k.req.isSome then h
    else if 2 ≤ h.outstanding false (bank / 16) ∨ h.waits.any (fun p => decide (p.1 / 16 = bank / 16)) then
      if h.waits.any (fun p => p.1 == bank) then h else { h with waits := h.waits ++ [(bank, set)] }
    else h.ask now bank set false false))

/-- The requests of a die that are eligible and not started, in order of arrival. -/
def Lehr.eligible (h : Lehr) (now : Nat) : List (Nat × Wake) :=
  (h.banks.filterMap (fun p => match p.2.req with
    | some r => if r.eligible ≤ now ∧ p.2.wakes.isNone then some (p.1, r) else none
    | none => none)).mergeSort (fun a b => decide (a.2.order ≤ b.2.order))

/-- One wake starts, at the later of its eligibility and its window's start. -/
def Lehr.startWake (window : Nat) (h : Lehr) (p : Nat × Wake) : Lehr :=
  let t := max p.2.eligible (10 * window)
  let k := h.bank p.1
  (h.setBank p.1 { k with state := 3, wakes := some (t, k.state) }).modSet p.2.set (fun c =>
    { c with queuet := c.queuet + .ofNat 64 (t - p.2.eligible) })

/-- The banks that the Lehr wakes of itself: those that wait for a role, and of each slice the most recently used cache banks that
are missing from H(n) (R361). -/
def State.backgroundWakes (s : State) (die : Nat) : List Nat :=
  let h := s.lehr die
  let roles := (h.banks.filter (fun p => p.2.next.isSome)).map Prod.fst
  let slices := ((h.banks.filter (fun p => p.2.role == 1)).map (fun p => p.1 / 16)).eraseDups
  roles ++ slices.flatMap (fun sl =>
    let c := h.cacheOf sl
    let hot := (c.filter (fun b => (h.bank b).state == 0 || (h.bank b).state == 3 || ((h.bank b).req.isSome && !(h.bank b).clean))).length
    let cold := (c.filter (fun b => (h.bank b).req.isNone && ((h.bank b).state == 1 || (h.bank b).state == 2))).mergeSort (fun a b => h.newer a b)
    cold.take (hotBanks (s.phaseOf die) - hot))

/-- WAKE_WINDOW (R360, R361): the Lehr's own requests are made, and at most 8 wakes start in a window of 100 ns. -/
def execWakeWindow (die : Nat) (s : State) : Host.Outcome State Fault Refusal :=
  let now := s.now die
  let win := now / 10
  .next (if !s.cdie.powered die then s else s.modLehr die (fun h0 =>
    let h := (s.backgroundWakes die).foldl (fun h b => h.ask now b 0 true false) h0
    let used := if h.window = win then h.starts else 0
    let go := (h.eligible now).take (8 - used)
    { go.foldl (Lehr.startWake win) h with window := win, starts := used + go.length }))

/-- The next bank of a slice whose access waits makes its request. -/
def Lehr.serveWaits (h : Lehr) (now slice : Nat) : Lehr :=
  match h.waits.find? (fun p => decide (p.1 / 16 = slice)) with
  | some p => if 2 ≤ h.outstanding false slice then h else ({ h with waits := h.waits.erase p } : Lehr).ask now p.1 p.2 false false
  | none => h

/-- BANK_HOT (R360). -/
def execBankHot (die bank : Nat) (s : State) : Host.Outcome State Fault Refusal :=
  let k := (s.lehr die).bank bank
  let now := s.now die
  .next (match k.wakes, k.req with
    | some (t, from_), some r =>
      if s.cdie.powered die ∧ k.state = 3 ∧ t + wakeTicks from_ ≤ now then
        s.modLehr die (fun h => ((h.setBank bank (k.arrive now)).modSet r.set (fun c =>
          if from_ = 1 then { c with wakew := c.wakew + 1 } else { c with wakec := c.wakec + 1 })).serveWaits now (bank / 16))
      else s
    | _, _ => s)

/-! ## Shared arbitration (R24, R25, R27)

Point numbers are the model's: 0 to 63 are the GDDR-7 schedulers, by channel, and any other number names another point. -/

def State.arb (s : State) (pt : Nat) : Arb := FMap.get {} s.arbs pt

/-- The class a request is served as (R25). -/
def Waiting.served (cycles : Nat) (w : Waiting) : Nat := if 3 < w.cls ∧ 4096 ≤ cycles - w.born then 3 else w.cls

/-- The class that a request carries from its cause (R23). -/
def State.causeClass (s : State) : ReqCause → Nat
  | .wave die core w => s.classOf core (s.wave (waveKey die core w))
  | .copy die core ch => match (s.chan (coreKey die core) ch).queue with
    | k :: _ => s.classOf core (s.wave (waveKey die core k.wave))
    | [] => 4
  | .matrix die core => match (s.core (coreKey die core)).mx.queue with
    | m :: _ => s.classOf core (s.wave (waveKey die core m.wave))
    | [] => 4
  | .unit q => ((s.launch q).path.getLastD {}).cls
  | .firmware => 0
  | .service => 1
  | .display => 2
  | .background => 5

/-- One transfer of a waiting request. -/
def serveOne (l : List Waiting) (w : Waiting) : List Waiting :=
  if w.transfers ≤ 1 then l.filter (fun v => v.id ≠ w.id)
  else l.map (fun v => if v.id = w.id then { v with transfers := v.transfers - 1 } else v)

/-- The waiting request of the lowest class, and in it the oldest (R24, R25). -/
def Arb.best (a : Arb) : Option Waiting :=
  leastBy (fun v w => decide (v.served a.cycles < w.served a.cycles)
    || (v.served a.cycles == w.served a.cycles && decide (v.id < w.id))) a.waiting

/-- The request that the next transfer goes to, and what is left of the burst in progress (R24, R27): the slot reserved for class 2,
else a class 0 request, else the burst, else the request that is first. A burst is two transfers of one request. -/
def Arb.next (a : Arb) (pt : Nat) : Option (Waiting × Option (Nat × Nat)) :=
  if pt < 64 ∧ a.cycles % 128 = 127 then
    (match a.waiting.find? (fun (w : Waiting) => w.cls == 2) with | some w => some w | none => a.best).map (fun w =>
      (w, if a.burst.map Prod.fst = some w.id then none else a.burst))
  else match a.waiting.find? (fun (w : Waiting) => w.cls == 0) with
    | some w => some (w, a.burst)
    | none => match a.burst.bind (fun b => (a.waiting.find? (fun (w : Waiting) => decide (w.id = b.1))).map (fun w => (w, b))) with
      | some (w, b) => some (w, if b.2 ≤ 1 then none else some (b.1, b.2 - 1))
      | none => a.best.map (fun w => (w, if 2 ≤ w.transfers then some (w.id, 1) else none))

/-- Requests that have arrived wait, with the class of their cause. -/
def State.arrivedAt (s : State) (a : Arb) (arrivals : List ArbReq) : Arb :=
  (arrivals.filter (fun r => decide (0 < r.transfers))).foldl (fun (a : Arb) r =>
    { a with waiting := a.waiting ++ [⟨a.nextId, s.causeClass r.cause, r.who, r.transfers, a.cycles⟩], nextId := a.nextId + 1 }) a

/-- ARB_GRANT (R24): requests that have arrived wait, and one transfer is granted. -/
def execArbGrant (pt : Nat) (arrivals : List ArbReq) (s : State) : Host.Outcome State Fault Refusal :=
  let a := s.arrivedAt (s.arb pt) arrivals
  let a1 := match a.next pt with
    | some (w, b) => { a with waiting := serveOne a.waiting w, burst := b, granted := some (w.who, w.cls) }
    | none => { a with burst := none, granted := none }
  .next { s with arbs := FMap.set {} s.arbs pt { a1 with cycles := a1.cycles + 1 } }

/-- ARB_AGEING (R25). -/
def execArbAgeing (pt : Nat) (s : State) : Host.Outcome State Fault Refusal :=
  let a := s.arb pt
  .next { s with arbs := FMap.set {} s.arbs pt { a with waiting := a.waiting.map (fun w => { w with cls := w.served a.cycles }) } }

end Sys2Proof.Machine
end

