-- ==== Sys2Proof/Machine/Cdie.lean ====
section
/-!
DEFINITION. Machine/Cdie.lean: the command die (file 25): host and display attachment (R454), boot, quotes and protected
roots (R460 to R463), bring-up and the thermal trip (R464, R465, R471, R472), rails and the power manager (R466 to R471),
telemetry (R473 to R476), and management-core waves (R252).
-/
namespace Sys2Proof.Machine

def State.modCdie (s : State) (f : Cdie → Cdie) : State := { s with cdie := f s.cdie }

/-! ## Sensors (R473) -/

def Cdie.unpowered (c : Cdie) (p : Nat) : Bool := (c.off[p]?).getD true

/-- Sensor 32p + 16l + s. -/
def Cdie.sensor (c : Cdie) (i : Nat) : Half := if c.unpowered (i / 32) then 0x8000 else FMap.get 0 c.sensors i

/-- The sensors of a rail's layer: VEC, MTX, and SRAM or FAB. -/
def railSensors (r : Nat) : List Nat :=
  let on := fun (l : List Nat) (layer : Nat) => [0, 1].flatMap (fun p => l.map (fun s => 32 * p + 16 * layer + s))
  match r with
  | 0 => on (List.range 8) 1
  | 1 => on ((List.range 8).map (· + 8)) 1
  | _ => on (List.range 16) 0

/-- The hottest of some sensors, in 1/16 °C. -/
def Cdie.hottest (c : Cdie) (l : List Nat) : Int := l.foldl (fun m i => max m (c.sensor i).toInt) (-32768)

/-! ## Rails (R466 to R468, R471) -/

def Cdie.rail (c : Cdie) (r : Nat) : Rail := (c.rails[r]?).getD {}
def Cdie.modRail (c : Cdie) (r : Nat) (f : Rail → Rail) : Cdie := { c with rails := c.rails.modify r f }

/-- VFT entry e at reset. -/
def vftReset (e : Nat) : Word := .ofNat 32 ((450 + 150 * e) * 2 ^ 16 + (650 + 25 * e))
def Rail.vftAt (r : Rail) (e : Nat) : Word := (FMap.find? r.vft e).getD (vftReset e)
def Rail.fmhz (r : Rail) (e : Nat) : Nat := bits (r.vftAt e).toNat 31 16
def Rail.vmv (r : Rail) (e : Nat) : Nat := bits (r.vftAt e).toNat 11 0

/-- STEPS (R471); a budget of 0 leaves it open. -/
def Rail.steps (tick r : Nat) (x : Rail) : Nat :=
  if x.wbud = 0 then Config.pick tick r % 9 else min 8 (8 * x.wacc.toNat / x.wbud.toNat)

/-- CEIL (R468). -/
def Rail.withCeil (tick r : Nat) (x : Rail) : Rail := { x with ceil := min x.maxe (15 - x.steps tick r) }

/-- The entry the rail runs (R468, R465). -/
def Cdie.goal (c : Cdie) (r : Nat) : Nat :=
  if c.stage = 2 then 5 else min (c.rail r).target (min (c.rail r).ceil (c.rail r).pmcap)

/-- A VFT write passes R467. -/
def Rail.vftOk (x : Rail) (e f v : Nat) : Bool :=
  decide (f ≤ x.fmax.toNat) && decide (v ≤ x.vmax)
    && (e == 0 || (decide (x.fmhz (e - 1) ≤ f) && decide (x.vmv (e - 1) ≤ v)))
    && (e == 15 || (decide (f ≤ x.fmhz (e + 1)) && decide (v ≤ x.vmv (e + 1))))
    && e != x.cur

def Rail.writeVft (e v : Nat) (x : Rail) : Rail :=
  let f := bits v 31 16
  let u := bits v 11 0
  if x.vftOk e f u then { x with vft := FMap.insert x.vft e (.ofNat 32 (f * 2 ^ 16 + u)) } else { x with rej := true }

/-- An agent acts: Gaffer once it is verified, Punty unless the boot has failed (R461). -/
def Cdie.runs (c : Cdie) (ag : Agent) : Bool :=
  match ag with
  | .host => true
  | .gaffer => c.verified
  | .punty => c.verified || c.fail == 0

/-- Whose writes to the power block take effect (R454). -/
def Cdie.mayPower (c : Cdie) (ag : Agent) : Bool := if ag = .host then c.hostpm else c.runs ag

/-- VFT_WRITE (R467). -/
def execVftWrite (ag : Agent) (rail e : Nat) (v : Word) (s : State) : Host.Outcome State Fault Refusal :=
  .next (if s.cdie.mayPower ag ∧ rail < 4 ∧ e < 16 then s.modCdie (fun c => c.modRail rail (Rail.writeVft e v.toNat)) else s)

/-- VFSEL_WRITE (R468): REJ is cleared by 1, and TARGET is set but in stage 2 (R465). -/
def execVfselWrite (ag : Agent) (rail : Nat) (v : Word) (s : State) : Host.Outcome State Fault Refusal :=
  .next (if s.cdie.mayPower ag ∧ rail < 4 then
      s.modCdie (fun c => c.modRail rail (fun x =>
        { x with rej := x.rej && !v.getLsbD 31, target := if c.stage = 2 then x.target else v.toNat % 16 }))
    else s)

/-- RAIL_CHANGE_DONE (R468). -/
def execRailChangeDone (rail : Nat) (s : State) : Host.Outcome State Fault Refusal :=
  .next (s.modCdie (fun c => c.modRail rail (fun x => { x with cur := c.goal rail })))

/-- PMCTL as a write leaves it (R469); HOSTPM is Gaffer's. -/
def Cdie.setPmctl (c : Cdie) (ag : Agent) (v : Nat) : Cdie :=
  { c with
    hostpm := if ag = .gaffer then bitN v 63 else c.hostpm
    order := .ofNat 8 (bits v 47 40)
    idram := .ofNat 8 (bits v 39 32)
    wmaxc := min 12 (bits v 27 24)
    gmin := max 1 (min 4 (bits v 17 15)) }

/-- PMCTL_WRITE (R469). -/
def execPmctlWrite (ag : Agent) (v : Dword) (s : State) : Host.Outcome State Fault Refusal :=
  .next (if s.cdie.mayPower ag then s.modCdie (fun c => c.setPmctl ag v.toNat) else s)

/-! ## The power manager (R469, R470) -/

/-- The rails in ORDER. -/
def Cdie.railOrder (c : Cdie) : List Nat := (List.range 4).map (fun i => bits c.order.toNat (2 * i + 1) (2 * i))

def Cdie.lower (c : Cdie) (r : Nat) : Cdie :=
  c.modRail r (fun x => if 5 < x.pmcap then { x with pmcap := x.pmcap - 1 } else x)

/-- Package power (R469). -/
def Cdie.pmPackage (c : Cdie) : Cdie :=
  let low := decide (c.pkgpwr.toNat + 80 < c.pkglim.toNat)
  let held := if low then min 100 (c.lowPkg + 1) else 0
  let c1 := { c with lowPkg := held }
  if c.pkglim.toNat < c.pkgpwr.toNat then
    match c.railOrder.find? (fun r => decide (5 < (c.rail r).pmcap)) with
    | some r => c1.lower r
    | none => c1
  else if held = 100 then
    match c.railOrder.reverse.find? (fun r => decide ((c.rail r).pmcap < 15)) with
    | some r => c1.modRail r (fun x => { x with pmcap := x.pmcap + 1 })
    | none => c1
  else c1

/-- Temperature (R471). -/
def Cdie.pmHeat (c : Cdie) : Cdie :=
  (List.range 4).foldl (fun (d : Cdie) r => if c.tthr.toInt < c.hottest (railSensors r) then d.lower r else d) c

/-- GDDR-7 current in A (R469). -/
def Cdie.pmDram (c : Cdie) (dram : Nat) : Cdie :=
  let low := decide (10 * dram < 9 * c.idram.toNat)
  let held := if low then min 100 (c.lowDram + 1) else 0
  let c1 := { c with lowDram := held }
  if c.idram.toNat < dram then { c1 with wcode := if c.wcode < c.wmaxc then c.wcode + 1 else c.wcode }
  else if held = 100 then { c1 with wcode := c.wcode - 1 }
  else c1

/-- Read grants (R469): a lowering is the power manager's choice. -/
def Cdie.pmGrants (tick : Nat) (c : Cdie) : Cdie :=
  if (List.range 4).any (fun r => decide ((c.rail r).pmcap < (c.rail r).target)) then
    if c.gmin < c.gcur ∧ Config.choice tick 0 then { c with gcur := c.gcur - 1 } else c
  else if c.gcur < 4 then { c with gcur := c.gcur + 1 } else c

/-- PM_STEP (R469): one step of the power manager, every microsecond of the command die's own clock (R472), which this event counts; a thermal trip's 5 s are counted with it (R472). -/
def execPmStep (dram : Nat) (s : State) : Host.Outcome State Fault Refusal :=
  .next (s.modCdie (fun c =>
    let c1 := (((c.pmPackage).pmHeat).pmDram dram).pmGrants s.tick
    if c.tripped ∧ c.stage = 1 then { c1 with down := c.down + 1 } else c1))

/-- Tw (R471). -/
def wearWeight (t : Int) : Nat := if t < 1360 then 1 else if t < 1600 then 2 else 4

/-- WEAR_UPDATE (R471): an unpowered rail has no voltage. -/
def execWearUpdate (rail : Nat) (s : State) : Host.Outcome State Fault Refusal :=
  .next (s.modCdie (fun c =>
    let v := if c.unpowered 0 && c.unpowered 1 then 0 else (c.rail rail).vmv (c.rail rail).cur
    let gain := (v - 900) * wearWeight (c.hottest (railSensors rail))
    c.modRail rail (fun x => ({ x with wacc := x.wacc + BitVec.ofNat 64 gain }).withCeil s.tick rail)))

/-! ## Telemetry (R473 to R476) -/

/-- TELEMETRY_SAMPLE (R476): the readings, and the accesses to channels and corrected errors since the last one (log entry 78). -/
def execTelemetrySample (t : Telemetry) (s : State) : Host.Outcome State Fault Refusal :=
  .next (s.modCdie (fun c =>
    let ecc1 := t.ce.foldl (fun (m : FMap Ecc) p => FMap.set {} m p.1 { FMap.get {} m p.1 with ce := (FMap.get {} m p.1).ce + .ofNat 32 p.2 }) c.ecc
    let g1 := t.reads.foldl (fun (m : FMap Gddr) p => FMap.set {} m p.1 { FMap.get {} m p.1 with rds := (FMap.get {} m p.1).rds + .ofNat 64 p.2 }) c.gddr
    let g2 := t.writes.foldl (fun (m : FMap Gddr) p => FMap.set {} m p.1 { FMap.get {} m p.1 with wrs := (FMap.get {} m p.1).wrs + .ofNat 64 p.2 }) g1
    { c with
      pkgpwr := .ofNat 16 t.pkg
      pwr := BitVec.ofNat 64 ((List.range 4).foldl (fun v i => v + 2 ^ (16 * i) * ((t.rails[i]?).getD 0 % 65536)) 0)
      sensors := FMap.setMany 0 c.sensors (t.sensors.map (fun p => (p.1, BitVec.ofNat 16 p.2)))
      margins := t.margins.foldl (fun (m : FMap Margin) p =>
        let now : Half := .ofNat 16 p.2
        let old := FMap.get {} m p.1
        FMap.set {} m p.1 ⟨now, if now.toNat < old.min.toNat then now else old.min⟩) c.margins
      ecc := ecc1
      old := ⟨c.sensors, c.margins, c.pwr, c.pkgpwr⟩
      gddr := g2 }))

def Cdie.modGddr (c : Cdie) (half ch : Nat) (f : Gddr → Gddr) : Cdie :=
  { c with gddr := FMap.set {} c.gddr (32 * half + ch) (f (FMap.get {} c.gddr (32 * half + ch))) }

/-- GDDR_RETRAIN (R28, R474). -/
def execGddrRetrain (half ch : Nat) (failed : Bool) (s : State) : Host.Outcome State Fault Refusal :=
  .next (if half < 2 ∧ ch < 32 then
      s.modCdie (fun c => c.modGddr half ch (fun g =>
        { g with retrain := g.retrain + 1, rtfail := if failed then g.rtfail + 1 else g.rtfail }))
    else s)

/-- LINK_REPLAY (R28, R474). -/
def execLinkReplay (what : LinkErr) (half ch : Nat) (s : State) : Host.Outcome State Fault Refusal :=
  .next (match what with
    | .ucie => s.modCdie (fun c => { c with links := c.links + 1 })
    | .rdCrc => if half < 2 ∧ ch < 32 then s.modCdie (fun c => c.modGddr half ch (fun g => { g with rdcrc := g.rdcrc + 1 })) else s
    | .wrEdc => if half < 2 ∧ ch < 32 then s.modCdie (fun c => c.modGddr half ch (fun g => { g with wredc := g.wredc + 1 })) else s
    | .caPar => if half < 2 ∧ ch < 32 then s.modCdie (fun c => c.modGddr half ch (fun g => { g with capar := g.capar + 1 })) else s)

/-! ## The launch ring (R456, R472) -/

/-- LRTAIL_WRITE (R456): ignored, with OVF, when it would count more entries than the ring holds, and between a trip and
stage 3. -/
def execLrtailWrite (v : Word) (s : State) : Host.Outcome State Fault Refusal :=
  .next (s.modCdie (fun c =>
    if c.tripped ∨ c.ringSize < (v - c.lrhead).toNat then { c with lrstat := Nat.lor c.lrstat 1 } else { c with lrtail := v }))

/-- LRBASE_WRITE (R456). -/
def execLrbaseWrite (v : Dword) (s : State) : Host.Outcome State Fault Refusal :=
  .next (s.modCdie (fun c =>
    if c.lrhead = c.lrtail ∧ v.toNat % 16 ≤ 8 then { c with lrbase := .ofNat 64 (v.toNat / 4096 * 4096 + v.toNat % 16) } else c))

/-! ## Quotes (R462, R463) -/

/-- QUOTE_GO (R463). -/
def execQuoteGo (_ag : Agent) (s : State) : Host.Outcome State Fault Refusal := .next (s.modCdie (fun c => { c with qbusy := true }))

/-- MEAS0 to MEAS3 in order. -/
def Cdie.measBytes (c : Cdie) : List Byte := (List.range 4).flatMap (fun i => toBytes 64 ((c.meas[i]?).getD 0).toNat)

/-- n bytes of a list, filled with zeros. -/
def padBytes (n : Nat) (l : List Byte) : List Byte := (List.range n).map (fun i => (l[i]?).getD 0)

/-- The signature of a quote: at most 1,280 bytes. -/
def Cdie.quoteSig (c : Cdie) (nonce : Nat) : List Byte :=
  (Config.falconSign (ofBytes (Config.shake256 (toBytes 32 c.qnonce.toNat ++ c.measBytes) 64)) nonce).take 1280

/-- The quote block. -/
def Cdie.quoteBlock (c : Cdie) (nonce : Nat) : List Byte :=
  let sig := c.quoteSig nonce
  toBytes 32 c.qnonce.toNat ++ c.measBytes ++ toBytes 32 c.idhash.toNat ++ toBytes 2 sig.length ++ padBytes 62 [] ++ padBytes 1280 sig

/-- QUOTE_DONE (R463): Punty runs (R461), and the block is in place before DONE. -/
def execQuoteDone (s : State) : Host.Outcome State Fault Refusal :=
  .next (if !s.cdie.qbusy || !s.cdie.verified then s
    else
      let a := s.cdie.qaddr.toNat
      if s.memOk a 1664 && s.cdie.serves a then
        ((s.writePhys a (s.cdie.quoteBlock s.tick)).modCdie (fun c => { c with qbusy := false, qdone := true })).signal 1
      else (s.modCdie (fun c => { c with qbusy := false, qerr := true })).signal 1)

/-! ## Protected roots and boot (R460, R461) -/

/-- The digest of a request to Punty, over the model's layout of it (log entry 12). -/
def RootReq.digest (r : RootReq) : Nat :=
  ofBytes (Config.shake256 (toBytes 1 r.add.toNat ++ toBytes 1 r.idx ++ toBytes 2 r.ctxid ++ toBytes 8 r.root) 64)

/-- PROTECTED_ROOT_REQUEST (R460): it verifies against the fused key, as images do. -/
def execProtectedRootRequest (r : RootReq) (s : State) : Host.Outcome State Fault Refusal :=
  .next (if s.cdie.verified ∧ Config.falconVerify (RootReq.digest r) r.sig ∧ r.idx < 64 then
      s.modCdie (fun c => { c with roots := FMap.set none c.roots r.idx (if r.add then some (r.ctxid % 65536, r.root) else none) })
    else s)

/-- An image verifies (R461). -/
def Image.verifies (m : Image) : Bool :=
  m.digest == ofBytes (Config.shake256 m.body 64) && Config.falconVerify m.digest m.sig

/-- BOOT_VERIFY (R461, R462): Punty and then Gaffer; a failed check ends the boot. -/
def execBootVerify (b : BootSet) (s : State) : Host.Outcome State Fault Refusal :=
  .next (if s.cdie.stage ≠ 0 ∨ s.cdie.fail ≠ 0 then s
    else if !Image.verifies b.punty then s.modCdie (fun c => { c with fail := 1 })
    else if !Image.verifies b.gaffer then s.modCdie (fun c => { c with fail := 2 })
    else s.modCdie (fun c =>
      { c with
        stage := 1, verified := true, idhash := Config.identityHash
        meas := [b.punty.digest, b.gaffer.digest, b.mgmt, b.fuses].map (BitVec.ofNat 512) }))

/-! ## Bring-up (R464, R465) -/

/-- The pinned banks of stage 2, the lower half of each slice, are to become cache banks: the Lehr wakes them, since a role changes only in a
bank that is HOT (R348). -/
def Lehr.pinHalf (h : Lehr) : Lehr :=
  ((List.range 512).filter (fun b => decide (b % 16 < 8))).foldl (fun h b => h.setBank b { h.bank b with next := some (1, 0) }) h

/-- One half runs alone, at entry 5, as virtual die 0. -/
def State.bringUp (s : State) (half : Bool) : State :=
  (s.modLehr 0 Lehr.pinHalf).modCdie (fun c =>
    { c with stage := 2, half := half, off := [half, !half], rails := c.rails.map (fun x => { x with cur := 5 }) })

/-- A half may be brought up: the firmware runs, and the 5 s after a trip are over (R472). -/
def Cdie.mayBringUp (c : Cdie) : Bool := c.stage == 1 && (!c.tripped || decide (5000000 ≤ c.down))

/-- HALF_BRINGUP (R465): a half that fails its checks keeps the device at stage 1 (R464). -/
def execHalfBringup (half ok : Bool) (s : State) : Host.Outcome State Fault Refusal :=
  .next (if s.cdie.mayBringUp ∧ ok then s.bringUp half else s)

/-- STAGE3_ENTRY (R464, R468, R472). -/
def execStage3Entry (trained : Bool) (s : State) : Host.Outcome State Fault Refusal :=
  .next (if s.cdie.stage ≠ 2 then s
    else if trained then s.modCdie (fun c =>
      { c with stage := 3, fail := 0, tripped := false, off := [false, false], rails := c.rails.map (fun x => { x with target := 11 }) })
    else s.modCdie (fun c => { c with fail := 0x20 }))

/-- The halves without power: waves, records, commands, the base dies' registers but for the watch counters, and GDDR-7 are
lost; host memory stays. -/
def State.powerOff (s : State) : State :=
  { ({} : State) with
    mem := s.mem.filter (fun p => decide (2 ^ 36 ≤ p.1))
    dies := FMap.setMany {} [] (s.dies.map (fun p => (p.1, { watch := p.2.watch })))
    nextSeq := s.nextSeq, cdie := s.cdie, agenda := s.agenda, tick := s.tick }

/-- A sensor reads above TTRIP. -/
def Cdie.overheats (c : Cdie) : Bool := decide (c.ttrip.toInt < c.hottest (List.range 64))

/-- THERMAL_TRIP (R471, R472). -/
def execThermalTrip (s : State) : Host.Outcome State Fault Refusal :=
  .next (if !s.cdie.overheats then s
    else (s.powerOff.modCdie (fun c =>
      { c with
        stage := 1, fail := 0x10, tripped := true, down := 0, off := [true, true], arrived := []
        lrhead := c.lrtail, lrstat := Nat.lor c.lrstat 8
        tripcnt := if c.tripcnt = ~~~0 then c.tripcnt else c.tripcnt + 1 })).signal 0)

/-- TRIP_RECOVERY (R472): after 5 s the half that served stage 2 before is brought up. -/
def execTripRecovery (s : State) : Host.Outcome State Fault Refusal :=
  .next (if s.cdie.tripped ∧ s.cdie.mayBringUp then s.bringUp s.cdie.half else s)

/-- COLD_RESET (R5): every field at its reset value; Punty's wear values stay (R471), and host memory is not the
device's. -/
def execColdReset (s : State) : Host.Outcome State Fault Refusal :=
  .next { State.reset with
    mem := s.mem.filter (fun p => decide (2 ^ 36 ≤ p.1))
    agenda := s.agenda, tick := s.tick
    cdie := { ({} : Cdie) with
      rails := (List.range 4).map (fun r => ({ ({} : Rail) with wacc := (s.cdie.rail r).wacc, wbud := (s.cdie.rail r).wbud }).withCeil s.tick r) } }

/-! ## Register writes (R454, R459, R4) -/

/-- An agent's write to the CDCS is heard. -/
def Cdie.hears (c : Cdie) (ag : Agent) (off : Nat) : Bool :=
  (ag != .host && c.runs ag) || ag == .host && ([0x100, 0x10C, 0x110, 0x940, 0x948, 0x950, 0x958, 0x960, 0x968].contains off
    || (c.hostpm && decide (0x1000 ≤ off) && decide (off < 0x2000)))

/-- Eight bytes at byte offset o of a wide register replaced. -/
def setDword (x o v : Nat) : Nat := spliceBytes x o 8 v

/-- GDDR-7 counter set, piece k of 64 bits. -/
def Gddr.write (g : Gddr) (k v : Nat) : Gddr :=
  match k with
  | 0 => { g with wrs := .ofNat 64 v }
  | 1 => { g with rds := .ofNat 64 v }
  | 2 => { g with rtfail := .ofNat 16 v, retrain := .ofNat 16 (v / 2 ^ 16), capar := .ofNat 32 (v / 2 ^ 32) }
  | _ => { g with wredc := .ofNat 32 v, rdcrc := .ofNat 32 (v / 2 ^ 32) }

/-- A rail's registers that have no event of their own: VFLIM, WACC, WBUD, Punty's alone. -/
def Rail.write (tick r off v : Nat) (x : Rail) : Rail :=
  match off with
  | 0x40 => ({ x with fmax := .ofNat 16 (bits v 47 32), maxe := bits v 15 12, vmax := bits v 11 0 }).withCeil tick r
  | 0x50 => ({ x with wacc := .ofNat 64 v }).withCeil tick r
  | 0x58 => ({ x with wbud := .ofNat 64 v }).withCeil tick r
  | _ => x

/-- A register of the CDCS that has no event of its own: LRSTAT, QNONCE, QADDR, QCTL, the power block, and the counters. -/
def Cdie.write (c : Cdie) (tick : Nat) (ag : Agent) (off v : Nat) : Cdie :=
  if off = 0x110 then { c with lrstat := Nat.land c.lrstat (15 - v % 16) }
  else if 0x940 ≤ off ∧ off < 0x960 ∧ off % 8 = 0 then
    if c.qbusy then c else { c with qnonce := .ofNat 256 (setDword c.qnonce.toNat (off - 0x940) v) }
  else if off = 0x960 then if c.qbusy then c else { c with qaddr := .ofNat 64 (v / 64 * 64) }
  else if off = 0x968 then { c with qerr := c.qerr && !bitN v 3, qdone := c.qdone && !bitN v 2, qbusy := c.qbusy || bitN v 0 }
  else if 0x1000 ≤ off ∧ off < 0x1400 then
    if ag = .punty then c.modRail ((off - 0x1000) / 256) (Rail.write tick ((off - 0x1000) / 256) (off % 256) v) else c
  else if off = 0x1810 then if ag = .punty then { c with pkglim := .ofNat 16 (bits v 31 16) } else c
  else if off = 0x1818 then
    { c with tthr := .ofNat 16 v, ttrip := if ag = .punty then .ofNat 16 (bits v 31 16) else c.ttrip }
  else if 0x3000 ≤ off ∧ off < 0x3800 ∧ off % 8 = 0 then
    let i := (off - 0x3000) / 32
    { c with gddr := FMap.set {} c.gddr i ((FMap.get {} c.gddr i).write (off % 32 / 8) v) }
  else if 0x4000 ≤ off ∧ off < 0x4400 ∧ off % 16 = 0 then
    { c with ecc := FMap.set {} c.ecc ((off - 0x4000) / 16) ⟨.ofNat 32 (v / 2 ^ 32), .ofNat 32 v⟩ }
  else if 0x4800 ≤ off ∧ off < 0x4820 ∧ off % 8 = 0 then
    let i := (off - 0x4800) / 8
    { c with margins := FMap.set {} c.margins i { FMap.get {} c.margins i with min := .ofNat 16 v } }
  else c

/-- A write to the CDCS: a register with an event of its own is written by it. -/
def State.cdcsWrite (s : State) (ag : Agent) (off v : Nat) : Host.Outcome State Fault Refusal :=
  if !s.cdie.hears ag off then .next s
  else if off = 0x100 then execLrbaseWrite (.ofNat 64 v) s
  else if off = 0x10C then execLrtailWrite (.ofNat 32 v) s
  else if off = 0x1800 then execPmctlWrite ag (.ofNat 64 v) s
  else if 0x1000 ≤ off ∧ off < 0x1400 ∧ off % 256 < 64 ∧ off % 4 = 0 then execVftWrite ag ((off - 0x1000) / 256) (off % 256 / 4) (.ofNat 32 v) s
  else if 0x1000 ≤ off ∧ off < 0x1400 ∧ off % 256 = 0x48 then execVfselWrite ag ((off - 0x1000) / 256) (.ofNat 32 v) s
  else .next (s.modCdie (fun c => c.write s.tick ag off v))

/-- A counter set of the Lehr, piece k of 64 bits. -/
def CntSet.write (t : CntSet) (k v : Nat) : CntSet :=
  match k with
  | 0 => { t with wakew := .ofNat 32 v, wakec := .ofNat 32 (v / 2 ^ 32) }
  | 1 => { t with holdt := .ofNat 64 v }
  | 2 => { t with queuet := .ofNat 64 v }
  | _ => { t with aborts := .ofNat 32 (v / 2 ^ 32) }

def Rays.write (y : Rays) (k : Nat) (v : Dword) : Rays :=
  match k with
  | 0 => { y with rays := v }
  | 1 => { y with packets := v }
  | 2 => { y with splits := v }
  | 3 => { y with resumes := v }
  | _ => { y with errors := v }

/-- A write to a die's fabric control block (R362, R276, R452); a die without power has none (R465, R472). -/
def State.fabricWrite (s : State) (die off : Nat) (v : Dword) : Host.Outcome State Fault Refusal :=
  if !s.cdie.powered die then .next s
  else if off = 0x0008 then execXtmoWrite die (.ofNat 32 v.toNat) s
  else if off = 0x0018 then execFbbaseWrite die v s
  else .next (
    if off = 0 then s.modLehr die (fun h => { h with dwellc := .ofNat 16 (bits v.toNat 47 32), dwellw := .ofNat 16 (bits v.toNat 31 16) })
    else if 0x1000 ≤ off ∧ off < 0x1800 ∧ off % 8 = 0 then
      s.modLehr die (fun h => h.modSet ((off - 0x1000) / 32) (fun t => t.write (off % 32 / 8) v.toNat))
    else if 0x2000 ≤ off ∧ off < 0x2028 ∧ off % 8 = 0 then
      { s with rays := FMap.set {} s.rays die ((FMap.get {} s.rays die).write ((off - 0x2000) / 8) v) }
    else s)

/-- REGISTER_WRITE (R4, R454, R459): the fabric control block is reached by the control processors. -/
def execRegisterWrite (ag : Agent) (at_ : RegAddr) (v : Dword) (s : State) : Host.Outcome State Fault Refusal :=
  match at_ with
  | .cdcs off => s.cdcsWrite ag off v.toNat
  | .fabric die off => if ag = .host ∨ !s.cdie.runs ag ∨ 2 ≤ die then .next s else s.fabricWrite die off v

/-! ## Register reads (R4, R454) -/

/-- Registers of the CDCS as a number of 64 bits from an offset; a reserved place reads 0. -/
def Cdie.read (c : Cdie) (ag : Agent) (off : Nat) : Nat :=
  if off = 0 then c.stage + 2 ^ 16 * c.half.toNat + 2 ^ 24 * c.fail
  else if off = 4 then c.tripcnt.toNat
  else if off = 0x100 then c.lrbase.toNat
  else if off = 0x108 then c.lrhead.toNat
  else if off = 0x10C then c.lrtail.toNat
  else if off = 0x110 then c.lrstat
  else if off = 0x118 then c.lrreason + 2 ^ 32 * c.lrentry.toNat
  else if 0x800 ≤ off ∧ off < 0x900 then
    if ag = .host then 0 else ((c.meas[(off - 0x800) / 64]?).getD 0).toNat / 2 ^ (8 * (off % 64)) % 2 ^ 64
  else if 0x900 ≤ off ∧ off < 0x920 then if ag = .host then 0 else c.idhash.toNat / 2 ^ (8 * (off - 0x900)) % 2 ^ 64
  else if 0x940 ≤ off ∧ off < 0x960 then c.qnonce.toNat / 2 ^ (8 * (off - 0x940)) % 2 ^ 64
  else if off = 0x960 then c.qaddr.toNat
  else if off = 0x968 then 8 * c.qerr.toNat + 4 * c.qdone.toNat + 2 * c.qbusy.toNat
  else if 0x1000 ≤ off ∧ off < 0x1400 then
    let x := c.rail ((off - 0x1000) / 256)
    if off % 256 < 64 then (x.vftAt (off % 256 / 4)).toNat
    else if off % 256 = 0x40 then x.vmax + 2 ^ 12 * x.maxe + 2 ^ 32 * x.fmax.toNat
    else if off % 256 = 0x48 then x.target + 2 ^ 8 * x.ceil + 2 ^ 12 * x.pmcap + 2 ^ 16 * x.cur + 2 ^ 31 * x.rej.toNat
    else if off % 256 = 0x50 then x.wacc.toNat
    else if off % 256 = 0x58 then x.wbud.toNat
    else 0
  else if off = 0x1800 then
    2 ^ 15 * c.gmin + 2 ^ 18 * c.gcur + 2 ^ 24 * c.wmaxc + 2 ^ 28 * c.wcode + 2 ^ 32 * c.idram.toNat + 2 ^ 40 * c.order.toNat
      + 2 ^ 63 * c.hostpm.toNat
  else if off = 0x1808 then c.pwr.toNat
  else if off = 0x1810 then c.pkgpwr.toNat + 2 ^ 16 * c.pkglim.toNat
  else if off = 0x1818 then c.tthr.toNat + 2 ^ 16 * c.ttrip.toNat
  else if 0x2000 ≤ off ∧ off < 0x2100 ∧ off % 64 < 32 then (c.sensor ((off - 0x2000) / 64 * 16 + off % 64 / 2)).toNat
  else if 0x3000 ≤ off ∧ off < 0x3800 then
    let g := FMap.get {} c.gddr ((off - 0x3000) / 32)
    match off % 32 / 8 with
    | 0 => g.wrs.toNat
    | 1 => g.rds.toNat
    | 2 => g.rtfail.toNat + 2 ^ 16 * g.retrain.toNat + 2 ^ 32 * g.capar.toNat
    | _ => g.wredc.toNat + 2 ^ 32 * g.rdcrc.toNat
  else if 0x4000 ≤ off ∧ off < 0x4400 then
    let e := FMap.get {} c.ecc ((off - 0x4000) / 16)
    if off % 16 = 0 then e.ue.toNat + 2 ^ 32 * e.ce.toNat else 0
  else if 0x4800 ≤ off ∧ off < 0x4820 ∧ off % 8 = 0 then
    let m := FMap.get {} c.margins ((off - 0x4800) / 8)
    m.min.toNat + 2 ^ 16 * m.now.toNat
  else 0

/-- A register with the fields that are sampled taken from the latest sample or from the one before (R476). -/
def Cdie.mixed (c : Cdie) (tick k : Nat) : Cdie :=
  let o := Config.choice tick k
  { c with
    sensors := if o then c.old.sensors else c.sensors
    margins := if o then c.margins.map (fun p => (p.1, { p.2 with now := (FMap.get {} c.old.margins p.1).now })) else c.margins
    pwr := if o then c.old.pwr else c.pwr
    pkgpwr := if o then c.old.pkgpwr else c.pkgpwr }

/-- The 64 bits at an aligned offset: one register of 64 bits, two of 32 bits, or four sensors. -/
def Cdie.dword (c : Cdie) (ag : Agent) (o : Nat) : Nat :=
  if 0x2000 ≤ o ∧ o < 0x2100 then (List.range 4).foldl (fun v i => v + c.read ag (o + 2 * i) * 2 ^ (16 * i)) 0
  else if o = 0 ∨ o = 0x108 ∨ (0x1000 ≤ o ∧ o < 0x1400 ∧ o % 256 < 64) then c.read ag o + c.read ag (o + 4) * 2 ^ 32
  else c.read ag o

/-- A read of n = 4 or 8 bytes of the CDCS (R454, R476). Where it spans several sampled fields, each 16 bits of it come from one
sample or from the one before; a read of one field returns the latest. -/
def Cdie.readN (c : Cdie) (tick : Nat) (ag : Agent) (off n : Nat) : Nat :=
  let o := off / 8 * 8
  let at_ := fun (d : Cdie) => d.dword ag o / 2 ^ (8 * (off % 8)) % 2 ^ (8 * n)
  let spans := (0x2000 ≤ o ∧ o < 0x2100) ∨ (o = 0x1808) ∨ (0x4800 ≤ o ∧ o < 0x4820)
  if spans then (List.range (n / 2)).foldl (fun v i => v + at_ (c.mixed tick (off + 2 * i)) / 2 ^ (16 * i) % 2 ^ 16 * 2 ^ (16 * i)) 0
  else at_ c

/-- Registers of a die's fabric control block, as the CDCS (R362, R276, R452). -/
def State.fabricRead (s : State) (die off : Nat) : Nat :=
  let h := s.lehr die
  let y := FMap.get {} s.rays die
  if off = 0 then 2 ^ 16 * h.dwellw.toNat + 2 ^ 32 * h.dwellc.toNat
  else if off = 8 then h.tmo.toNat
  else if off = 0x10 then (s.die die).watch.toNat
  else if off = 0x18 then (s.die die).fbbase.toNat
  else if 0x1000 ≤ off ∧ off < 0x1800 then
    let t := h.cntSet ((off - 0x1000) / 32)
    match off % 32 / 8 with
    | 0 => t.wakew.toNat + 2 ^ 32 * t.wakec.toNat
    | 1 => t.holdt.toNat
    | 2 => t.queuet.toNat
    | _ => 2 ^ 32 * t.aborts.toNat
  else if off = 0x2000 then y.rays.toNat
  else if off = 0x2008 then y.packets.toNat
  else if off = 0x2010 then y.splits.toNat
  else if off = 0x2018 then y.resumes.toNat
  else if off = 0x2020 then y.errors.toNat
  else if 0x8000 ≤ off ∧ off < 0x8400 then
    let k := h.bank ((off - 0x8000) / 2)
    k.owner + 2 ^ 11 * k.role + 2 ^ 14 * k.state
  else 0

/-! ## Memory through the command die, and management-core waves (R454, R252) -/

/-- COMMAND_DIE_MEMORY_ACCESS (R454): the host reaches GDDR-7 alone, through BAR2; a control processor all of R345's
memory. A read of anything else, or of GDDR-7 while both halves are unpowered, returns no stated value. -/
def execCommandDieMemoryAccess (ag : Agent) (write : Bool) (pa n v : Nat) (s : State) : Host.Outcome State Fault Refusal :=
  let ok := (if ag = .host then s.gddrOk pa n else s.memOk pa n && s.cdie.runs ag) && s.cdie.serves pa
  .next (if write then (if ok then s.writePhys pa (toBytes n v) else s)
    else s.modCdie (fun c => { c with hostRead := if ok then s.readPhys pa n else (Config.word s.tick pa).toNat }))

/-- MANAGEMENT_WAVE_START (R252, R80): a wave of a management core starts at a PC with so many registers, in the lowest free
slot and the lowest free rows of the core's one quadrant. The firmware runs (R461) and the core is powered (R465, R472). -/
def execManagementWaveStart (die m pc regs : Nat) (s : State) : Host.Outcome State Fault Refusal :=
  let ck := coreKey die (96 + m)
  let ws := (List.range 16).filterMap (fun w => if (s.wave (ck * 64 + w)).valid then some (w, s.wave (ck * 64 + w)) else none)
  let n := (regs + 7) / 8 * 8
  .next (match lowest 16 (fun w => !(s.wave (ck * 64 + w)).valid), firstRun 256 (n / 8) (blockFree ws 0) with
    | some w, some b =>
      if s.cdie.governs die ∧ m < 3 ∧ 8 ≤ n ∧ n ≤ 384 then
        s.setWave (ck * 64 + w) { valid := true, n := n, row := 8 * b, div := { stack := [runE (.ofNat 57 pc) 0 (~~~0)] } }
      else s
    | _, _ => s)

end Sys2Proof.Machine
end

