-- ==== Sys2Proof/Machine/Lanes.lean ====
section
/-!
DEFINITION. Machine/Lanes.lean: the lane instructions (R152 to R159).
-/
namespace Sys2Proof.Machine

/-! ## Exchange (R154) -/

/-- The source lane of lane l for its b: 0 `.at`, 1 `.off`, 2 `.rot`, 3 `.flip`. -/
def lxchFrom (mode l b : Nat) : Int :=
  match mode with
  | 0 => b % 32
  | 1 => l + sint32 b
  | 2 => (l + b) % 32
  | _ => Nat.xor l (b % 32)

/-- The value of an active source lane, else the lane's own. -/
def lxchVal (act : List Nat) (a : Nat → Nat) (mode l b : Nat) : Nat :=
  let k := lxchFrom mode l b
  if 0 ≤ k ∧ k ≤ 31 ∧ act.contains k.toNat then a k.toNat else a l

def execLxch (f : IntR) (s : State) : Host.Outcome State Fault Refusal := issue (.lxch f) f.h s (fun cx s =>
  planD cx f.d f.w (fun l => lxchVal cx.act (IntR.A f cx s) (f.sub.toNat % 4) l (IntR.B1 f cx s l)))
def execLxchRi (f : IntI) (s : State) : Host.Outcome State Fault Refusal := issue (.lxchRi f) f.h s (fun cx s =>
  planD cx f.d f.w (fun l => lxchVal cx.act (IntI.A f cx s) (f.sub.toNat % 4) l f.imm.toNat))

/-! ## Votes, reductions and scans (R155 to R157) -/

def voteRes (kind : Nat) (act : List Nat) (a : Nat → Nat) : Nat :=
  match kind with
  | 0 => (maskOf (act.filter (fun l => bitN (a l) 0))).toNat
  | 1 => (act.any (fun l => bitN (a l) 0)).toNat
  | 2 => (act.all (fun l => bitN (a l) 0)).toNat
  | _ => (act.all (fun l => a l == a (act.headD 0))).toNat

def execVote (f : IntR) (s : State) : Host.Outcome State Fault Refusal := issue (.vote f) f.h s (fun cx s =>
  planD cx f.d 1 (fun _ => voteRes (f.sub.toNat % 4) cx.act (IntR.A f cx s)))

/-- The integer operation OPN (R153). -/
def opnInt (t : Ty) (opn a b : Nat) : Nat :=
  match opn with
  | 0 => (a + b) % 2 ^ 32
  | 1 => if ival t b < ival t a then b else a
  | 2 => if ival t a < ival t b then b else a
  | 3 => Nat.land a b
  | 4 => Nat.lor a b
  | _ => Nat.xor a b

/-- Identity(OPN) of R157. -/
def opnId (t : Ty) (opn : Nat) : Nat :=
  match opn with
  | 1 => wrapTo 32 (tyHi t)
  | 2 => wrapTo 32 (tyLo t)
  | 3 => 2 ^ 32 - 1
  | _ => 0

/-- R156 for `.f32`: an exact sum rounded once, or the least or greatest value, for which R138 decides about NaNs
(log entry 71). -/
def lredF32 (opn : Nat) (vals : List Nat) : Nat × Nat :=
  match opn with
  | 0 => F32.fin .rn false false (sumFV .rn (vals.map (F32.val false)))
  | k => (match vals with
    | [] => 0
    | v :: r => r.foldl (minmax F32 false (k == 1)) (if (F32.val false v).isNan then F32.nanBits else v), 0)

def execLred (f : IntR) (s : State) : Host.Outcome State Fault Refusal := issue (.lred f) f.h s (fun cx s =>
  if f.ty = .f32 then
    let r := lredF32 (f.sub.toNat % 8) (cx.act.map (fun l => cx.src s .A f.a 1 l))
    planF cx s f.d 1 (fun _ => r)
  else
    let r := cx.act.foldl (fun v l => opnInt f.ty (f.sub.toNat % 8) v (cx.src s .A f.a 1 l)) (opnId f.ty (f.sub.toNat % 8))
    planD cx f.d 1 (fun _ => r))

/-- The prefix of lane l: over the active lanes below it, and itself unless EXCL (R157). -/
def scanRes (t : Ty) (opn : Nat) (excl : Bool) (act : List Nat) (a : Nat → Nat) (l : Nat) : Nat :=
  (act.filter (fun k => decide (k < l) || (k == l && !excl))).foldl (fun v k => opnInt t opn v (a k)) (opnId t opn)

def execLscan (f : IntR) (s : State) : Host.Outcome State Fault Refusal := issue (.lscan f) f.h s (fun cx s =>
  planD cx f.d 1 (scanRes f.ty (f.sub.toNat % 8) (f.sub.getLsbD 3) cx.act (fun l => cx.src s .A f.a 1 l)))

/-! ## Matching and electing (R158) -/

def execLmatch (f : IntR) (s : State) : Host.Outcome State Fault Refusal := issue (.lmatch f) f.h s (fun cx s =>
  planD cx f.d 1 (fun l => (maskOf (cx.act.filter (fun k => IntR.A f cx s k == IntR.A f cx s l))).toNat))

def execElect (f : IntR) (s : State) : Host.Outcome State Fault Refusal := issue (.elect f) f.h s (fun cx _ =>
  planD cx f.d 1 (fun l => (l == cx.F).toNat))

/-! ## One lane's value (R159, R185) -/

/-- The lanes that a context with lowest active lane F may reach by number (R185): a tail its LANES, lanes in tail mode the lanes that
entered it with F, which the fast path would have made LANES (R182, log entry 69), any other main context every lane. -/
def State.laneSet (s : State) (x : Sel) (F : Nat) : Mask :=
  if !x.main then (s.tail x.tk).lanes
  else if s.tailish x then FMap.get (s.wave x.wk).div.tmode (s.wave x.wk).div.tsets F
  else ~~~0

/-- The lane that `rdlane` reads for a number k: F where the context cannot reach k (R159, R185). -/
def rdFrom (cx : Cx) (s : State) (k : Nat) : Nat := if (s.laneSet cx.sel cx.F).getLsbD k then k else cx.F

/-- Src(A) of a lane that need not be active: a popped queue element exists for active lanes only, and any other lane
reads a word that the spec does not name (log entry 13). -/
def Cx.srcAny (cx : Cx) (s : State) (f : Fld) (o : Opnd) (n k : Nat) : Nat :=
  match o with
  | .q _ => if cx.act.contains k then cx.src s f o n k else (Config.word s.tick k).toNat
  | _ => cx.src s f o n k

def execRdlane (f : IntR) (s : State) : Host.Outcome State Fault Refusal := issue (.rdlane f) f.h s (fun cx s =>
  planD cx f.d f.w (fun _ => cx.srcAny s .A f.a f.w (rdFrom cx s (IntR.B1 f cx s cx.F % 32))))
def execRdlaneRi (f : IntI) (s : State) : Host.Outcome State Fault Refusal := issue (.rdlaneRi f) f.h s (fun cx s =>
  planD cx f.d f.w (fun _ => cx.srcAny s .A f.a f.w (rdFrom cx s (f.imm.toNat % 32))))

def execWrlane (f : IntR) (s : State) : Host.Outcome State Fault Refusal := issue (.wrlane f) f.h s (fun cx s =>
  let k := IntR.B1 f cx s cx.F % 32
  { run := fun _ s' =>
      if cx.act.contains k && (s.laneSet cx.sel cx.F).getLsbD k then
        cx.putD f.d f.w [k] (fun _ => IntR.A f cx s cx.F) s'
      else s' })

end Sys2Proof.Machine
end

