-- ==== Sys2Proof/Machine/Dispatch.lean ====
section
/-!
DEFINITION. Machine/Dispatch.lean: the meaning of each instruction and event, one arm each.
-/
namespace Sys2Proof.Machine

def exec (i : Instr) (s : State) : Host.Outcome State Fault Refusal :=
  match i with
  | .add f => Sys2Proof.Machine.execAdd f s
  | .addRi f => Sys2Proof.Machine.execAddRi f s
  | .sub f => Sys2Proof.Machine.execSub f s
  | .subRi f => Sys2Proof.Machine.execSubRi f s
  | .mul f => Sys2Proof.Machine.execMul f s
  | .mulRi f => Sys2Proof.Machine.execMulRi f s
  | .mulhi f => Sys2Proof.Machine.execMulhi f s
  | .mad f => Sys2Proof.Machine.execMad f s
  | .div f => Sys2Proof.Machine.execDiv f s
  | .divRi f => Sys2Proof.Machine.execDivRi f s
  | .rem f => Sys2Proof.Machine.execRem f s
  | .remRi f => Sys2Proof.Machine.execRemRi f s
  | .neg f => Sys2Proof.Machine.execNeg f s
  | .abs f => Sys2Proof.Machine.execAbs f s
  | .min f => Sys2Proof.Machine.execMin f s
  | .minRi f => Sys2Proof.Machine.execMinRi f s
  | .max f => Sys2Proof.Machine.execMax f s
  | .maxRi f => Sys2Proof.Machine.execMaxRi f s
  | .clamp f => Sys2Proof.Machine.execClamp f s
  | .addc f => Sys2Proof.Machine.execAddc f s
  | .subb f => Sys2Proof.Machine.execSubb f s
  | .sad f => Sys2Proof.Machine.execSad f s
  | .dot4 f => Sys2Proof.Machine.execDot4 f s
  | .and f => Sys2Proof.Machine.execAnd f s
  | .andRi f => Sys2Proof.Machine.execAndRi f s
  | .or f => Sys2Proof.Machine.execOr f s
  | .orRi f => Sys2Proof.Machine.execOrRi f s
  | .xor f => Sys2Proof.Machine.execXor f s
  | .xorRi f => Sys2Proof.Machine.execXorRi f s
  | .not f => Sys2Proof.Machine.execNot f s
  | .andn f => Sys2Proof.Machine.execAndn f s
  | .shl f => Sys2Proof.Machine.execShl f s
  | .shlRi f => Sys2Proof.Machine.execShlRi f s
  | .shr f => Sys2Proof.Machine.execShr f s
  | .shrRi f => Sys2Proof.Machine.execShrRi f s
  | .rot f => Sys2Proof.Machine.execRot f s
  | .rotRi f => Sys2Proof.Machine.execRotRi f s
  | .bfx f => Sys2Proof.Machine.execBfx f s
  | .bfxRi f => Sys2Proof.Machine.execBfxRi f s
  | .bfi f => Sys2Proof.Machine.execBfi f s
  | .bfiRi f => Sys2Proof.Machine.execBfiRi f s
  | .popc f => Sys2Proof.Machine.execPopc f s
  | .clz f => Sys2Proof.Machine.execClz f s
  | .ctz f => Sys2Proof.Machine.execCtz f s
  | .brev f => Sys2Proof.Machine.execBrev f s
  | .bpick f => Sys2Proof.Machine.execBpick f s
  | .bpickRi f => Sys2Proof.Machine.execBpickRi f s
  | .bfn f => Sys2Proof.Machine.execBfn f s
  | .mov f => Sys2Proof.Machine.execMov f s
  | .movRi f => Sys2Proof.Machine.execMovRi f s
  | .sel f => Sys2Proof.Machine.execSel f s
  | .lea f => Sys2Proof.Machine.execLea f s
  | .leaRi f => Sys2Proof.Machine.execLeaRi f s
  | .sadd f => Sys2Proof.Machine.execSadd f s
  | .saddRi f => Sys2Proof.Machine.execSaddRi f s
  | .afset f => Sys2Proof.Machine.execAfset f s
  | .afsetRi f => Sys2Proof.Machine.execAfsetRi f s
  | .aftest f => Sys2Proof.Machine.execAftest f s
  | .afclr f => Sys2Proof.Machine.execAfclr f s
  | .fadd f => Sys2Proof.Machine.execFadd f s
  | .faddRi f => Sys2Proof.Machine.execFaddRi f s
  | .fsub f => Sys2Proof.Machine.execFsub f s
  | .fsubRi f => Sys2Proof.Machine.execFsubRi f s
  | .fmul f => Sys2Proof.Machine.execFmul f s
  | .fmulRi f => Sys2Proof.Machine.execFmulRi f s
  | .ffma f => Sys2Proof.Machine.execFfma f s
  | .fmin f => Sys2Proof.Machine.execFmin f s
  | .fminRi f => Sys2Proof.Machine.execFminRi f s
  | .fmax f => Sys2Proof.Machine.execFmax f s
  | .fmaxRi f => Sys2Proof.Machine.execFmaxRi f s
  | .fabs f => Sys2Proof.Machine.execFabs f s
  | .fneg f => Sys2Proof.Machine.execFneg f s
  | .fclamp f => Sys2Proof.Machine.execFclamp f s
  | .fdiv f => Sys2Proof.Machine.execFdiv f s
  | .fsqrt f => Sys2Proof.Machine.execFsqrt f s
  | .frcp f => Sys2Proof.Machine.execFrcp f s
  | .frsq f => Sys2Proof.Machine.execFrsq f s
  | .fex2 f => Sys2Proof.Machine.execFex2 f s
  | .flg2 f => Sys2Proof.Machine.execFlg2 f s
  | .fsin f => Sys2Proof.Machine.execFsin f s
  | .fcos f => Sys2Proof.Machine.execFcos f s
  | .ftanh f => Sys2Proof.Machine.execFtanh f s
  | .ffloor f => Sys2Proof.Machine.execFfloor f s
  | .fceil f => Sys2Proof.Machine.execFceil f s
  | .ftrunc f => Sys2Proof.Machine.execFtrunc f s
  | .frint f => Sys2Proof.Machine.execFrint f s
  | .ffrac f => Sys2Proof.Machine.execFfrac f s
  | .fcsgn f => Sys2Proof.Machine.execFcsgn f s
  | .fscale f => Sys2Proof.Machine.execFscale f s
  | .fgetexp f => Sys2Proof.Machine.execFgetexp f s
  | .fclass f => Sys2Proof.Machine.execFclass f s
  | .fdot2 f => Sys2Proof.Machine.execFdot2 f s
  | .cvt f => Sys2Proof.Machine.execCvt f s
  | .fpack f => Sys2Proof.Machine.execFpack f s
  | .fsplit f => Sys2Proof.Machine.execFsplit f s
  | .cmp f => Sys2Proof.Machine.execCmp f s
  | .cmpRi f => Sys2Proof.Machine.execCmpRi f s
  | .cmpm f => Sys2Proof.Machine.execCmpm f s
  | .cmpmRi f => Sys2Proof.Machine.execCmpmRi f s
  | .lxch f => Sys2Proof.Machine.execLxch f s
  | .lxchRi f => Sys2Proof.Machine.execLxchRi f s
  | .vote f => Sys2Proof.Machine.execVote f s
  | .lred f => Sys2Proof.Machine.execLred f s
  | .lscan f => Sys2Proof.Machine.execLscan f s
  | .lmatch f => Sys2Proof.Machine.execLmatch f s
  | .elect f => Sys2Proof.Machine.execElect f s
  | .rdlane f => Sys2Proof.Machine.execRdlane f s
  | .rdlaneRi f => Sys2Proof.Machine.execRdlaneRi f s
  | .wrlane f => Sys2Proof.Machine.execWrlane f s
  | .nop f => Sys2Proof.Machine.execNop f s
  | .br f => Sys2Proof.Machine.execBr f s
  | .brc f => Sys2Proof.Machine.execBrc f s
  | .brany f => Sys2Proof.Machine.execBrany f s
  | .brall f => Sys2Proof.Machine.execBrall f s
  | .jtab f => Sys2Proof.Machine.execJtab f s
  | .call f => Sys2Proof.Machine.execCall f s
  | .callt f => Sys2Proof.Machine.execCallt f s
  | .ret f => Sys2Proof.Machine.execRet f s
  | .lpad f => Sys2Proof.Machine.execLpad f s
  | .baton f => Sys2Proof.Machine.execBaton f s
  | .fjoin f => Sys2Proof.Machine.execFjoin f s
  | .exit f => Sys2Proof.Machine.execExit f s
  | .trap f => Sys2Proof.Machine.execTrap f s
  | .brk f => Sys2Proof.Machine.execBrk f s
  | .sleep f => Sys2Proof.Machine.execSleep f s
  | .ld f => Sys2Proof.Machine.execLd f s
  | .lds f => Sys2Proof.Machine.execLds f s
  | .ldc f => Sys2Proof.Machine.execLdc f s
  | .st f => Sys2Proof.Machine.execSt f s
  | .sts f => Sys2Proof.Machine.execSts f s
  | .stc f => Sys2Proof.Machine.execStc f s
  | .pf f => Sys2Proof.Machine.execPf f s
  | .ldt f => Sys2Proof.Machine.execLdt f s
  | .stt f => Sys2Proof.Machine.execStt f s
  | .atom f => Sys2Proof.Machine.execAtom f s
  | .atoms f => Sys2Proof.Machine.execAtoms f s
  | .atomc f => Sys2Proof.Machine.execAtomc f s
  | .cas f => Sys2Proof.Machine.execCas f s
  | .cass f => Sys2Proof.Machine.execCass f s
  | .red f => Sys2Proof.Machine.execRed f s
  | .futld f => Sys2Proof.Machine.execFutld f s
  | .futst f => Sys2Proof.Machine.execFutst f s
  | .futtry f => Sys2Proof.Machine.execFuttry f s
  | .futclr f => Sys2Proof.Machine.execFutclr f s
  | .sbind f => Sys2Proof.Machine.execSbind f s
  | .sfree f => Sys2Proof.Machine.execSfree f s
  | .acq f => Sys2Proof.Machine.execAcq f s
  | .rel f => Sys2Proof.Machine.execRel f s
  | .fence f => Sys2Proof.Machine.execFence f s
  | .rcell f => Sys2Proof.Machine.execRcell f s
  | .rcfree f => Sys2Proof.Machine.execRcfree f s
  | .rwb f => Sys2Proof.Machine.execRwb f s
  | .rinv f => Sys2Proof.Machine.execRinv f s
  | .resreq f => Sys2Proof.Machine.execResreq f s
  | .icinv f => Sys2Proof.Machine.execIcinv f s
  | .phase f => Sys2Proof.Machine.execPhase f s
  | .qbind f => Sys2Proof.Machine.execQbind f s
  | .qfree f => Sys2Proof.Machine.execQfree f s
  | .qstat f => Sys2Proof.Machine.execQstat f s
  | .barInit f => Sys2Proof.Machine.execBarInit f s
  | .barArrive f => Sys2Proof.Machine.execBarArrive f s
  | .barWait f => Sys2Proof.Machine.execBarWait f s
  | .barSync f => Sys2Proof.Machine.execBarSync f s
  | .barExpect f => Sys2Proof.Machine.execBarExpect f s
  | .barTest f => Sys2Proof.Machine.execBarTest f s
  | .own f => Sys2Proof.Machine.execOwn f s
  | .waitc f => Sys2Proof.Machine.execWaitc f s
  | .cpy f => Sys2Proof.Machine.execCpy f s
  | .cpys f => Sys2Proof.Machine.execCpys f s
  | .cpyd f => Sys2Proof.Machine.execCpyd f s
  | .cpywp f => Sys2Proof.Machine.execCpywp f s
  | .cpyx f => Sys2Proof.Machine.execCpyx f s
  | .cpyst f => Sys2Proof.Machine.execCpyst f s
  | .mxgo f => Sys2Proof.Machine.execMxgo f s
  | .mxgrd f => Sys2Proof.Machine.execMxgrd f s
  | .mxrd f => Sys2Proof.Machine.execMxrd f s
  | .mxwr f => Sys2Proof.Machine.execMxwr f s
  | .mxclr f => Sys2Proof.Machine.execMxclr f s
  | .mxst f => Sys2Proof.Machine.execMxst f s
  | .mxovf f => Sys2Proof.Machine.execMxovf f s
  | .mxcan f => Sys2Proof.Machine.execMxcan f s
  | .recld f => Sys2Proof.Machine.execRecld f s
  | .emit f => Sys2Proof.Machine.execEmit f s
  | .emitn f => Sys2Proof.Machine.execEmitn f s
  | .nend f => Sys2Proof.Machine.execNend f s
  | .xzopen f => Sys2Proof.Machine.execXzopen f s
  | .xzwait f => Sys2Proof.Machine.execXzwait f s
  | .rngld f => Sys2Proof.Machine.execRngld f s
  | .edgest f => Sys2Proof.Machine.execEdgest f s
  | .svdiv f => Sys2Proof.Machine.execSvdiv f s
  | .rsdiv f => Sys2Proof.Machine.execRsdiv f s
  | .qsave f => Sys2Proof.Machine.execQsave f s
  | .qrest f => Sys2Proof.Machine.execQrest f s
  | .bsave f => Sys2Proof.Machine.execBsave f s
  | .brest f => Sys2Proof.Machine.execBrest f s
  | .kmov f => Sys2Proof.Machine.execKmov f s
  | .hret f => Sys2Proof.Machine.execHret f s
  | .srd f => Sys2Proof.Machine.execSrd f s
  | .swr f => Sys2Proof.Machine.execSwr f s
  | .winrd f => Sys2Proof.Machine.execWinrd f s
  | .winwr f => Sys2Proof.Machine.execWinwr f s
  | .tlbinv f => Sys2Proof.Machine.execTlbinv f s
  | .l1inv f => Sys2Proof.Machine.execL1inv f s
  | .halt f => Sys2Proof.Machine.execHalt f s
  | .mcack f => Sys2Proof.Machine.execMcack f s
  | .watchCounterTick die => Sys2Proof.Machine.execWatchCounterTick die s
  | .issueTurn die core quad => Sys2Proof.Machine.execIssueTurn die core quad s
  | .resultProduce die core wave => Sys2Proof.Machine.execResultProduce die core wave s
  | .loadComplete die core wave acc => Sys2Proof.Machine.execLoadComplete die core wave acc s
  | .storeComplete die core wave acc => Sys2Proof.Machine.execStoreComplete die core wave acc s
  | .queuePush die core => Sys2Proof.Machine.execQueuePush die core s
  | .barrierDoneMsg die core bar => Sys2Proof.Machine.execBarrierDoneMsg die core bar s
  | .sleepExpire die core wave ctx => Sys2Proof.Machine.execSleepExpire die core wave ctx s
  | .futureAnswer die slice => Sys2Proof.Machine.execFutureAnswer die slice s
  | .waveEnd die core wave => Sys2Proof.Machine.execWaveEnd die core wave s
  | .groupRelease die core gid => Sys2Proof.Machine.execGroupRelease die core gid s
  | .tailEnd die core slot => Sys2Proof.Machine.execTailEnd die core slot s
  | .asyncStop die core wave mc => Sys2Proof.Machine.execAsyncStop die core wave mc s
  | .trapPost die core wave => Sys2Proof.Machine.execTrapPost die core wave s
  | .copyChannelEnter die core ch => Sys2Proof.Machine.execCopyChannelEnter die core ch s
  | .copyRecordRead die core ch => Sys2Proof.Machine.execCopyRecordRead die core ch s
  | .copyHeadStart die core ch => Sys2Proof.Machine.execCopyHeadStart die core ch s
  | .copyLineDeliver die core ch => Sys2Proof.Machine.execCopyLineDeliver die core ch s
  | .copyStop die core ch => Sys2Proof.Machine.execCopyStop die core ch s
  | .mxQueueEnter die core => Sys2Proof.Machine.execMxQueueEnter die core s
  | .mxItemStart die core => Sys2Proof.Machine.execMxItemStart die core s
  | .mxQueueElement die core => Sys2Proof.Machine.execMxQueueElement die core s
  | .mxJobComplete die core => Sys2Proof.Machine.execMxJobComplete die core s
  | .mxResolution die core => Sys2Proof.Machine.execMxResolution die core s
  | .mxItemStop die core => Sys2Proof.Machine.execMxItemStop die core s
  | .mxnodeRecord die unit launch node => Sys2Proof.Machine.execMxnodeRecord die unit launch node s
  | .gatherFull die launch node => Sys2Proof.Machine.execGatherFull die launch node s
  | .inflowClose die launch node => Sys2Proof.Machine.execInflowClose die launch node s
  | .gatherLinger die launch node => Sys2Proof.Machine.execGatherLinger die launch node s
  | .gatherSteal die launch node => Sys2Proof.Machine.execGatherSteal die launch node s
  | .groupPlace die launch gno => Sys2Proof.Machine.execGroupPlace die launch gno s
  | .launchComplete launch => Sys2Proof.Machine.execLaunchComplete launch s
  | .carveRetire launch => Sys2Proof.Machine.execCarveRetire launch s
  | .rasterTriangle die => Sys2Proof.Machine.execRasterTriangle die s
  | .rasterPassEnd die => Sys2Proof.Machine.execRasterPassEnd die s
  | .rayTake die unit launch node => Sys2Proof.Machine.execRayTake die unit launch node s
  | .rayResult die unit ray => Sys2Proof.Machine.execRayResult die unit ray s
  | .preemptRedirect die core wave => Sys2Proof.Machine.execPreemptRedirect die core wave s
  | .restorePlace die launch gno => Sys2Proof.Machine.execRestorePlace die launch gno s
  | .wavePromote die core wave => Sys2Proof.Machine.execWavePromote die core wave s
  | .fbFlush die => Sys2Proof.Machine.execFbFlush die s
  | .fbbaseWrite die v => Sys2Proof.Machine.execFbbaseWrite die v s
  | .registerWrite ag at_ v => Sys2Proof.Machine.execRegisterWrite ag at_ v s
  | .bootVerify b => Sys2Proof.Machine.execBootVerify b s
  | .halfBringup half ok => Sys2Proof.Machine.execHalfBringup half ok s
  | .stage3Entry trained => Sys2Proof.Machine.execStage3Entry trained s
  | .gddrRetrain half ch failed => Sys2Proof.Machine.execGddrRetrain half ch failed s
  | .linkReplay what half ch => Sys2Proof.Machine.execLinkReplay what half ch s
  | .lineFetch die core wave => Sys2Proof.Machine.execLineFetch die core wave s
  | .arbAgeing pt => Sys2Proof.Machine.execArbAgeing pt s
  | .arbGrant pt arrivals => Sys2Proof.Machine.execArbGrant pt arrivals s
  | .queueEligible die core wave => Sys2Proof.Machine.execQueueEligible die core wave s
  | .splitChange die core regg l1g => Sys2Proof.Machine.execSplitChange die core regg l1g s
  | .lrtailWrite v => Sys2Proof.Machine.execLrtailWrite v s
  | .lrbaseWrite v => Sys2Proof.Machine.execLrbaseWrite v s
  | .launchKill what core w => Sys2Proof.Machine.execLaunchKill what core w s
  | .preemptRequest ctxid => Sys2Proof.Machine.execPreemptRequest ctxid s
  | .shadowSwap ctxid => Sys2Proof.Machine.execShadowSwap ctxid s
  | .shadowRestore ctxid => Sys2Proof.Machine.execShadowRestore ctxid s
  | .redirectTimeout die core wave => Sys2Proof.Machine.execRedirectTimeout die core wave s
  | .migrationOpen old new size => Sys2Proof.Machine.execMigrationOpen old new size s
  | .migrationClose old => Sys2Proof.Machine.execMigrationClose old s
  | .bankToWarm die bank => Sys2Proof.Machine.execBankToWarm die bank s
  | .bankCleanCold die bank => Sys2Proof.Machine.execBankCleanCold die bank s
  | .wakeRequest die bank who background => Sys2Proof.Machine.execWakeRequest die bank who background s
  | .wakeWindow die => Sys2Proof.Machine.execWakeWindow die s
  | .bankHot die bank => Sys2Proof.Machine.execBankHot die bank s
  | .xdieTimeout what => Sys2Proof.Machine.execXdieTimeout what s
  | .xtmoWrite die v => Sys2Proof.Machine.execXtmoWrite die v s
  | .rayResumeWrite die unit ray visits => Sys2Proof.Machine.execRayResumeWrite die unit ray visits s
  | .quoteGo ag => Sys2Proof.Machine.execQuoteGo ag s
  | .protectedRootRequest r => Sys2Proof.Machine.execProtectedRootRequest r s
  | .vftWrite ag rail e v => Sys2Proof.Machine.execVftWrite ag rail e v s
  | .vfselWrite ag rail v => Sys2Proof.Machine.execVfselWrite ag rail v s
  | .pmctlWrite ag v => Sys2Proof.Machine.execPmctlWrite ag v s
  | .railChangeDone rail => Sys2Proof.Machine.execRailChangeDone rail s
  | .pmStep dram => Sys2Proof.Machine.execPmStep dram s
  | .wearUpdate rail => Sys2Proof.Machine.execWearUpdate rail s
  | .telemetrySample t => Sys2Proof.Machine.execTelemetrySample t s
  | .stoppedClockEntry die => Sys2Proof.Machine.execStoppedClockEntry die s
  | .commandDieMemoryAccess ag write pa n v => Sys2Proof.Machine.execCommandDieMemoryAccess ag write pa n v s
  | .managementWaveStart die m pc regs => Sys2Proof.Machine.execManagementWaveStart die m pc regs s
  | .coldReset => Sys2Proof.Machine.execColdReset s
  | .launchEntryConsume => Sys2Proof.Machine.execLaunchEntryConsume s
  | .launchArrive => Sys2Proof.Machine.execLaunchArrive s
  | .quoteDone => Sys2Proof.Machine.execQuoteDone s
  | .thermalTrip => Sys2Proof.Machine.execThermalTrip s
  | .tripRecovery => Sys2Proof.Machine.execTripRecovery s

end Sys2Proof.Machine
end

