-- ==== Sys2Proof/Machine/Turn.lean ====
section
/-!
DEFINITION. Machine/Turn.lean: one move of the machine. A chosen context fetches, decodes and executes its next slot;
otherwise the oldest move of the agenda takes place, and with an empty agenda the next move of the natural order.
-/
namespace Sys2Proof.Machine

/-! ## Issue (R82, R83, R187, R39) -/

/-- The context only waits: it blocked in this move (R81). -/
def State.waits (s : State) (x : Sel) : Bool :=
  match (s.ctx x).blk with
  | some b => b.stamp == s.tick
  | none => false

/-- R39: the slots j and j + 1 are issued in one turn. -/
def coIssues (i j : Instr) : Bool :=
  let grp := fun (i : Instr) => match i.op? with | some op => op / 128 | none => 0
  let eng := fun g => g == 4 || g == 5 || g == 6
  let held := fun (i : Instr) => match i.hdr? with | some h => h.sel != .none | none => false
  let names := fun (i : Instr) (w : Bool) => (i.uses.filter (fun u => !w || u.wr)).flatMap (fun u => match u.o with
    | .q n => [1000 + n]
    | _ => useRegs u)
  grp i != 3 && grp i != 7 && !(eng (grp i) && eng (grp j)) && !held i && !held j
    && !(names j false).any (fun r => (names i true).contains r)

/-- The context has issued: it is the youngest of its wave, and its wave of its quadrant. -/
def State.issuedBy (s : State) (x : Sel) : State :=
  let t := s.tick + 1
  { (s.modCtx x (fun c => { c with issued := t })).modWave x.wk (fun w =>
      { w with lastIssue := t, waited := 0, promo := 0 }) with tick := t }

/-- The second slot of a pair goes with the first (R39). -/
def State.pairGoes (s : State) (x : Sel) (i : Instr) (pc : Addr) (pair : Bool) : Bool :=
  pair && s.running x && (s.run x).pc == pc + 1 &&
    match s.fetch x (pc + 1) with
    | .slot w _ => (match decode w with | .ok j => coIssues i j | .error _ => false)
    | .trap _ => false

/-- What a turn leaves: a context that only waits gives the turn back. -/
def State.endTurn (s : State) (x : Sel) (i : Instr) (pc : Addr) (pair : Bool) : State :=
  if s.waits x then { s with cur := none }
  else
    let s' := s.wakeClocks.issuedBy x
    { s' with cur := if s'.pairGoes x i pc pair then some x else none }

/-- The turn of a chosen context; one that does not run, or sleeps, gives it back, and a wave with a stop to take stops
first (R250, R277). -/
def slotTurn (s : State) (x : Sel) : Host.Outcome State Fault Refusal :=
  if !s.running x || (s.ctx x).sleep.isSome then .next { s with cur := none }
  else if (s.wave x.wk).mustStop then
    .next { (s.boundaryStop x.die x.core x.wave).moved with cur := none }
  else
    let pc := (s.run x).pc
    let s1 := s.held x (lineAddr pc)
    match s.fetch x pc with
    | .trap c => .next { (s1.fetchTrap x c).issuedBy x with cur := none }
    | .slot w pair =>
      match decode w with
      | .error _ => .next { (s1.fetchTrap x cILL_OP).issuedBy x with cur := none }
      | .ok i =>
        match exec i s1 with
        | .next s2 => .next (s2.endTurn x i pc pair)
        | .fault r => .fault r
        | .refused r => .refused r

/-! ## Waiting for a turn (R83) -/

/-- The next slot of a context would issue or stop: it would not only wait (R81). -/
def State.wouldIssue (s : State) (x : Sel) : Bool :=
  s.mayTry x && !(s.wave x.wk).mustStop &&
    match s.fetch x (s.run x).pc with
    | .trap _ => true
    | .slot w _ => match decode w with
      | .error _ => true
      | .ok i => match exec i { s with cur := some x } with
        | .next t => !t.waits x
        | _ => true

/-- A used issue turn: each other ready wave of the quadrant has waited one turn more. Turns in which a wave is not ready do not
count, and its count goes on after them (log entry 68). -/
def State.turnUsed (s : State) (die core quad : Nat) : State :=
  match s.cur with
  | none => s
  | some x =>
    if s.wouldIssue x then
      (((s.readyWaves die core quad).filter (fun w => decide (w ≠ x.wave) && (s.readyCtx die core w).any s.wouldIssue)).foldl
        (fun t w => t.waitedTurn (waveKey die core w)) s)
    else s

/-! ## Events -/

/-- The die and core of a core's number. -/
def dieCore (ck : Nat) : Nat × Nat := (ck / 99, ck % 99)

/-- Moves that a wave may have under way. -/
def State.waveMoves (s : State) (k : Nat) (w : Wave) : List Instr :=
  let d := (dieCore (k / 64)).1
  let c := (dieCore (k / 64)).2
  let v := k % 64
  List.flatten [
    (if w.sb.isEmpty then [] else [.resultProduce d c v]),
    w.accs.map (fun a => if a.load then .loadComplete d c v a.id else .storeComplete d c v a.id),
    (w.late.filter (fun e => !w.accs.any (fun a => decide (a.id = e.acc)))).map (fun e => .storeComplete d c v e.acc),
    (if w.mustStop then [.asyncStop d c v none] else []),
    (if w.unposted then [.trapPost d c v] else []),
    (63 :: s.tailsOf (k / 64) v).flatMap (fun t => if (s.ctx ⟨d, c, v, t⟩).sleep.isSome then [.sleepExpire d c v t] else []),
    (if w.state = 2 then [.preemptRedirect d c v] else []),
    (if w.div.stack.all (fun e => e.mask == 0) then [.waveEnd d c v] else [])]

/-- Moves that a core may have under way. -/
def State.coreMoves (s : State) (ck : Nat) (c : Core) : List Instr :=
  let d := (dieCore ck).1
  let n := (dieCore ck).2
  List.flatten [
    (if c.pushes.isEmpty then [] else [.queuePush d n]),
    (c.bars.filter (fun b => !b.2.sent.isEmpty)).map (fun b => .barrierDoneMsg d n b.1),
    ((List.range 32).filter (fun t => (s.tail (ck * 32 + t)).valid)).map (fun t => .tailEnd d n t),
    (c.chans.filter (fun p => !p.2.cmds.isEmpty)).flatMap (fun p =>
        [.copyChannelEnter d n p.1, .copyRecordRead d n p.1, .copyHeadStart d n p.1, .copyLineDeliver d n p.1, .copyStop d n p.1]),
    (if c.mx.items.isEmpty && c.mx.done.isEmpty then []
        else [.mxResolution d n, .mxItemStop d n, .mxQueueEnter d n, .mxItemStart d n, .mxQueueElement d n, .mxJobComplete d n]),
    c.groups.map (fun g => .groupRelease d n g.id)]

/-- Moves of a launch: its groups, the units that serve its fixed nodes, its retirement and its end. -/
def State.launchMoves (s : State) (l : Launch) : List Instr :=
  let both := fun (f : Nat → List Instr) => f 0 ++ f 1
  both (fun d => (List.range l.nodes.length).flatMap (fun n =>
    [.gatherFull d l.seq n, .inflowClose d l.seq n, .gatherLinger d l.seq n, .gatherSteal d l.seq n,
      .rayTake d 0 l.seq n] ++ (List.range (l.node n).ru).map (fun u => .mxnodeRecord d (95 - u) l.seq n)))
    ++ l.formed.map (fun f => .groupPlace f.die l.seq f.gno)
    ++ (s.saved.filter (fun v => decide (v.launch = l.seq) && !s.preempted l.ctxid)).map (fun v => .restorePlace v.die l.seq v.gno)
    ++ [.carveRetire l.seq, .launchComplete l.seq]

/-- Moves of a die's fixed units. -/
def State.unitMoves (s : State) (die : Nat) : List Instr :=
  List.flatten [
    (List.range 32).map (fun k => .futureAnswer die k),
    (FMap.get {} s.rays die).units.flatMap (fun u => u.2.map (fun r => .rayResult die u.1 r.id)),
    (if (FMap.get {} s.rasters die).serves.isSome || !s.launches.isEmpty then [.rasterTriangle die, .rasterPassEnd die] else [])]

/-- Quadrants with a wave that may be chosen. -/
def State.quads (s : State) : List Instr :=
  (s.cores.map Prod.fst ++ s.waves.map (fun (p : Nat × Wave) => p.1 / 64)).eraseDups.flatMap (fun (ck : Nat) =>
    let d := (dieCore ck).1
    let c := (dieCore ck).2
    ((List.range 4).filter (fun q => !(s.readyWaves d c q).isEmpty)).map (fun q => .issueTurn d c q))

/-- A move that changes the state. -/
def changes (i : Instr) (s : State) : Bool :=
  match exec i s with
  | .next t => decide (t ≠ s)
  | _ => false

/-- The natural order (log entry 1): in every sixty-fourth move a die's watch counter counts; otherwise what is under way
comes first, then launches, then the quadrants in turn, and the watch counters where nothing else can move. -/
def State.natural (s : State) : Instr :=
  let tick : Instr := .watchCounterTick (s.tick / 64 % 2)
  if s.tick % 64 = 63 then tick
  else
    let a := s.waves.flatMap (fun p => s.waveMoves p.1 p.2) ++ s.cores.flatMap (fun p => s.coreMoves p.1 p.2)
      ++ s.unitMoves 0 ++ s.unitMoves 1 ++ s.launches.flatMap s.launchMoves ++ [.launchArrive, .launchEntryConsume, .quoteDone]
    match a.find? (fun i => changes i s) with
    | some i => i
    | none =>
      let q := s.quads
      (q[s.tick % (max q.length 1)]?).getD tick

/-- A move that is no slot: the tick tells it from every other. -/
def ticked (o : Host.Outcome State Fault Refusal) : Host.Outcome State Fault Refusal :=
  match o with
  | .next s' => .next { s' with tick := s'.tick + 1 }
  | .fault r => .fault r
  | .refused r => .refused r

/-- An issue turn goes on with the slot that it chose. -/
def turned (die core quad : Nat) (o : Host.Outcome State Fault Refusal) : Host.Outcome State Fault Refusal :=
  match o with
  | .next s' => .next (s'.turnUsed die core quad)
  | .fault r => .fault r
  | .refused r => .refused r

/-- An event takes place. An issue turn is no move of its own beside the slot that it chose, so that what is known to be blocked
stays known (R187). -/
def eventTurn (i : Instr) (s : State) : Host.Outcome State Fault Refusal :=
  match i with
  | .issueTurn die core quad => turned die core quad (exec i s)
  | _ => ticked (exec i s)

/-- The first wave that has waited 1,024 cycles since its last promotion (R82). -/
def State.promoteDue (s : State) : Option Nat :=
  (List.find? (fun (p : Nat × Wave) => p.2.valid && decide (1024 * (p.2.promo + 1) ≤ p.2.waited)
    && match execWavePromote (dieCore (p.1 / 64)).1 (dieCore (p.1 / 64)).2 (p.1 % 64) s with
      | .next t => decide (t ≠ s)
      | _ => false) s.waves).map Prod.fst

/-- A move of the natural order: a due promotion goes first. -/
def naturalTurn (s : State) : Host.Outcome State Fault Refusal :=
  match s.promoteDue with
  | some k => ticked (execWavePromote (dieCore (k / 64)).1 (dieCore (k / 64)).2 (k % 64) s)
  | none => eventTurn s.natural s

/-- One move. -/
def turn (s : State) : Host.Outcome State Fault Refusal :=
  match s.cur with
  | some x => slotTurn s x
  | none =>
    match s.agenda with
    | i :: r => eventTurn i { s with agenda := r }
    | [] => naturalTurn s

/-! ## A first instruction (log entry 5) -/

/-- The context that runs an instruction placed right after reset: a wave of management core 0 of die 0. -/
def firstSel : Sel := ⟨0, 96, 0, 63⟩

/-- The line at address 0 with the slot in its first place, as an assembler writes it. -/
def firstLine (slot : Nat) : Nat := makeLine 1 0 [slot]

/-- A wave of management core 0 starts at address 0, where the slot stands (R252, R80). -/
def placeSlot (s : State) (slot : Nat) : State :=
  let s1 := s.writePhys 0 (toBytes 64 (firstLine slot))
  let w : Wave := { valid := true, n := 384, div := { stack := [runE 0 0 (~~~0)] } }
  { s1.setWave firstSel.wk w with cur := some firstSel }

end Sys2Proof.Machine
end

