-- ==== Sys2Proof/Machine/Step.lean ====
section
/-!
DEFINITION. Machine/Step.lean: the step, and the placement of one instruction where the step fetches next.
-/
namespace Sys2Proof.Machine

/-- One step. -/
def step (s : State) : Host.Outcome State Fault Refusal := turn s

/-- The state with an instruction's bits where the next step fetches (log entry 5). -/
def State.withFetchWord (s : State) (nbits w : Nat) : State := placeSlot s (w % 2 ^ nbits % 2 ^ 96)

end Sys2Proof.Machine
end

