-- ==== Sys2Proof/Safety.lean ====
section
/-!
DEFINITION. Safety.lean: the terms in which claims are made: what a safe run is, when a slot instruction executes, and
what such an instruction leaves unchanged.
-/
namespace Sys2Proof

/-! ## Runs -/

/-- States that some number of steps leads to. -/
inductive Reach (s : Machine.State) : Machine.State → Prop where
  | refl : Reach s s
  | step {t u : Machine.State} : Reach s t → Machine.step t = .next u → Reach s u

/-- A property holds now and after every number of steps. -/
def Always (P : Machine.State → Prop) (s : Machine.State) : Prop := ∀ t, Reach s t → P t

/-- The machine never stops. -/
def Safe (s : Machine.State) : Prop := Always (fun t => ∃ u, Machine.step t = .next u) s

namespace Machine

/-- Every listed address of memory rises, and no listed byte is what an unlisted one reads as. -/
def memCanon (s : State) : Bool := FMap.wf memDefault s.mem

/-! ## When a slot instruction executes -/

/-- The header of an instruction; an event has none. -/
def hdrOf (i : Instr) : Hdr := i.hdr?.getD ⟨.none, false, .none, 0⟩

/-- The lanes in which the queue fields of an instruction pop (R49, R161). -/
def popLanes (i : Instr) (s : State) (x : Sel) : List Nat :=
  if popsWhole i then lanesOf (s.run x).mask else s.active x (hdrOf i)

/-- The context of an instruction that executes: its active lanes (R41) and the elements that its source fields pop. -/
def cxOf (i : Instr) (s : State) (x : Sel) : Cx :=
  let pl := popLanes i s x
  ⟨x, hdrOf i, s.run x, s.active x (hdrOf i), ((s.core x.ck).popAll (popFields (s.wave x.wk) i.uses) pl).1, pl, latency i⟩

/-- The form is right, and its operands are accepted where they stand (R41 to R48, R68 steps 4 to 6, R184). -/
def formed (i : Instr) (s : State) (x : Sel) : Bool :=
  i.wf && !(s.tailish x && (hdrOf i).sel ≠ .none) && !(graphForm i && x.mgmt) && !(privForm i && !s.handler x)
    && i.uses.all (accepts (s.handler x) (s.tailish x) (s.wave x.wk))
    && !(s.tailish x && (tailForbids i || (lanesOf (s.run x).mask).any (s.strays x (i.uses.filter (fun u => u.fld == .G)))
      || (s.active x (hdrOf i)).any (s.strays x i.uses)))

/-- Nothing keeps it waiting: no tail's window, no result, no counter, no queue (R81, R96, R189, R202, R203). -/
def unblocked (i : Instr) (s : State) (x : Sel) : Bool :=
  let w := s.wave x.wk
  let pf := popFields w i.uses
  let push := pushField w i.uses
  !(s.regsBlocked x i.uses || s.counterBlocked x i)
    && ((pf.isEmpty && push.isNone) || s.queueEligible x (s.mxp x.ck) (pf.map Prod.snd) push (popLanes i s x).length)

/-- The chosen context x executes the slot instruction i in at least one lane, and may take its effect now. -/
def ready (i : Instr) (s : State) (x : Sel) : Bool :=
  decide (s.cur = some x) && s.running x && i.hdr?.isSome && formed i s x && !(s.active x (hdrOf i)).isEmpty
    && !queueMisuse (s.wave x.wk) (s.core x.ck) i.uses (popLanes i s x).length && unblocked i s x

/-- A slot follows in the address space (R36). -/
def inside (s : State) (x : Sel) : Bool := (nextPc (s.run x).pc).isSome

/-! ## What it does to registers -/

/-- D has taken a value in each of the lanes (R97, R98): n registers from the lowest word on, or one element per lane that
its queue will receive (R202). -/
def Gets (cx : Cx) (d : Opnd) (n : Nat) (lanes : List Nat) (val : Nat → Nat) (s t : State) : Prop :=
  match d with
  | .v r => ∀ l ∈ lanes, ∀ j < n, (t.wave cx.sel.wk).raw (r + j) l = .ofNat 32 (val l / 2 ^ (32 * j))
  | .k r => ∀ l ∈ lanes, ∀ j < n, (t.wave cx.sel.wk).raw (420 + r + j) l = .ofNat 32 (val l / 2 ^ (32 * j))
  | .q m => (t.core cx.sel.ck).pushes = (s.core cx.sel.ck).pushes ++
      [⟨bRec ((s.wave cx.sel.wk).bind m), cx.sel.wave, lanes.map (fun l => .ofNat 32 (val l)), s.tick + cx.lat⟩]
  | _ => True

/-- The registers that D names, by code. -/
def destCodes (d : Opnd) (n : Nat) : List Nat :=
  match d with
  | .v r => (List.range n).map (r + ·)
  | .k r => (List.range n).map (420 + r + ·)
  | _ => []

/-- Every other register of the wave, and D itself in every other lane, holds what it held. -/
def RegsKept (x : Sel) (codes lanes : List Nat) (s t : State) : Prop :=
  ∀ c l, l < 32 → (c ∉ codes ∨ l ∉ lanes) → (t.wave x.wk).raw c l = (s.wave x.wk).raw c l

/-! ## What it leaves unchanged -/

/-- What a context keeps: its wait counters, its sleep and its barrier. Its block and its order of issue are not told. -/
def Ctx.still (c : Ctx) : Ctx := { ld := c.ld, st := c.st, sleep := c.sleep, sync := c.sync }

/-- What a wave keeps in an instruction without memory and control: everything but v and k registers with their affine
forms and what is under way to them, the exception flags, the latch, the divergence entries, and the count of a cancel that is over. -/
def Wave.still (w : Wave) : Wave :=
  { w with
    div := { w.div with stack := [], latch := [], live := [], can := none }, main := w.main.still
    regs := [], aff32 := [], aff64 := [], accs := [], stale := [], sb := [], heldtok := none, redo := [], fpflags := 0 }

/-- What a tail keeps: everything but its divergence entries and its exception flags. -/
def Tail.still (t : Tail) : Tail := { t with stack := [], ctx := t.ctx.still, flags := 0 }

/-- What a core keeps: everything but its queue records and the pushes under way. -/
def Core.still (c : Core) : Core := { c with queues := [], pushes := [] }

/-- The frame of an instruction that works in registers alone: only its own wave, the queues of its core, and in a tail
the tail's own record change, and of those only what `still` leaves out. Memory is not touched. -/
structure AluFrame (x : Sel) (s t : State) : Prop where
  rest : t = { s with waves := t.waves, cores := t.cores, tails := t.tails }
  waves : ∀ k, k ≠ x.wk → t.wave k = s.wave k
  own : (t.wave x.wk).still = (s.wave x.wk).still
  cores : ∀ k, k ≠ x.ck → t.core k = s.core k
  core : (t.core x.ck).still = (s.core x.ck).still
  tails : ∀ k, x.main = true ∨ k ≠ x.tk → t.tail k = s.tail k
  tail : (t.tail x.tk).still = (s.tail x.tk).still

/-- As `AluFrame`, but for what `back` puts back into the wave, or into its core. -/
def AluBut (x : Sel) (s t : State) (back : Wave → Wave → Wave) : Prop := AluFrame x s (t.modWave x.wk (back (s.wave x.wk)))
def AluButCore (x : Sel) (s t : State) (back : Core → Core → Core) : Prop := AluFrame x s (t.modCore x.ck (back (s.core x.ck)))

/-- No exception flag changes (R131). -/
def FlagsKept (x : Sel) (s t : State) : Prop :=
  (t.wave x.wk).fpflags = (s.wave x.wk).fpflags ∧ (t.tail x.tk).flags = (s.tail x.tk).flags

/-- Of the queue records of the core only those change that the instruction pops or that D pushes to, and no push is added
unless D is a queue (R196, R202). -/
def QueuesKept (i : Instr) (x : Sel) (d : Opnd) (s t : State) : Prop :=
  (∀ qi, qi ∉ (popFields (s.wave x.wk) i.uses).map Prod.snd → (∀ m, d = .q m → bRec ((s.wave x.wk).bind m) ≠ qi) →
    FMap.get {} (t.core x.ck).queues qi = FMap.get {} (s.core x.ck).queues qi) ∧
  ((∀ m, d ≠ .q m) → (t.core x.ck).pushes = (s.core x.ck).pushes)

/-- The RUN entry goes on at the next slot, and the divergence state settles (R36, R87). -/
def GoesOn (x : Sel) (s t : State) : Prop :=
  t.stack x = settle (s.wave x.wk).div.tmode
    (match s.stack x with
      | [] => []
      | e :: r => { e with pc := (nextPc e.pc).getD e.pc } :: r)

/-- The instruction completes: D takes a value in every active lane, the wave goes on at the next slot, and nothing
else changes. -/
def Computes (i : Instr) (s : State) (x : Sel) (d : Opnd) (n : Nat) (val : Nat → Nat) : Prop :=
  ∃ t, exec i s = .next t ∧ Gets (cxOf i s x) d n (cxOf i s x).act val s t ∧
    RegsKept x (destCodes d n) (cxOf i s x).act s t ∧ FlagsKept x s t ∧ AluFrame x s t ∧ GoesOn x s t ∧ QueuesKept i x d s t

/-- The exception flags of the context take these (R131). -/
def FlagsTake (x : Sel) (s t : State) (flags : Nat) : Prop :=
  if x.main then (t.wave x.wk).fpflags = (s.wave x.wk).fpflags ||| .ofNat 32 flags
  else (t.tail x.tk).flags = (s.tail x.tk).flags ||| .ofNat 32 flags ∧ (t.wave x.wk).fpflags = (s.wave x.wk).fpflags

/-- No lane raises a flag whose enable is 1 (R132). -/
def quiet (s : State) (cx : Cx) (res : Nat → Nat × Nat) : Bool :=
  cx.act.all (fun l => Nat.land (bits (s.wave cx.sel.wk).fpctl.toNat 12 8) (res l).2 == 0)

/-- The float instruction completes: as `Computes`, and the flags of all active lanes are set (R130 to R132). It does so on all operands where
every trap enable of FPCTL is 0, and otherwise where no lane raises a flag whose enable is 1. -/
def ComputesF (i : Instr) (s : State) (x : Sel) (d : Opnd) (n : Nat) (res : Nat → Nat × Nat) : Prop :=
  bits (s.wave x.wk).fpctl.toNat 12 8 = 0 ∨ quiet s (cxOf i s x) res = true →
  ∃ t, exec i s = .next t ∧ Gets (cxOf i s x) d n (cxOf i s x).act (fun l => (res l).1) s t ∧
    RegsKept x (destCodes d n) (cxOf i s x).act s t ∧
    FlagsTake x s t ((cxOf i s x).act.foldl (fun a l => Nat.lor a (res l).2) 0) ∧ AluFrame x s t ∧ GoesOn x s t ∧
    QueuesKept i x d s t

/-! ## Where a context goes -/

/-- The divergence state after an instruction that has made it l: l settled (R87). -/
def Moves (x : Sel) (s t : State) (l : List DivEntry) : Prop :=
  t.stack x = settle (s.wave x.wk).div.tmode l

/-- The instruction only lets the wave go on at the next slot. -/
def OnlyAdvances (i : Instr) (s : State) (x : Sel) : Prop :=
  ∃ t, exec i s = .next t ∧ RegsKept x [] [] s t ∧ FlagsKept x s t ∧ AluFrame x s t ∧ GoesOn x s t ∧ QueuesKept i x .none s t

/-- What a wave keeps in a call or return: everything but its divergence state (the return stacks among it). -/
def Wave.flow (w : Wave) : Wave := { w.still with div := {} }

/-- What a core keeps in a call, a return or a jump through a table: everything but queue records, the scratchpad bytes
of spill areas, held translations, and what the end of a wave resolves at its engines (R298, R336). -/
def Core.flow (c : Core) : Core := { c.still with scratch := [], tlb := [], chans := [], mx := {} }

/-- A request that waits for a word, apart from its answer. -/
def Defer.ask (d : Defer) : Defer := { d with got := none }

/-- The frame of calls, returns and table jumps: no register, no flag, no byte of global memory, no other wave. -/
structure FlowFrame (x : Sel) (s t : State) : Prop where
  rest : t = { s with
    waves := t.waves, cores := t.cores, tails := t.tails, regions := t.regions, absent := t.absent, empties := t.empties
    defer := t.defer }
  tags : s.absent = [] → t.empties = s.empties
  defer : t.defer.map Defer.ask = s.defer.map Defer.ask
  waves : ∀ k, k ≠ x.wk → t.wave k = s.wave k
  own : (t.wave x.wk).flow = (s.wave x.wk).flow
  regs : RegsKept x [] [] s t
  flags : FlagsKept x s t
  cores : ∀ k, k ≠ x.ck → t.core k = s.core k
  core : (t.core x.ck).flow = (s.core x.ck).flow
  tails : ∀ k, x.main = true ∨ k ≠ x.tk → t.tail k = s.tail k
  tail : (t.tail x.tk).still = (s.tail x.tk).still

/-! ## Memory -/

/-- What a wave keeps in an access: as `Wave.still`, and its counters, the numbering of its accesses and stores not yet performed are told
apart. -/
def Wave.calm (w : Wave) : Wave := { w.still with main := { sleep := w.main.sleep, sync := w.main.sync }, nextAcc := 0, late := [] }
/-- What a tail keeps in an access. -/
def Tail.calm (t : Tail) : Tail := { t.still with ctx := { sleep := t.ctx.sleep, sync := t.ctx.sync } }
/-- What a core keeps in an access: everything but queue records, pushes, scratchpad bytes and held translations. -/
def Core.calm (c : Core) : Core := { c.still with scratch := [], tlb := [] }

/-- The frame of a memory access: no register but D and no exception flag changes at issue; of the rest only memory itself with
its cells, tags and carved copies, scratchpads, held translations, and requests that wait for a word. -/
structure MemFrameD (i : Instr) (codes lanes : List Nat) (x : Sel) (s t : State) : Prop where
  rest : t = { s with
    waves := t.waves, cores := t.cores, tails := t.tails, mem := t.mem, cells := t.cells, empties := t.empties
    regions := t.regions, defer := t.defer, absent := t.absent }
  waves : ∀ k, k ≠ x.wk → t.wave k = s.wave k
  own : (t.wave x.wk).calm = (s.wave x.wk).calm
  regs : RegsKept x codes lanes s t
  flags : FlagsKept x s t
  cores : ∀ k, (t.core k).calm = (s.core k).calm
  queues : ∀ k, k ≠ x.ck → (t.core k).queues = (s.core k).queues ∧ (t.core k).pushes = (s.core k).pushes
  records : QueuesKept i x .none s t
  tlbs : ∀ k, k ≠ x.ck → (t.core k).tlb = (s.core k).tlb
  tails : ∀ k, x.main = true ∨ k ≠ x.tk → t.tail k = s.tail k
  tail : (t.tail x.tk).calm = (s.tail x.tk).calm

/-- The frame of an access that writes no register at issue. -/
def MemFrame (i : Instr) (x : Sel) (s t : State) : Prop := MemFrameD i [] [] x s t

/-- No byte of memory, no reduction cell and no scratchpad byte changes, and no tag but those of pages that have become resident (R235);
a carved copy keeps every line it has, and takes only clean ones. -/
structure NoStore (s t : State) : Prop where
  mem : t.mem = s.mem
  cells : t.cells = s.cells
  empties : s.absent = [] → t.empties = s.empties
  tags : ∀ w, FMap.get false t.empties w = true → FMap.get false s.empties w = true
  defer : t.defer.map Defer.ask = s.defer.map Defer.ask
  scratch : ∀ k, (t.core k).scratch = (s.core k).scratch
  lines : ∀ ri k c, (s.region ri).lines.find? k = some c → (t.region ri).lines.find? k = some c
  fills : ∀ ri k c, (s.region ri).lines.find? k = none → (t.region ri).lines.find? k = some c → c.dirty = 0

/-- No wait counter moves, and no access is under way that was not. -/
def Uncounted (x : Sel) (s t : State) : Prop :=
  (∀ c, t.count x c = s.count x c) ∧ (t.wave x.wk).accs.map Access.id = (s.wave x.wk).accs.map Access.id

/-- The wait counter of the access has risen by 1 (R95). -/
def Counted (x : Sel) (s t : State) (load : Bool) : Prop :=
  t.count x (if load then .ld else .st) = s.count x (if load then .ld else .st) + 1 ∧
  t.count x (if load then .st else .ld) = s.count x (if load then .st else .ld)

/-- The context has stored nothing to these bytes that is not performed yet (R222). -/
def Clear (x : Sel) (s : State) (ps : List (LatePlace × Nat)) : Prop :=
  ∀ e ∈ (s.wave x.wk).late, e.ctx = x.ctx → ∀ p ∈ ps, e.before p.1 p.2 = false

/-- Every store that the context issued is performed. -/
def Performed (x : Sel) (s : State) : Prop := ∀ e ∈ (s.wave x.wk).late, e.ctx ≠ x.ctx

/-- Pages under migration are pages (R357). -/
def Paged (s : State) : Prop := ∀ g ∈ s.migs, g.old % 4096 = 0 ∧ g.new % 4096 = 0 ∧ g.size % 4096 = 0

/-- An access is as it was, but that it may give up what it would write to these keys, which a later access will write (R97). -/
def GivesWay (mine : Nat → Prop) (b b' : Access) : Prop :=
  { b' with writes := b.writes, due := b.due } = b ∧ (∀ k, ¬ mine k → b'.writes.find? k = b.writes.find? k ∧ (k ∈ b'.due ↔ k ∈ b.due)) ∧
    ∀ k, b'.writes.find? k = none ∨ b'.writes.find? k = b.writes.find? k

/-- An access is under way (R95, R97): its counter has risen by 1, and when it completes it will write these words, by
register code and lane, and no other. Of an older access to one of them either value may remain. -/
def Under (x : Sel) (s t : State) (load : Bool) (word : Nat → Nat → Option Word) : Prop :=
  Counted x s t load ∧
  ∃ a r, (t.wave x.wk).accs = r ++ [a] ∧ a.load = load ∧ a.ctx = x.ctx ∧ a.id = (s.wave x.wk).nextAcc ∧
    List.Forall₂ (GivesWay (fun k => (a.writes.find? k).isSome = true)) (s.wave x.wk).accs r ∧
    ∀ c l, l < 32 → a.writes.find? (regKey c l) = word c l

/-! ## Stops -/

/-- The wave has stopped for a cause (R249, R255): what its record holds. -/
def StoppedAs (x : Sel) (t : State) (tr : Trap) : Prop :=
  (t.wave x.wk).state = 1 ∧ (t.wave x.wk).cause = tr.cause ∧ (t.wave x.wk).number = tr.number ∧
    (t.wave x.wk).wctx = x.ctx ∧ (t.wave x.wk).async = tr.async ∧ (t.wave x.wk).faultmask = tr.mask ∧
    (t.wave x.wk).effmask = tr.eff ∧ (t.wave x.wk).faultpc = tr.pc ∧ (t.wave x.wk).faddr = tr.faddr

end Machine
end Sys2Proof
end

