-- ==== Sys2Proof/Certificates/Slice0/Obligations.lean ====
section
/-!
DEFINITION. Obligations.lean: the statements for the provers. Each formalises rules of the spec; the first part holds
the terms of the rules, written from the rules and apart from the meanings that the statements speak about.
-/
namespace Sys2Proof.Rule
open Sys2Proof.Machine

/-! ## Numbers (R101, R102) -/

/-- I(x) of R101: a source under the type of its instruction. -/
def I (t : Ty) (x : Nat) : Int :=
  if t.signed then (BitVec.ofNat t.width x).toInt else ((BitVec.ofNat t.width x).toNat : Int)

/-- Lo(T), Hi(T) and Sat of R101. -/
def Lo (t : Ty) : Int := if t.signed then -(2 ^ (t.width - 1)) else 0
def Hi (t : Ty) : Int := if t.signed then 2 ^ (t.width - 1) - 1 else 2 ^ t.width - 1
def Sat (t : Ty) (x : Int) : Int := min (max x (Lo t)) (Hi t)

/-- Put of R101: the w bits that D takes. -/
def Put (t : Ty) (x : Int) : Nat := (BitVec.ofInt t.width x).toNat

/-- With SAT the result saturates, without it wraps (R105, R107). -/
def fit (t : Ty) (sat : Bool) (x : Int) : Nat := Put t (if sat then Sat t x else x)

/-- R102: the immediate of a 64-bit type is sign-extended, or zero-extended for `.n64`. -/
def imm (t : Ty) (v : Word) : Nat :=
  if t.width = 64 then (if t = .n64 then v.toNat else (v.signExtend 64).toNat) else v.toNat

/-- The 64-bit type of the same kind (R105). -/
def wide (t : Ty) : Ty := if t = .s32 then .s64 else .n64

/-! ## Instructions by shape

Each says of an instruction that whenever it executes (`ready`) and a slot follows it (`inside`), the machine answers a
next state in which D holds the result in every active lane, the wave goes on at the next slot, and nothing else has
changed (`Computes`). The sources are read as `Cx.src` reads them, lane by lane. -/

/-- A source as the instruction reads it in a lane: n registers, or the like. -/
def src (i : Instr) (s : State) (x : Sel) (f : Fld) (o : Opnd) (n l : Nat) : Nat := (cxOf i s x).src s f o n l

/-- D of w bits from A and B of w bits. -/
def AB (mk : IntR → Instr) (op : IntR → Nat → Nat → Nat) : Prop :=
  ∀ f s x, ready (mk f) s x = true → inside s x = true →
    Computes (mk f) s x f.d f.w (fun l => op f (src (mk f) s x .A f.a f.w l) (src (mk f) s x .B f.b f.w l))

/-- D of w bits from A and the immediate. -/
def AImm (mk : IntI → Instr) (op : IntI → Nat → Nat → Nat) : Prop :=
  ∀ f s x, ready (mk f) s x = true → inside s x = true →
    Computes (mk f) s x f.d f.w (fun l => op f (src (mk f) s x .A f.a f.w l) (imm f.ty f.imm))

/-- D of n registers from A of w bits, B of nb registers and C of nc registers. -/
def ABC (mk : IntR → Instr) (n nb nc : IntR → Nat) (op : IntR → Nat → Nat → Nat → Nat) : Prop :=
  ∀ f s x, ready (mk f) s x = true → inside s x = true →
    Computes (mk f) s x f.d (n f) (fun l => op f (src (mk f) s x .A f.a f.w l) (src (mk f) s x .B f.b (nb f) l)
      (src (mk f) s x .C f.c (nc f) l))

/-- D of n registers from A of w bits alone. -/
def A1 (mk : IntR → Instr) (n : IntR → Nat) (op : IntR → Nat → Nat) : Prop :=
  ∀ f s x, ready (mk f) s x = true → inside s x = true →
    Computes (mk f) s x f.d (n f) (fun l => op f (src (mk f) s x .A f.a f.w l))

/-- D of n registers from A of w bits and the bits of the immediate that the entry names. -/
def AImmN (mk : IntI → Instr) (n : IntI → Nat) (op : IntI → Nat → Nat → Nat) : Prop :=
  ∀ f s x, ready (mk f) s x = true → inside s x = true →
    Computes (mk f) s x f.d (n f) (fun l => op f (src (mk f) s x .A f.a f.w l) f.imm.toNat)

end Sys2Proof.Rule

open Sys2Proof Sys2Proof.Machine Sys2Proof.Rule

/-! ## Integer instructions (file 04) -/

/-- R105: sums, differences and products, saturated with SAT and wrapped without. -/
def Sys2Proof.Rule.IntegerArithmetic : Prop :=
  AB .add (fun f a b => fit f.ty f.sat (I f.ty a + I f.ty b)) ∧
  AImm .addRi (fun f a b => fit f.ty f.sat (I f.ty a + I f.ty b)) ∧
  AB .sub (fun f a b => fit f.ty f.sat (I f.ty a - I f.ty b)) ∧
  AImm .subRi (fun f a b => fit f.ty f.sat (I f.ty a - I f.ty b)) ∧
  AB .mulhi (fun f a b => Put f.ty ((I f.ty a * I f.ty b) / 2 ^ f.ty.width)) ∧
  (∀ f s x, ready (.mul f) s x = true → inside s x = true →
    Computes (.mul f) s x f.d f.wideN (fun l =>
      fit (if f.wide then wide f.ty else f.ty) f.sat
        (I f.ty (src (.mul f) s x .A f.a f.w l) * I f.ty (src (.mul f) s x .B f.b f.w l)))) ∧
  (∀ f s x, ready (.mulRi f) s x = true → inside s x = true →
    Computes (.mulRi f) s x f.d f.wideN (fun l =>
      fit (if f.wide then wide f.ty else f.ty) f.sat (I f.ty (src (.mulRi f) s x .A f.a f.w l) * I f.ty (imm f.ty f.imm)))) ∧
  (∀ f s x, ready (.mad f) s x = true → inside s x = true →
    Computes (.mad f) s x f.d f.wideN (fun l =>
      fit (if f.wide then wide f.ty else f.ty) f.sat
        (I f.ty (src (.mad f) s x .A f.a f.w l) * I f.ty (src (.mad f) s x .B f.b f.w l)
          + I (if f.wide then wide f.ty else f.ty) (src (.mad f) s x .C f.c f.wideN l))))

namespace Sys2Proof.Rule
/-- The table of R106, for `div`. -/
def quotient (t : Ty) (sat : Bool) (a b : Int) : Int :=
  if b = 0 then (if t.signed ∧ a < 0 then Lo t else Hi t)
  else if t.signed ∧ a = Lo t ∧ b = -1 then (if sat then Hi t else Lo t)
  else Int.tdiv a b
/-- The table of R106, for `rem`. -/
def remainder (t : Ty) (a b : Int) : Int :=
  if b = 0 then a else if t.signed ∧ a = Lo t ∧ b = -1 then 0 else a - b * Int.tdiv a b
end Sys2Proof.Rule

/-- R106: division truncates toward zero, and its corners have the values of the table. -/
def Sys2Proof.Rule.IntegerDivision : Prop :=
  AB .div (fun f a b => Put f.ty (quotient f.ty f.sat (I f.ty a) (I f.ty b))) ∧
  AImm .divRi (fun f a b => Put f.ty (quotient f.ty f.sat (I f.ty a) (I f.ty b))) ∧
  AB .rem (fun f a b => Put f.ty (remainder f.ty (I f.ty a) (I f.ty b))) ∧
  AImm .remRi (fun f a b => Put f.ty (remainder f.ty (I f.ty a) (I f.ty b)))

/-- R107, and R108 with its carry and borrow in the high register. -/
def Sys2Proof.Rule.IntegerOrderInstructions : Prop :=
  A1 .neg IntR.w (fun f a => fit f.ty f.sat (-(I f.ty a))) ∧
  A1 .abs IntR.w (fun f a => fit f.ty f.sat |I f.ty a|) ∧
  AB .min (fun f a b => Put f.ty (min (I f.ty a) (I f.ty b))) ∧
  AImm .minRi (fun f a b => Put f.ty (min (I f.ty a) (I f.ty b))) ∧
  AB .max (fun f a b => Put f.ty (max (I f.ty a) (I f.ty b))) ∧
  AImm .maxRi (fun f a b => Put f.ty (max (I f.ty a) (I f.ty b))) ∧
  ABC .clamp IntR.w IntR.w IntR.w (fun f a b c => Put f.ty (min (max (I f.ty a) (I f.ty b)) (I f.ty c))) ∧
  ABC .addc (fun _ => 2) IntR.w (fun _ => 1) (fun _ a b c =>
    (a + b + c % 2) % 2 ^ 32 + (if 2 ^ 32 ≤ a + b + c % 2 then 2 ^ 32 else 0)) ∧
  ABC .subb (fun _ => 2) IntR.w (fun _ => 1) (fun _ a b c =>
    (((a : Int) - b - (c % 2 : Nat)) % 2 ^ 32).toNat + (if a < b + c % 2 then 2 ^ 32 else 0))

namespace Sys2Proof.Rule
/-- Element i of R109: bits e i + e − 1 : e i, signed or not. -/
def element (e : Nat) (signed : Bool) (x i : Nat) : Int :=
  if signed then (BitVec.ofNat e (x >>> (e * i))).toInt else ((BitVec.ofNat e (x >>> (e * i))).toNat : Int)
end Sys2Proof.Rule

/-- R109: packed differences and products, added to the 32 bits of C, wrapped. -/
def Sys2Proof.Rule.PackedSums : Prop :=
  ABC .sad (fun _ => 1) (fun _ => 1) (fun _ => 1) (fun f a b c =>
    (BitVec.ofInt 32 (c + ((List.range (32 / f.ty.elem)).map (fun i =>
      |element f.ty.elem f.ty.signed a i - element f.ty.elem f.ty.signed b i|)).sum)).toNat) ∧
  ABC .dot4 (fun _ => 1) (fun _ => 1) (fun _ => 1) (fun f a b c =>
    (BitVec.ofInt 32 (c + ((List.range 4).map (fun i =>
      element 8 f.ty.signed a i * element 8 (f.ty.signed != f.sub.getLsbD 0) b i)).sum)).toNat)

/-- R108 to R112: order, carries and packed sums. -/
def Sys2Proof.Rule.IntegerOrderAndCarry : Prop := Sys2Proof.Rule.IntegerOrderInstructions ∧ Sys2Proof.Rule.PackedSums

/-- R110: every bit of D is the table's function of the bits of the sources. -/
def Sys2Proof.Rule.BitwiseLogic : Prop :=
  AB .and (fun f a b => (BitVec.ofNat f.ty.width a &&& BitVec.ofNat f.ty.width b).toNat) ∧
  AImm .andRi (fun f a b => (BitVec.ofNat f.ty.width a &&& BitVec.ofNat f.ty.width b).toNat) ∧
  AB .or (fun f a b => (BitVec.ofNat f.ty.width a ||| BitVec.ofNat f.ty.width b).toNat) ∧
  AImm .orRi (fun f a b => (BitVec.ofNat f.ty.width a ||| BitVec.ofNat f.ty.width b).toNat) ∧
  AB .xor (fun f a b => (BitVec.ofNat f.ty.width a ^^^ BitVec.ofNat f.ty.width b).toNat) ∧
  AImm .xorRi (fun f a b => (BitVec.ofNat f.ty.width a ^^^ BitVec.ofNat f.ty.width b).toNat) ∧
  AB .andn (fun f a b => (BitVec.ofNat f.ty.width a &&& ~~~(BitVec.ofNat f.ty.width b)).toNat) ∧
  A1 .not IntR.w (fun f a => (~~~(BitVec.ofNat f.ty.width a)).toNat) ∧
  ABC .bfn IntR.w IntR.w IntR.w (fun f a b c =>
    (BitVec.ofFnLE (fun i : Fin f.ty.width =>
      f.sub.getLsbD ((a.testBit i).toNat + 2 * (b.testBit i).toNat + 4 * (c.testBit i).toNat))).toNat)

namespace Sys2Proof.Rule
/-- R111, with the count k. -/
def shl (w a k : Nat) : Nat := if k < w then (BitVec.ofNat w a <<< k).toNat else 0
def shr (t : Ty) (a k : Nat) : Nat :=
  if k < t.width then (if t.signed then ((BitVec.ofNat t.width a).sshiftRight k).toNat else (BitVec.ofNat t.width a >>> k).toNat)
  else if I t a < 0 then (BitVec.allOnes t.width).toNat else 0
def rot (w a k : Nat) : Nat := ((BitVec.ofNat w a).rotateLeft (k % w)).toNat
end Sys2Proof.Rule

/-- R111: shifts and rotates, whose count is bits 7:0 of the register or the immediate. -/
def Sys2Proof.Rule.Shifts : Prop :=
  ABC .shl IntR.w (fun _ => 1) (fun _ => 0) (fun f a b _ => shl f.ty.width a (b % 256)) ∧
  AImmN .shlRi IntI.w (fun f a b => shl f.ty.width a b) ∧
  ABC .shr IntR.w (fun _ => 1) (fun _ => 0) (fun f a b _ => shr f.ty a (b % 256)) ∧
  AImmN .shrRi IntI.w (fun f a b => shr f.ty a b) ∧
  ABC .rot IntR.w (fun _ => 1) (fun _ => 0) (fun f a b _ => rot f.ty.width a (b % 256)) ∧
  AImmN .rotRi IntI.w (fun f a b => rot f.ty.width a b)

namespace Sys2Proof.Rule
/-- `bfx` of R112: bit j of the field, and the extension from bit len − 1. -/
def bfx (t : Ty) (a b : Nat) : Nat :=
  let pos := b % 256
  let len := min (b / 256 % 256) 32
  let fbit := fun j => if pos + j < 32 then a.testBit (pos + j) else t.signed && a.testBit 31
  if len = 0 then 0
  else (BitVec.ofFnLE (fun j : Fin 32 => if j < len then fbit j else t.signed && fbit (len - 1))).toNat
/-- `bfi` of R112. -/
def bfi (base a b : Nat) : Nat :=
  let pos := b % 256
  let len := min (b / 256 % 256) 32
  (BitVec.ofFnLE (fun k : Fin 32 => if pos ≤ k ∧ k < pos + len then a.testBit (k - pos) else base.testBit k)).toNat
/-- `bpick` of R114: byte i of D by the pool index and the fill mode of the selector. -/
def bpickByte (a b s i : Nat) : Nat :=
  let n := s / 2 ^ (3 * i) % 8
  let y := if n < 4 then a / 2 ^ (8 * n) % 256 else b / 2 ^ (8 * (n - 4)) % 256
  let m := s / 2 ^ (12 + 2 * i) % 4
  if m = 1 then 0 else if m = 2 then (if y.testBit 7 then 255 else 0) else if m = 3 then 255 else y
def bpick (a b s : Nat) : Nat :=
  bpickByte a b s 0 + 2 ^ 8 * bpickByte a b s 1 + 2 ^ 16 * bpickByte a b s 2 + 2 ^ 24 * bpickByte a b s 3
end Sys2Proof.Rule

/-- R112 to R114: fields, counts, the reversal of bits, and picked bytes. -/
def Sys2Proof.Rule.BitFields : Prop :=
  ABC .bfx (fun _ => 1) (fun _ => 1) (fun _ => 0) (fun f a b _ => bfx f.ty a b) ∧
  AImmN .bfxRi (fun _ => 1) (fun f a b => bfx f.ty a b) ∧
  ABC .bfi (fun _ => 1) (fun _ => 1) (fun _ => 1) (fun _ a b c => bfi c a b) ∧
  (∀ f s x, ready (.bfiRi f) s x = true → inside s x = true →
    Computes (.bfiRi f) s x f.d 1 (fun l =>
      bfi (src (.bfiRi f) s x .D f.d 1 l) (src (.bfiRi f) s x .A f.a f.w l) f.imm.toNat)) ∧
  A1 .popc (fun _ => 1) (fun f a => ((List.range f.ty.width).filter (fun i => a.testBit i)).length) ∧
  A1 .clz (fun _ => 1) (fun f a => (BitVec.ofNat f.ty.width a).clz.toNat) ∧
  A1 .ctz (fun _ => 1) (fun f a => if a = 0 then f.ty.width else (List.range f.ty.width).findIdx (fun i => a.testBit i)) ∧
  A1 .brev IntR.w (fun f a => (BitVec.ofNat f.ty.width a).reverse.toNat) ∧
  ABC .bpick (fun _ => 1) (fun _ => 1) (fun _ => 1) (fun _ a b c => bpick a b c) ∧
  AImmN .bpickRi (fun _ => 1) (fun _ a b => bpick a 0 b)

/-- R115 to R117: copies, constants, selection and scaled sums. -/
def Sys2Proof.Rule.MovesAndAddresses : Prop :=
  A1 .mov IntR.w (fun _ a => a) ∧
  (∀ f s x, f.sub = 0 → ready (.movRi f) s x = true → inside s x = true →
    Computes (.movRi f) s x f.d f.w (fun _ => imm f.ty f.imm)) ∧
  (∀ f s x, f.sub = 1 → ready (.movRi f) s x = true → inside s x = true →
    Computes (.movRi f) s x f.d 1 (fun _ => f.imm.toNat)) ∧
  (∀ f s x r, f.sub = 2 → ready (.movRi f) s x = true → inside s x = true →
    (f.d = .v r → Computes (.movRi f) s x (.v (r + 1)) 1 (fun _ => f.imm.toNat)) ∧
    (f.d = .k r → Computes (.movRi f) s x (.k (r + 1)) 1 (fun _ => f.imm.toNat))) ∧
  ABC .sel IntR.w IntR.w (fun _ => 1) (fun _ a b c => if c.testBit 0 then a else b) ∧
  (∀ f s x, ready (.lea f) s x = true → inside s x = true →
    Computes (.lea f) s x f.d 2 (fun l => (BitVec.ofInt 64 (src (.lea f) s x .A f.a 2 l
      + (if f.ty = .s32 then (BitVec.ofNat 32 (src (.lea f) s x .B f.b 1 l)).toInt else src (.lea f) s x .B f.b 1 l)
        * 2 ^ f.shift)).toNat)) ∧
  (∀ f s x, ready (.leaRi f) s x = true → inside s x = true →
    Computes (.leaRi f) s x f.d 2 (fun l => (BitVec.ofInt 64 (src (.leaRi f) s x .A f.a 2 l
      + (if f.ty = .s32 then f.imm.toInt else f.imm.toNat) * 2 ^ f.shift)).toNat)) ∧
  ABC .sadd (fun _ => 1) (fun _ => 1) (fun _ => 0) (fun f a b _ => (a * 2 ^ f.shift + b) % 2 ^ 32) ∧
  AImmN .saddRi (fun _ => 1) (fun f a b => (a * 2 ^ f.shift + b) % 2 ^ 32)

namespace Sys2Proof.Rule
/-! ### Affine forms (R119 to R121) -/

/-- Register r, or with n = 2 the pair at r, is in affine form. -/
def inForm (w : Wave) (n r : Nat) : Bool := if n = 2 then w.isAff64 r else w.isAff32 r

/-- No load is on its way to the register or pair (log entry 4). -/
def settled (w : Wave) (n r : Nat) : Prop := w.unsettled r = false ∧ (n = 2 → w.unsettled (r + 1) = false)

/-- A source of n registers counts as affine (R120). -/
def affine (s : State) (x : Sel) (n : Nat) : Opnd → Prop
  | .v r => inForm (s.wave x.wk) n r = true
  | .sp z => if n = 2 then z = .zero ∨ z = .watch else z.uniform = true ∨ z = .laneid
  | _ => False

/-- The values of n registers from r on in a lane, as one number. -/
def words (w : Wave) (n r l : Nat) : Int := ((w.raw r l).toNat + (if n = 2 then 2 ^ 32 * (w.raw (r + 1) l).toNat else 0) : Nat)

/-- What a form claims of the values (R119): base and stride, wrapped; and a 64-bit form of stride 0 gives each half the 32-bit form. -/
def FormsSound (w : Wave) : Prop :=
  (∀ r, w.isAff32 r = true → ∃ b d : Int, ∀ l < 32, words w 1 r l = (b + l * d) % 2 ^ 32) ∧
  (∀ r, r % 2 = 0 → w.isAff64 r = true → ∃ b d : Int, ∀ l < 32, words w 2 r l = (b + l * d) % 2 ^ 64)

/-- D, of n registers, takes the affine form just where every lane is active and the condition of the table of R121 holds, and the forms
of the wave keep saying what its registers hold. -/
def TakesForm (i : Instr) (s : State) (x : Sel) (d : Opnd) (n : Nat) (cond : Prop) : Prop :=
  ready i s x = true → inside s x = true → ∀ r, d = .v r → settled (s.wave x.wk) n r →
    ∃ t, exec i s = .next t ∧ (inForm (t.wave x.wk) n r = true ↔ (cxOf i s x).act = List.range 32 ∧ cond) ∧
      (FormsSound (s.wave x.wk) → FormsSound (t.wave x.wk))

/-- The table of R121. -/
def AffineTable : Prop :=
  (∀ f s x, TakesForm (.add f) s x f.d f.w (f.w = 1 ∧ f.sat = false ∧ affine s x 1 f.a ∧ affine s x 1 f.b)) ∧
  (∀ f s x, TakesForm (.addRi f) s x f.d f.w (f.w = 1 ∧ f.sat = false ∧ affine s x 1 f.a)) ∧
  (∀ f s x, TakesForm (.sub f) s x f.d f.w (f.w = 1 ∧ f.sat = false ∧ affine s x 1 f.a ∧ affine s x 1 f.b)) ∧
  (∀ f s x, TakesForm (.subRi f) s x f.d f.w (f.w = 1 ∧ f.sat = false ∧ affine s x 1 f.a)) ∧
  (∀ f s x, TakesForm (.shl f) s x f.d f.w (f.w = 1 ∧ affine s x 1 f.a ∧ affine s x 1 f.b ∧
    src (.shl f) s x .B f.b 1 0 = src (.shl f) s x .B f.b 1 1)) ∧
  (∀ f s x, TakesForm (.shlRi f) s x f.d f.w (f.w = 1 ∧ affine s x 1 f.a)) ∧
  (∀ f s x, TakesForm (.sadd f) s x f.d 1 (affine s x 1 f.a ∧ affine s x 1 f.b)) ∧
  (∀ f s x, TakesForm (.saddRi f) s x f.d 1 (affine s x 1 f.a)) ∧
  (∀ f s x, TakesForm (.mov f) s x f.d f.w (affine s x f.w f.a)) ∧
  (∀ f s x, f.sub = 0 → TakesForm (.movRi f) s x f.d f.w True) ∧
  (∀ f s x r, f.sub = 1 → f.d = .v r → TakesForm (.movRi f) s x f.d 2
    ((s.wave x.wk).isAff32 (r + 1) = true ∧ (s.wave x.wk).raw (r + 1) 0 = (s.wave x.wk).raw (r + 1) 1)) ∧
  (∀ f s x r, f.sub = 2 → f.d = .v r → TakesForm (.movRi f) s x f.d 2
    ((s.wave x.wk).isAff32 r = true ∧ (s.wave x.wk).raw r 0 = (s.wave x.wk).raw r 1)) ∧
  (∀ f s x, TakesForm (.lea f) s x f.d 2 (affine s x 2 f.a ∧ src (.lea f) s x .A f.a 2 0 = src (.lea f) s x .A f.a 2 1 ∧ affine s x 1 f.b ∧
    let i := fun l => if f.ty = .s32 then (BitVec.ofNat 32 (src (.lea f) s x .B f.b 1 l)).toInt else (src (.lea f) s x .B f.b 1 l : Int)
    ∀ l < 32, i l = i 0 + l * (i 1 - i 0))) ∧
  (∀ f s x, TakesForm (.leaRi f) s x f.d 2 (affine s x 2 f.a ∧ src (.leaRi f) s x .A f.a 2 0 = src (.leaRi f) s x .A f.a 2 1)) ∧
  (∀ f s x, TakesForm (.afset f) s x f.d 1 True) ∧ (∀ f s x, TakesForm (.afsetRi f) s x f.d 1 True)

/-- Every other write makes D plain (R121); a 64-bit form of stride 0 is a 32-bit form of each half (R119). -/
def PlainWrites : Prop :=
  (∀ mk ∈ [Instr.and, .or, .xor, .andn, .not, .mul, .mad, .mulhi, .div, .rem, .min, .max, .neg, .abs, .clamp, .addc, .subb, .sad, .dot4, .bfn,
      .shr, .rot, .bfx, .bfi, .popc, .clz, .ctz, .brev, .bpick, .sel, .aftest], ∀ f s x r, ready (mk f) s x = true → inside s x = true → f.d = .v r →
    ∃ t, exec (mk f) s = .next t ∧ (t.wave x.wk).isAff32 r = false ∧ (t.wave x.wk).isAff64 (r - r % 2) = false) ∧
  (∀ (w : Wave) r, r % 2 = 0 → w.isAff64 r = true → w.raw r 0 = w.raw r 1 → w.raw (r + 1) 0 = w.raw (r + 1) 1 →
    w.isAff32 r = true ∧ w.isAff32 (r + 1) = true)
end Sys2Proof.Rule

/-- R122, R123: `afset` gives lane L the base and L strides of the lowest active lane, and `afclr` changes no value. -/
def Sys2Proof.Rule.AffineInstructions : Prop :=
  (∀ f s x, ready (.afset f) s x = true → inside s x = true →
    Computes (.afset f) s x f.d 1 (fun l =>
      (src (.afset f) s x .A f.a f.w (cxOf (.afset f) s x).F + l * src (.afset f) s x .B f.b 1 (cxOf (.afset f) s x).F) % 2 ^ 32)) ∧
  (∀ f s x, ready (.afsetRi f) s x = true → inside s x = true →
    Computes (.afsetRi f) s x f.d 1 (fun l =>
      (src (.afsetRi f) s x .A f.a f.w (cxOf (.afsetRi f) s x).F + l * f.imm.toNat) % 2 ^ 32)) ∧
  (∀ f s x r, f.a = .v r → ready (.aftest f) s x = true → inside s x = true →
    ∃ b : Bool, Computes (.aftest f) s x f.d 1 (fun _ => b.toNat) ∧ (inForm (s.wave x.wk) f.w r = true → b = true) ∧
      (settled (s.wave x.wk) f.w r → b = inForm (s.wave x.wk) f.w r)) ∧
  (∀ f s x r, f.d = .v r → ready (.afclr f) s x = true → inside s x = true →
    ∃ t, exec (.afclr f) s = .next t ∧ (∀ c l, (t.wave x.wk).raw c l = (s.wave x.wk).raw c l) ∧
      (t.wave x.wk).isAff32 r = false ∧
      (f.w = 2 → (t.wave x.wk).isAff32 (r + 1) = false ∧ FMap.get false (t.wave x.wk).aff64 r = false) ∧
      FlagsKept x s t ∧ AluFrame x s t ∧ GoesOn x s t)

/-- R101, R102, R105 to R109: integer sums, differences, products, quotients, order, carries and packed sums. -/
def Obligations.IntegerArithmetic : Prop :=
  Sys2Proof.Rule.IntegerArithmetic ∧ Sys2Proof.Rule.IntegerDivision ∧ Sys2Proof.Rule.IntegerOrderAndCarry

/-- R110 to R114: logic, counts of bits, shifts and bit fields. -/
def Obligations.BitInstructions : Prop := Sys2Proof.Rule.BitwiseLogic ∧ Sys2Proof.Rule.Shifts ∧ Sys2Proof.Rule.BitFields

/-- R115 to R117, R119 to R123: moves, selection, scaled sums, and the affine form of a register: which instructions give it, and that it
says what the register holds. What the form of a register is while a load is on its way to it, is the model's choice (log entry 4), and so
is the form of the second register of a pair after `afclr.b32` of the first (log entry 71). -/
def Obligations.MovesAndAddresses : Prop :=
  Sys2Proof.Rule.MovesAndAddresses ∧ Sys2Proof.Rule.AffineTable ∧ Sys2Proof.Rule.PlainWrites ∧ Sys2Proof.Rule.AffineInstructions

/-! ## Compares (R53, R118, R147) -/

namespace Sys2Proof.Rule
/-- The comparison of R53 on numbers. -/
def holds (c : Cond) (a b : Int) : Bool :=
  match c with
  | .eq => a = b | .ne => a ≠ b | .lt => a < b | .le => a ≤ b | .gt => a > b | .ge => a ≥ b | _ => false
/-- The mask of `cmpm`: bit K is 1 where active lane K holds (R118). -/
def maskWhere (act : List Nat) (t : Nat → Bool) : Nat :=
  (BitVec.ofFnLE (fun k : Fin 32 => act.contains k.val && t k.val)).toNat
end Sys2Proof.Rule

/-- R118 for integer types: `cmp` writes each lane's test, `cmpm` the mask of the active lanes that hold. -/
def Sys2Proof.Rule.IntegerCompares : Prop :=
  (∀ f s x, f.ty.isFloat = false → ready (.cmp f) s x = true → inside s x = true →
    Computes (.cmp f) s x f.d 1 (fun l =>
      (holds f.cond (I f.ty (src (.cmp f) s x .A f.a f.w l)) (I f.ty (src (.cmp f) s x .B f.b f.w l))).toNat)) ∧
  (∀ f s x, f.ty.isFloat = false → ready (.cmpRi f) s x = true → inside s x = true →
    Computes (.cmpRi f) s x f.d 1 (fun l =>
      (holds f.cond (I f.ty (src (.cmpRi f) s x .A f.a f.w l)) (I f.ty (imm f.ty f.imm))).toNat)) ∧
  (∀ f s x, f.ty.isFloat = false → ready (.cmpm f) s x = true → inside s x = true →
    Computes (.cmpm f) s x f.d 1 (fun _ => maskWhere (cxOf (.cmpm f) s x).act (fun k =>
      holds f.cond (I f.ty (src (.cmpm f) s x .A f.a f.w k)) (I f.ty (src (.cmpm f) s x .B f.b f.w k))))) ∧
  (∀ f s x, f.ty.isFloat = false → ready (.cmpmRi f) s x = true → inside s x = true →
    Computes (.cmpmRi f) s x f.d 1 (fun _ => maskWhere (cxOf (.cmpmRi f) s x).act (fun k =>
      holds f.cond (I f.ty (src (.cmpmRi f) s x .A f.a f.w k)) (I f.ty (imm f.ty f.imm)))))

namespace Sys2Proof.Rule
/-! ### Float values (R124, R125, R134) -/

/-- The number that a finite value stands for. -/
def num : FV → ℚ
  | .fin n m e => (if n then -1 else 1) * (m : ℚ) * 2 ^ e
  | _ => 0

/-- Element i of a source, as the format of the type reads it (R125, R127). -/
def read (t : Ty) (ftz : Bool) (x i : Nat) : FV := (fmtOf t).val ftz (elem t x i)

/-- The four formats. -/
def formats : List Fmt := [F64, F32, F16, BF16]

/-- a below b in the order of values, −0 and +0 alike (R53, R147); no order with a NaN. -/
def below (a b : FV) : Prop :=
  match a, b with
  | .nan, _ | _, .nan => False
  | .inf n, .inf n' => n = true ∧ n' = false
  | .inf n, .fin .. => n = true
  | .fin .., .inf n => n = false
  | .fin .., .fin .. => num a < num b

/-- Two values compare equal. -/
def alike (a b : FV) : Prop := a ≠ .nan ∧ b ≠ .nan ∧ ¬ below a b ∧ ¬ below b a

/-- R53 on float values: the ordered conditions first, then those that a NaN meets. -/
def meets (c : Cond) (a b : FV) : Prop :=
  let un := a = .nan ∨ b = .nan
  match c with
  | .eq => alike a b
  | .ne => ¬ un ∧ ¬ alike a b
  | .lt => below a b
  | .le => below a b ∨ alike a b
  | .gt => below b a
  | .ge => below b a ∨ alike a b
  | .equ => un ∨ alike a b
  | .neu => un ∨ ¬ alike a b
  | .ltu => un ∨ below a b
  | .leu => un ∨ below a b ∨ alike a b
  | .gtu => un ∨ below b a
  | .geu => un ∨ below b a ∨ alike a b
  | .num => ¬ un
  | .nan => un

/-- The conditions that raise NV where an operand is a NaN (R147). -/
def ordered : Cond → Bool
  | .lt | .le | .gt | .ge => true
  | _ => false
end Sys2Proof.Rule

/-- R147: the test of a float compare is the relation of R53 on the values of the operands, and NV is raised by an
ordered condition with a NaN operand and by nothing else. -/
def Sys2Proof.Rule.FloatCompareTest : Prop :=
  ∀ (t : Ty) (c : Cond) (ftz : Bool) (a b : Nat), t.isFloat = true →
    ((cmpOp t c ftz a b).1 = true ↔ meets c (read t ftz a 0) (read t ftz b 0)) ∧
    (cmpOp t c ftz a b).2 = (if ordered c ∧ (read t ftz a 0 = .nan ∨ read t ftz b 0 = .nan) then fNV else 0)

/-- R118, R132, R147 for float types: the tests of the lanes, or their mask, with the flags of all of them. -/
def Sys2Proof.Rule.FloatCompareInstructions : Prop :=
  (∀ f s x, f.ty.isFloat = true → ready (.cmp f) s x = true → inside s x = true →
    ComputesF (.cmp f) s x f.d 1 (fun l =>
      let r := cmpOp f.ty f.cond f.ftz (src (.cmp f) s x .A f.a f.w l) (src (.cmp f) s x .B f.b f.w l)
      (r.1.toNat, r.2))) ∧
  (∀ f s x, f.ty.isFloat = true → ready (.cmpRi f) s x = true → inside s x = true →
    ComputesF (.cmpRi f) s x f.d 1 (fun l =>
      let r := cmpOp f.ty f.cond f.ftz (src (.cmpRi f) s x .A f.a f.w l) (fImm f.ty f.imm)
      (r.1.toNat, r.2))) ∧
  (∀ f s x, f.ty.isFloat = true → ready (.cmpm f) s x = true → inside s x = true →
    ComputesF (.cmpm f) s x f.d 1 (fun l =>
      let r := fun k => cmpOp f.ty f.cond f.ftz (src (.cmpm f) s x .A f.a f.w k) (src (.cmpm f) s x .B f.b f.w k)
      (maskWhere (cxOf (.cmpm f) s x).act (fun k => (r k).1), (r l).2))) ∧
  (∀ f s x, f.ty.isFloat = true → ready (.cmpmRi f) s x = true → inside s x = true →
    ComputesF (.cmpmRi f) s x f.d 1 (fun l =>
      let r := fun k => cmpOp f.ty f.cond f.ftz (src (.cmpmRi f) s x .A f.a f.w k) (fImm f.ty f.imm)
      (maskWhere (cxOf (.cmpmRi f) s x).act (fun k => (r k).1), (r l).2)))

/-- R147: the float comparison, and the instructions that make it. -/
def Sys2Proof.Rule.FloatCompares : Prop := Sys2Proof.Rule.FloatCompareTest ∧ Sys2Proof.Rule.FloatCompareInstructions

/-- R118, R147: integer and float compares. -/
def Obligations.Compares : Prop := Sys2Proof.Rule.IntegerCompares ∧ Sys2Proof.Rule.FloatCompares

/-! ## Float instructions (file 05) -/

/-- R124, R127: what the bits of a format stand for. -/
def Sys2Proof.Rule.FloatFormats : Prop :=
  ∀ F ∈ formats, ∀ (neg : Bool) (ex fr : Nat) (ftz : Bool), ex < 2 ^ F.eb → fr < 2 ^ F.fb →
    let x := (if neg then 2 ^ (F.eb + F.fb) else 0) + ex * 2 ^ F.fb + fr
    let s : ℚ := if neg then -1 else 1
    if ex = 2 ^ F.eb - 1 then F.val ftz x = (if fr = 0 then .inf neg else .nan)
    else if ex = 0 then
      ∃ m, F.val ftz x = .fin neg m (1 - F.bias - F.fb) ∧
        num (F.val ftz x) = (if ftz then 0 else s * fr * 2 ^ (1 - (F.bias : Int) - F.fb))
    else ∃ m e, F.val ftz x = .fin neg m e ∧
      num (F.val ftz x) = s * (1 + (fr : ℚ) / 2 ^ F.fb) * 2 ^ ((ex : Int) - F.bias)

namespace Sys2Proof.Rule
/-- The finite values of a format. -/
def isValue (F : Fmt) (z : ℚ) : Prop := ∃ x n m e, x < 2 ^ F.width ∧ F.val false x = .fin n m e ∧ num (.fin n m e) = z

/-- y is q rounded by a mode among the finite values of a format (R128, R52), y having the bits b. -/
def roundsTo (F : Fmt) (mode : Rnd) (q y : ℚ) (b : Nat) : Prop :=
  match mode with
  | .rz => |y| ≤ |q| ∧ ∀ z, isValue F z → |z| ≤ |q| → |z| ≤ |y|
  | .rp => q ≤ y ∧ ∀ z, isValue F z → q ≤ z → y ≤ z
  | .rm => y ≤ q ∧ ∀ z, isValue F z → z ≤ q → z ≤ y
  | _ => ∀ z, isValue F z → |y - q| ≤ |z - q| ∧ (|y - q| = |z - q| → z ≠ y → b % 2 = 0)
end Sys2Proof.Rule

namespace Sys2Proof.Rule
/-- The mode rounds a number of this sign away from zero. -/
def away (mode : Rnd) (n : Bool) : Prop := (mode = .rp ∧ n = false) ∨ (mode = .rm ∧ n = true)
/-- The magnitude from which on a result overflows: rounded as if the exponent had no bound, it exceeds the largest finite value (R128). -/
def beyond (F : Fmt) (mode : Rnd) (n : Bool) (a : ℝ) : Prop :=
  (mode = .rn ∧ 2 ^ F.bias * (2 - 2 ^ (-(F.fb : Int) - 1)) ≤ a) ∨ (away mode n ∧ 2 ^ F.bias * (2 - 2 ^ (-(F.fb : Int))) < a) ∨
    (mode ≠ .rn ∧ ¬ away mode n ∧ 2 ^ (F.bias + 1) ≤ a)
end Sys2Proof.Rule

/-- R128, R130: a finite result of `Fmt.round` is the exact value rounded by the mode, with the sign of the exact value,
and NX tells whether the two differ; a result overflows where the exact value, rounded, exceeds the finite values, and has the value of the
table of R128 then, with OF and NX. -/
def Obligations.CorrectRounding : Prop :=
  ∀ F ∈ formats, ∀ mode ∈ [Rnd.rn, Rnd.rz, Rnd.rp, Rnd.rm], ∀ (neg : Bool) (m : Nat) (e : Int), 0 < m →
    let q := num (.fin neg m e)
    let r := F.round mode false neg m e false
    (r.2 / fOF % 2 = 1 ↔ beyond F mode neg |(q : ℝ)|) ∧
    (r.2 / fOF % 2 = 0 → ∃ m' e', F.val false r.1 = .fin neg m' e' ∧
      roundsTo F mode q (num (.fin neg m' e')) r.1 ∧
      (r.2 / fNX % 2 = 1 ↔ num (.fin neg m' e') ≠ q)) ∧
    (r.2 / fOF % 2 = 1 → r.2 = fOF + fNX ∧ (∀ z, isValue F z → |z| < |q|) ∧
      r.1 = (if mode = .rn ∨ (mode = .rp ∧ neg = false) ∨ (mode = .rm ∧ neg = true) then F.withSign neg F.infBits
        else F.withSign neg F.maxBits))

/-- R137: sums and products of finite operands are exact before they are rounded, and a sum of operands of opposite sign
that is zero is +0 except toward −∞. -/
def Sys2Proof.Rule.ExactSumsAndProducts : Prop :=
  ∀ (mode : Rnd) (n n' : Bool) (m m' : Nat) (e e' : Int),
    num (sumFV mode [.fin n m e, .fin n' m' e']).1 = num (.fin n m e) + num (.fin n' m' e') ∧
    num (mulFV (.fin n m e) (.fin n' m' e')).1 = num (.fin n m e) * num (.fin n' m' e') ∧
    (mulFV (.fin n m e) (.fin n' m' e')).1.neg = (n != n') ∧
    (n ≠ n' → num (.fin n m e) + num (.fin n' m' e') = 0 →
      (sumFV mode [.fin n m e, .fin n' m' e']).1.neg = (mode == .rm))

/-- R124 to R128, R137: what the bits of the float formats stand for, and exact sums and products of them. -/
def Obligations.FloatValues : Prop := Sys2Proof.Rule.FloatFormats ∧ Sys2Proof.Rule.ExactSumsAndProducts

namespace Sys2Proof.Rule
/-- The mode of a float instruction: RND, or DRND of `fpctl` (R128, R129). -/
def rmode (s : State) (x : Sel) (r : Rnd) : Rnd := modeOf (s.wave x.wk).fpctl r

/-- A float instruction of two sources, element by element. -/
def FAB (mk : FltR → Instr) (op : FltR → Rnd → FV → FV → Nat × Nat) : Prop :=
  ∀ f s x, ready (mk f) s x = true → inside s x = true →
    ComputesF (mk f) s x f.d f.w (fun l => eachElem f.ty (fun i => op f (rmode s x f.rnd)
      (read f.ty f.ftz (src (mk f) s x .A f.a f.w l) i) (read f.ty f.ftz (src (mk f) s x .B f.b f.w l) i)))
def FAImm (mk : FltI → Instr) (op : FltI → Rnd → FV → FV → Nat × Nat) : Prop :=
  ∀ f s x, ready (mk f) s x = true → inside s x = true →
    ComputesF (mk f) s x f.d f.w (fun l => eachElem f.ty (fun i => op f (rmode s x f.rnd)
      (read f.ty f.ftz (src (mk f) s x .A f.a f.w l) i) (read f.ty f.ftz (fImm f.ty f.imm) i)))
/-- A float instruction of one source; a faithful one picks one of two neighbours by a choice of its own (R140, R142). -/
def FA (mk : FltR → Instr) (op : FltR → Rnd → Bool → FV → Nat × Nat) : Prop :=
  ∀ f s x, ready (mk f) s x = true → inside s x = true →
    ComputesF (mk f) s x f.d f.w (fun l => eachElem f.ty (fun i => op f (rmode s x f.rnd) (Config.choice s.tick (2 * l + i))
      (read f.ty f.ftz (src (mk f) s x .A f.a f.w l) i)))
/-- A float instruction that works on bits and raises no flag. -/
def FBits (mk : FltR → Instr) (op : FltR → Nat → Nat → Nat → Nat) : Prop :=
  ∀ f s x, ready (mk f) s x = true → inside s x = true →
    ComputesF (mk f) s x f.d f.w (fun l => eachElem f.ty (fun i => (op f (elem f.ty (src (mk f) s x .A f.a f.w l) i)
      (elem f.ty (src (mk f) s x .B f.b f.w l) i) (elem f.ty (src (mk f) s x .C f.c f.w l) i), 0)))
end Sys2Proof.Rule

/-- R137: addition, subtraction, multiplication and fused multiply-add. What the operations give is said by
`CorrectRounding`, `ExactSumsAndProducts` and `FloatInvalid`. -/
def Sys2Proof.Rule.FloatArithmeticInstructions : Prop :=
  FAB .fadd (fun f m a b => (fmtOf f.ty).fin m f.ftz f.sat (sumFV m [a, b])) ∧
  FAImm .faddRi (fun f m a b => (fmtOf f.ty).fin m f.ftz f.sat (sumFV m [a, b])) ∧
  FAB .fsub (fun f m a b => (fmtOf f.ty).fin m f.ftz f.sat (sumFV m [a, b.flip])) ∧
  FAImm .fsubRi (fun f m a b => (fmtOf f.ty).fin m f.ftz f.sat (sumFV m [a, b.flip])) ∧
  FAB .fmul (fun f m a b => (fmtOf f.ty).fin m f.ftz f.sat (mulFV a b)) ∧
  FAImm .fmulRi (fun f m a b => (fmtOf f.ty).fin m f.ftz f.sat (mulFV a b)) ∧
  (∀ f s x, ready (.ffma f) s x = true → inside s x = true →
    ComputesF (.ffma f) s x f.d f.w (fun l => eachElem f.ty (fun i =>
      ffmaOp f.ty f.ftz f.sat (rmode s x f.rnd) (read f.ty f.ftz (src (.ffma f) s x .A f.a f.w l) i)
        (read f.ty f.ftz (src (.ffma f) s x .B f.b f.w l) i) (read f.ty f.ftz (src (.ffma f) s x .C f.c f.w l) i)))) ∧
  (∀ f s x, ready (.fdot2 f) s x = true → inside s x = true →
    ComputesF (.fdot2 f) s x f.d 1 (fun l => fdot2Op f.ty (rmode s x f.rnd) f.ftz f.sat
      (src (.fdot2 f) s x .A f.a 1 l) (src (.fdot2 f) s x .B f.b 1 l) (src (.fdot2 f) s x .C f.c 1 l)))

/-- R137, R146: the product of `ffma` and the products of `fdot2` are exact, their sum with C is exact, and the result is rounded once. A sum
that is zero keeps the sign that all its terms have, and is +0 otherwise, −0 toward −∞. -/
def Sys2Proof.Rule.FusedSums : Prop :=
  (∀ (t : Ty) (ftz sat : Bool) (m : Rnd) (n n' n'' : Bool) (k k' k'' : Nat) (e e' e'' : Int),
    let a := FV.fin n k e
    let b := FV.fin n' k' e'
    let c := FV.fin n'' k'' e''
    ∃ v j d, ffmaOp t ftz sat m a b c = (fmtOf t).fin m ftz sat (.fin v j d, 0) ∧ num (.fin v j d) = num a * num b + num c ∧
      (j = 0 → v = (if (n != n') = n'' then n'' else m == .rm))) ∧
  (∀ (t : Ty) (ftz sat : Bool) (m : Rnd) (a b c : Nat), t = .f16x2 ∨ t = .bf16x2 →
    let A := fun i => read t ftz a i
    let B := fun i => read t ftz b i
    let C := F32.val ftz (c % 2 ^ 32)
    let fine := fun v : FV => v.isNan = false ∧ v.isInf = false
    ((∃ i < 2, (A i).isZero = true ∧ (B i).isInf = true ∨ (A i).isInf = true ∧ (B i).isZero = true) →
      fdot2Op t m ftz sat a b c = F32.fin m ftz sat (.nan, fNV)) ∧
    ((∀ i < 2, fine (A i) ∧ fine (B i)) → fine C →
      ∃ v j d, fdot2Op t m ftz sat a b c = F32.fin m ftz sat (.fin v j d, 0) ∧
        num (.fin v j d) = num (A 0) * num (B 0) + num (A 1) * num (B 1) + num C ∧
        (j = 0 → v = (if ((A 0).neg != (B 0).neg) = C.neg ∧ ((A 1).neg != (B 1).neg) = C.neg then C.neg else m == .rm))) ∧
    ((∀ i < 2, fine (A i) ∧ fine (B i)) → ∀ n, C = .inf n → fdot2Op t m ftz sat a b c = F32.fin m ftz sat (.inf n, 0)) ∧
    ((∀ i < 2, fine (A i) ∧ fine (B i)) → C = .nan → fdot2Op t m ftz sat a b c = F32.fin m ftz sat (.nan, 0)))

/-- R126, R135, R137: NaN operands give the canonical NaN and no flag; ∞ − ∞ and 0 × ∞ give it with NV, `ffma` even where C is a
NaN; with SAT a NaN gives +0. -/
def Sys2Proof.Rule.FloatInvalid : Prop :=
  ∀ (t : Ty) (ftz : Bool) (m : Rnd) (v : FV) (n : Bool) (e : Int), t ∈ [Ty.f64, .f32, .f16, .bf16] →
    let F := fmtOf t
    faddOp t ftz false m .nan v = (F.nanBits, 0) ∧ faddOp t ftz false m v .nan = (F.nanBits, 0) ∧
    faddOp t ftz true m .nan v = (0, 0) ∧
    faddOp t ftz false m (.inf n) (.inf !n) = (F.nanBits, fNV) ∧
    fmulOp t ftz false m (.inf n) (.fin false 0 e) = (F.nanBits, fNV) ∧
    fmulOp t ftz false m (.fin false 0 e) (.inf n) = (F.nanBits, fNV) ∧
    ffmaOp t ftz false m (.fin false 0 e) (.inf n) v = (F.nanBits, fNV) ∧
    ffmaOp t ftz false m (.inf n) (.fin false 0 e) .nan = (F.nanBits, fNV)

/-- R127, R128, R130, R135: how an exact value becomes a result, with the flags that its computation raised before. A finite one is rounded;
with FTZ a nonzero result below the smallest normal becomes a zero of its sign with UF and NX; UF says without FTZ that the result is inexact
and would be tiny with an unbounded exponent range after rounding; SAT clamps to +0.0 … 1.0 and changes no flag. -/
def Sys2Proof.Rule.FloatFinishing : Prop :=
  ∀ F ∈ formats, ∀ mode ∈ [Rnd.rn, Rnd.rz, Rnd.rp, Rnd.rm], ∀ (n ftz : Bool) (m : Nat) (e : Int) (fl : Nat),
    (∀ sat, F.fin mode ftz sat (.nan, fl) = (if sat then 0 else F.nanBits, fl) ∧
      F.fin mode ftz sat (.fin n 0 e, fl) = (if sat then 0 else F.withSign n 0, fl) ∧
      F.fin mode ftz sat (.inf n, fl) = (if sat then (if n then 0 else F.oneBits) else F.withSign n F.infBits, fl)) ∧
    (0 < m →
      let q := |num (.fin n m e)|
      let r := F.round mode false n m e false
      let s := F.fin mode ftz false (.fin n m e, fl)
      let t := F.fin mode ftz true (.fin n m e, fl)
      let flushed := ftz = true ∧ 0 < r.1 % 2 ^ (F.eb + F.fb) ∧ r.1 % 2 ^ (F.eb + F.fb) < 2 ^ F.fb
      let low : ℚ := 2 ^ (1 - (F.bias : Int))
      let away := (mode = .rp ∧ n = false) ∨ (mode = .rm ∧ n = true)
      let tiny := (mode = .rn ∧ q < low - 2 ^ (-1 - (F.bias : Int) - F.fb)) ∨ (away ∧ q ≤ low - 2 ^ (-(F.bias : Int) - F.fb)) ∨
        (mode ≠ .rn ∧ ¬ away ∧ q < low)
      let v := F.val false s.1
      (¬ flushed → s = (r.1, Nat.lor r.2 fl)) ∧ (flushed → s = (F.withSign n 0, Nat.lor (fUF + fNX) fl)) ∧
      (r.2 / fUF % 2 = 1 ↔ r.2 / fNX % 2 = 1 ∧ tiny) ∧
      t.2 = s.2 ∧ (n = true → t.1 = 0) ∧ (n = false → v = .inf false ∨ 1 < num v → t.1 = F.oneBits) ∧
      (n = false → v ≠ .inf false → num v ≤ 1 → t.1 = s.1))

/-- R126 to R128, R130 to R137, R146: float arithmetic, its results and flags, and its invalid operations. -/
def Obligations.FloatArithmetic : Prop :=
  Sys2Proof.Rule.FloatArithmeticInstructions ∧ Sys2Proof.Rule.FloatFinishing ∧ Sys2Proof.Rule.FusedSums ∧ Sys2Proof.Rule.FloatInvalid

namespace Sys2Proof.Rule
/-- The bits of an operand as read: with FTZ a denormal is a zero of its sign (R127). -/
def readBits (F : Fmt) (ftz : Bool) (x : Nat) : Nat :=
  if ftz ∧ x / 2 ^ F.fb % 2 ^ F.eb = 0 then x / 2 ^ (F.eb + F.fb) * 2 ^ (F.eb + F.fb) else x
/-- x stands below y for `fmin` and `fmax` (R138): by value, −0 below +0. -/
def under (F : Fmt) (ftz : Bool) (x y : Nat) : Prop :=
  below (F.val ftz x) (F.val ftz y) ∨
    (num (F.val ftz x) = 0 ∧ num (F.val ftz y) = 0 ∧ (F.val ftz x).isInf = false ∧ (F.val ftz y).isInf = false ∧
      x / 2 ^ (F.eb + F.fb) % 2 = 1 ∧ y / 2 ^ (F.eb + F.fb) % 2 = 0)
end Sys2Proof.Rule

/-- R138: the choice that `fmin` (low) and `fmax` make. -/
def Sys2Proof.Rule.MinMaxRule : Prop :=
  ∀ F ∈ formats, ∀ (ftz low : Bool) (x y : Nat), x < 2 ^ F.width → y < 2 ^ F.width →
    let a := F.val ftz x
    let b := F.val ftz y
    (a = .nan → b = .nan → minmax F ftz low x y = F.nanBits) ∧
    (a = .nan → b ≠ .nan → minmax F ftz low x y = readBits F ftz y) ∧
    (a ≠ .nan → b = .nan → minmax F ftz low x y = readBits F ftz x) ∧
    (a ≠ .nan → b ≠ .nan → (if low then under F ftz y x else under F ftz x y) → minmax F ftz low x y = readBits F ftz y) ∧
    (a ≠ .nan → b ≠ .nan → ¬ (if low then under F ftz y x else under F ftz x y) → minmax F ftz low x y = readBits F ftz x)

/-- R138, R139: least and greatest operand, and the signs. -/
def Sys2Proof.Rule.FloatOrderInstructions : Prop :=
  FBits .fmin (fun f a b _ => minmax (fmtOf f.ty) f.ftz true a b) ∧
  FBits .fmax (fun f a b _ => minmax (fmtOf f.ty) f.ftz false a b) ∧
  (∀ f s x, ready (.fminRi f) s x = true → inside s x = true →
    ComputesF (.fminRi f) s x f.d f.w (fun l => eachElem f.ty (fun i =>
      (minmax (fmtOf f.ty) f.ftz true (elem f.ty (src (.fminRi f) s x .A f.a f.w l) i) (elem f.ty (fImm f.ty f.imm) i), 0)))) ∧
  (∀ f s x, ready (.fmaxRi f) s x = true → inside s x = true →
    ComputesF (.fmaxRi f) s x f.d f.w (fun l => eachElem f.ty (fun i =>
      (minmax (fmtOf f.ty) f.ftz false (elem f.ty (src (.fmaxRi f) s x .A f.a f.w l) i) (elem f.ty (fImm f.ty f.imm) i), 0)))) ∧
  FBits .fclamp (fun f a b c => minmax (fmtOf f.ty) f.ftz true (minmax (fmtOf f.ty) f.ftz false a b) c) ∧
  FBits .fabs (fun f a _ _ => a % 2 ^ ((fmtOf f.ty).width - 1)) ∧
  FBits .fneg (fun f a _ _ => Nat.xor a (2 ^ ((fmtOf f.ty).width - 1))) ∧
  FBits .fcsgn (fun f a b _ => a % 2 ^ ((fmtOf f.ty).width - 1) + b / 2 ^ ((fmtOf f.ty).width - 1) * 2 ^ ((fmtOf f.ty).width - 1))

/-- R138, R139: float minimum and maximum, and the sign instructions. -/
def Obligations.FloatOrderAndSigns : Prop := Sys2Proof.Rule.MinMaxRule ∧ Sys2Proof.Rule.FloatOrderInstructions

/-- R140 to R145: quotients, roots, elementary functions, integral values, exponents and classes. What the operations
give at the special operands is said by `FloatSpecialCases`. -/
def Sys2Proof.Rule.FloatFunctionInstructions : Prop :=
  FAB .fdiv (fun f m a b => fdivOp f.ty f.ftz f.sat m a b) ∧
  FA .fsqrt (fun f m _ a => fsqrtOp f.ty f.ftz f.sat m false a) ∧
  FA .frcp (fun f m _ a => fdivOp f.ty f.ftz f.sat m (.fin false 1 0) a) ∧
  FA .frsq (fun f m c a => frsqOp f.ty f.ftz m c a) ∧
  FA .fex2 (fun f m _ a => fex2Op f.ty f.ftz f.sat m false a) ∧
  FA .flg2 (fun f m _ a => flg2Op f.ty f.ftz m false a) ∧
  FA .fsin (fun f m c a => trigOp f.ty f.ftz true m c a) ∧
  FA .fcos (fun f m c a => trigOp f.ty f.ftz false m c a) ∧
  FA .ftanh (fun f m c a => ftanhOp f.ty f.ftz f.sat m c a) ∧
  FA .ffloor (fun f _ _ a => integralOp f.ty .rm a) ∧
  FA .fceil (fun f _ _ a => integralOp f.ty .rp a) ∧
  FA .ftrunc (fun f _ _ a => integralOp f.ty .rz a) ∧
  FA .frint (fun f m _ a => integralOp f.ty m a) ∧
  FA .ffrac (fun f m c a => ffracOp f.ty m c a) ∧
  (∀ f s x, ready (.fscale f) s x = true → inside s x = true →
    ComputesF (.fscale f) s x f.d f.w (fun l => fscaleOp (fmtOf f.ty) (rmode s x f.rnd) f.ftz f.sat
      (read f.ty f.ftz (src (.fscale f) s x .A f.a f.w l) 0)
      (BitVec.ofNat 32 (src (.fscale f) s x .B f.b 1 l)).toInt)) ∧
  (∀ f s x, ready (.fgetexp f) s x = true → inside s x = true →
    ComputesF (.fgetexp f) s x f.d 1 (fun l => (fgetexpOp (read f.ty f.ftz (src (.fgetexp f) s x .A f.a f.w l) 0), 0))) ∧
  (∀ f s x, ready (.fclass f) s x = true → inside s x = true →
    ComputesF (.fclass f) s x f.d 1 (fun l => (fclassOp (fmtOf f.ty) (elem f.ty (src (.fclass f) s x .A f.a f.w l) 0), 0)))

/-- The tables of R140 to R142, R144 and R145: the results and flags at zeros, infinities, NaNs and negative operands. -/
def Sys2Proof.Rule.FloatSpecialCases : Prop :=
  ∀ (t : Ty) (ftz : Bool) (m : Rnd) (c n n' : Bool) (k k' : Nat) (e e' : Int),
    t ∈ [Ty.f64, .f32, .f16, .bf16] → 0 < k →
    let F := fmtOf t
    let z := fun n => FV.fin n 0 e
    (fdivOp t ftz false m (z n) (z n') = (F.nanBits, fNV) ∧
      fdivOp t ftz false m (.fin n k e) (z n') = (F.withSign (n != n') F.infBits, fDZ) ∧
      fdivOp t ftz false m (.inf n) (.inf n') = (F.nanBits, fNV) ∧
      fdivOp t ftz false m (.inf n) (.fin n' k' e') = (F.withSign (n != n') F.infBits, 0) ∧
      fdivOp t ftz false m (.fin n k' e') (.inf n') = (F.withSign (n != n') 0, 0) ∧
      fdivOp t ftz false m .nan (.fin n k e) = (F.nanBits, 0)) ∧
    (fsqrtOp t ftz false m c (z n) = (F.withSign n 0, 0) ∧ fsqrtOp t ftz false m c (.inf false) = (F.infBits, 0) ∧
      fsqrtOp t ftz false m c (.fin true k e) = (F.nanBits, fNV) ∧ fsqrtOp t ftz false m c (.inf true) = (F.nanBits, fNV) ∧
      fsqrtOp t ftz false m c .nan = (F.nanBits, 0)) ∧
    (frsqOp t ftz m c (z n) = (F.withSign n F.infBits, fDZ) ∧ frsqOp t ftz m c (.inf false) = (0, 0) ∧
      frsqOp t ftz m c (.fin true k e) = (F.nanBits, fNV) ∧ frsqOp t ftz m c .nan = (F.nanBits, 0)) ∧
    (fex2Op t ftz false m c (.inf true) = (0, 0) ∧ fex2Op t ftz false m c (z n) = (F.oneBits, 0) ∧
      fex2Op t ftz false m c (.inf false) = (F.infBits, 0) ∧ fex2Op t ftz false m c .nan = (F.nanBits, 0)) ∧
    (flg2Op t ftz m c (.inf true) = (F.nanBits, fNV) ∧ flg2Op t ftz m c (z n) = (F.withSign true F.infBits, fDZ) ∧
      flg2Op t ftz m c (.inf false) = (F.infBits, 0) ∧ flg2Op t ftz m c (.fin true k e) = (F.nanBits, fNV) ∧
      flg2Op t ftz m c .nan = (F.nanBits, 0)) ∧
    (trigOp t ftz true m c (z n) = (F.withSign n 0, 0) ∧ trigOp t ftz false m c (z n) = (F.oneBits, 0) ∧
      (∀ sine, trigOp t ftz sine m c (.inf n) = (F.nanBits, fNV) ∧ trigOp t ftz sine m c .nan = (F.nanBits, 0)) ∧
      ftanhOp t ftz false m c (z n) = (F.withSign n 0, 0) ∧ ftanhOp t ftz false m c (.inf n) = (F.withSign n F.oneBits, 0) ∧
      ftanhOp t ftz false m c .nan = (F.nanBits, 0)) ∧
    (fgetexpOp (z n) = 0x80000000 ∧ fgetexpOp (.inf n) = 0x7FFFFFFF ∧ fgetexpOp .nan = 0x80000001)

namespace Sys2Proof.Rule
/-- A result is tiny: rounded as if the exponent had no bound, it lies below the smallest normal (R128). -/
def tiny (F : Fmt) (mode : Rnd) (n : Bool) (a : ℝ) : Prop :=
  let low : ℝ := 2 ^ (1 - (F.bias : Int))
  (mode = .rn ∧ a < low - 2 ^ (-1 - (F.bias : Int) - F.fb)) ∨ (away mode n ∧ a ≤ low - 2 ^ (-(F.bias : Int) - F.fb)) ∨
    (mode ≠ .rn ∧ ¬ away mode n ∧ a < low)

/-- v, of the bits b, is the magnitude a rounded among the magnitudes of a format (R128, R52). -/
def nearest (F : Fmt) (mode : Rnd) (n : Bool) (a : ℝ) (v : ℚ) (b : Nat) : Prop :=
  (mode = .rn → ∀ z : ℚ, isValue F z → |(v : ℝ) - a| ≤ |(z : ℝ) - a| ∧ (|(v : ℝ) - a| = |(z : ℝ) - a| → z ≠ v → b % 2 = 0)) ∧
  (away mode n → a ≤ v ∧ ∀ z : ℚ, isValue F z → a ≤ z → v ≤ z) ∧
  (mode ≠ .rn → ¬ away mode n → (v : ℝ) ≤ a ∧ ∀ z : ℚ, isValue F z → (z : ℝ) ≤ a → z ≤ v)

open Classical in
/-- The bits and flags r are a number of sign n and magnitude a, correctly rounded once (R127, R128, R130). -/
def Rounded (F : Fmt) (mode : Rnd) (ftz n : Bool) (a : ℝ) (r : Nat × Nat) : Prop :=
  (beyond F mode n a → r = (if mode = .rn ∨ away mode n then F.withSign n F.infBits else F.withSign n F.maxBits, fOF + fNX)) ∧
  (¬ beyond F mode n a → ∃ b k e, F.val false b = .fin n k e ∧ nearest F mode n a (num (.fin false k e)) b ∧
    r = (if ftz = true ∧ 0 < num (.fin false k e) ∧ num (.fin false k e) < 2 ^ (1 - (F.bias : Int)) then (F.withSign n 0, fUF + fNX)
      else (b, if (num (.fin false k e) : ℝ) = a then 0 else fNX + (if tiny F mode n a then fUF else 0))))

/-- Either neighbour of an inexact number (R140, R142): rounded toward zero, or away from it. -/
def Faithful (F : Fmt) (ftz n : Bool) (a : ℝ) (r : Nat × Nat) : Prop :=
  Rounded F .rz ftz n a r ∨ Rounded F (if n then .rm else .rp) ftz n a r

/-- The integer that a mode rounds a number to (R143, R149). -/
def IntegralOf (m : Rnd) (q : ℚ) (v : Int) : Prop :=
  match m with
  | .rz => v = (if q < 0 then ⌈q⌉ else ⌊q⌋)
  | .rp => v = ⌈q⌉
  | .rm => v = ⌊q⌋
  | _ => |(v : ℚ) - q| ≤ 1 / 2 ∧ (|(v : ℚ) - q| = 1 / 2 → v % 2 = 0)

/-- What SAT makes of a result (R135). -/
def Saturates (F : Fmt) (r t : Nat × Nat) : Prop :=
  t.2 = r.2 ∧ match F.val false r.1 with
    | .nan => t.1 = 0
    | .inf n => t.1 = (if n then 0 else F.oneBits)
    | .fin n k e => t.1 = (if n then 0 else if 1 < num (.fin n k e) then F.oneBits else r.1)
end Sys2Proof.Rule

/-- R140: quotients and roots of finite operands. -/
def Sys2Proof.Rule.FloatQuotients : Prop :=
  ∀ (t : Ty) (ftz n n' c : Bool) (k k' : Nat) (e e' : Int), t ∈ [Ty.f64, .f32, .f16, .bf16] → ∀ m ∈ [Rnd.rn, .rz, .rp, .rm], 0 < k →
    let F := fmtOf t
    fdivOp t ftz false m (.fin n 0 e') (.fin n' k e) = (F.withSign (n != n') 0, 0) ∧
    (∀ v, fdivOp t ftz false m v .nan = (F.nanBits, 0) ∧ fdivOp t ftz false m .nan v = (F.nanBits, 0)) ∧
    (0 < k' → Rounded F m ftz (n != n') |(num (.fin n k e) / num (.fin n' k' e') : ℚ)| (fdivOp t ftz false m (.fin n k e) (.fin n' k' e'))) ∧
    Rounded F m ftz false (Real.sqrt (num (.fin false k e))) (fsqrtOp t ftz false m c (.fin false k e)) ∧
    Faithful F ftz false (1 / Real.sqrt (num (.fin false k e))) (frsqOp t ftz m c (.fin false k e)) ∧
    (frsqOp t ftz m c (.inf true) = (F.nanBits, fNV)) ∧
    (∀ a b, Saturates F (fdivOp t ftz false m a b) (fdivOp t ftz true m a b)) ∧
    (∀ a, Saturates F (fsqrtOp t ftz false m c a) (fsqrtOp t ftz true m c a) ∧ Saturates F (fex2Op t ftz false m c a) (fex2Op t ftz true m c a) ∧
      Saturates F (ftanhOp t ftz false m c a) (ftanhOp t ftz true m c a) ∧
      ∀ z, Saturates F (fscaleOp F m ftz false a z) (fscaleOp F m ftz true a z))

/-- R141, R142: powers of two of integers and logarithms of powers of two are exact before they are rounded; every other result is inexact;
`fsin` and `ftanh` are odd and `fcos` is even; and values of the functions that were computed apart from the model, each correctly rounded,
or with its two neighbours where the result is faithful. -/
def Sys2Proof.Rule.ElementaryFunctions : Prop :=
  (∀ (t : Ty) (ftz n c : Bool) (k : Nat) (e : Int), t ∈ [Ty.f32, .f16] → ∀ m ∈ [Rnd.rn, .rz, .rp, .rm],
    let F := fmtOf t
    (∀ z : Int, num (.fin n k e) = z → fex2Op t ftz false m c (.fin n k e) = F.enc m ftz (.fin false 1 z)) ∧
    (∀ j : Nat, k = 2 ^ j → flg2Op t ftz m c (.fin false k e) = F.enc m ftz (.fin (decide (e + j < 0)) (e + j).natAbs 0))) ∧
  (∀ (t : Ty) (ftz c : Bool) (x k : Nat) (n : Bool) (e : Int), t ∈ [Ty.f32, .f16, .bf16] → ∀ m ∈ [Rnd.rn, .rz, .rp, .rm], x < 2 ^ (fmtOf t).width →
    (fmtOf t).val ftz x = .fin n k e → 0 < k →
    let F := fmtOf t
    let a := FV.fin n k e
    ((∀ z : Int, num a ≠ z) → (fex2Op t ftz false m c a).2 / fNX % 2 = 1) ∧
    (n = false → (∀ j : Nat, k ≠ 2 ^ j) → (flg2Op t ftz m c a).2 / fNX % 2 = 1) ∧
    (∀ sine, (trigOp t ftz sine m c a).2 / fNX % 2 = 1) ∧ (ftanhOp t ftz false m c a).2 / fNX % 2 = 1 ∧
    trigOp t ftz true m c (.fin (!n) k e) = (Nat.xor (trigOp t ftz true m c a).1 F.signBit, (trigOp t ftz true m c a).2) ∧
    trigOp t ftz false m c (.fin (!n) k e) = trigOp t ftz false m c a ∧
    ftanhOp t ftz false m c (.fin (!n) k e) = (Nat.xor (ftanhOp t ftz false m c a).1 F.signBit, (ftanhOp t ftz false m c a).2)) ∧
  (([(0x3F000000, 0x3FB504F3), (0xBFA00000, 0x3ED744FD)].all (fun p => fex2Op .f32 false false .rn false (F32.val false p.1) == (p.2, fNX)) = true) ∧
    [(0x40400000, 0x3FCAE00D), (0x3DD00000, 0xC0532BFF)].all (fun p => flg2Op .f32 false .rn false (F32.val false p.1) == (p.2, fNX)) = true ∧
    fex2Op .f16 false false .rn false (F16.val false 0x3800) = (0x3DA8, fNX) ∧ flg2Op .f16 false .rn false (F16.val false 0x4900) = (0x42A5, fNX) ∧
    (∀ c : Bool,
      [(0x3F800000, 0x3F576AA4), (0x40400000, 0x3E1081C3), (0xC1200000, 0x3F0B44F7), (0x3F000000, 0x3EF57743)].all (fun p =>
        trigOp .f32 false true .rn c (F32.val false p.1) == (p.2 + c.toNat, fNX)) = true ∧
      [(0x3F800000, 0x3F0A5140), (0x40400000, 0xBF7D7025), (0xC1200000, 0xBF56CD64), (0x3F000000, 0x3F60A940)].all (fun p =>
        trigOp .f32 false false .rn c (F32.val false p.1) == (p.2 + c.toNat, fNX)) = true ∧
      [(0x3F800000, 0x3F42F7D5), (0xBE800000, 0xBE7ACBF5)].all (fun p => ftanhOp .f32 false false .rn c (F32.val false p.1) == (p.2 + c.toNat, fNX)) = true ∧
      ftanhOp .bf16 false false .rn c (BF16.val false 0x3F80) = (0x3F42 + c.toNat, fNX)))

/-- R143 to R145: integral values, fractions, scaled values, exponents and classes. -/
def Sys2Proof.Rule.FloatParts : Prop :=
  (∀ (t : Ty) (ftz c : Bool) (x : Nat) (m : Rnd), t ∈ [Ty.f64, .f32, .f16, .bf16] → m ∈ [Rnd.rn, .rz, .rp, .rm] → x < 2 ^ (fmtOf t).width →
    let F := fmtOf t
    let a := F.val ftz x
    (a = .nan → integralOp t m a = (F.nanBits, 0) ∧ ffracOp t m c a = (F.nanBits, 0)) ∧
    (∀ n, a = .inf n → integralOp t m a = (F.withSign n F.infBits, 0) ∧ ffracOp t m c a = (F.nanBits, fNV)) ∧
    (∀ n k e, a = .fin n k e →
      (∃ v : Int, IntegralOf m (num a) v ∧ (integralOp t m a).2 = 0 ∧
        ∃ k' e', F.val false (integralOp t m a).1 = .fin n k' e' ∧ num (.fin n k' e') = v) ∧
      (num a = ⌊num a⌋ → ffracOp t m c a = (0, 0)) ∧
      (num a ≠ ⌊num a⌋ → ∃ y, Rounded F .rn false false ((num a - ⌊num a⌋ : ℚ) : ℝ) y ∧
        ffracOp t m c a = (if y.1 = F.oneBits then (F.oneBits - 1, y.2) else y)))) ∧
  (∀ F ∈ formats, ∀ (m : Rnd) (ftz sat n : Bool) (k : Nat) (e z : Int),
    fscaleOp F m ftz sat (.fin n k e) z = F.fin m ftz sat (.fin n k (e + z), 0) ∧
    fscaleOp F m ftz sat (.inf n) z = F.fin m ftz sat (.inf n, 0) ∧ fscaleOp F m ftz sat .nan z = F.fin m ftz sat (.nan, 0) ∧
    (0 < k → ∃ j : Int, (2 : ℚ) ^ j ≤ |num (.fin n k e)| ∧ |num (.fin n k e)| < 2 ^ (j + 1) ∧ fgetexpOp (.fin n k e) = (BitVec.ofInt 32 j).toNat)) ∧
  (∀ F ∈ formats, ∀ (n : Bool) (ex fr : Nat), ex < 2 ^ F.eb → fr < 2 ^ F.fb →
    fclassOp F (F.withSign n (ex * 2 ^ F.fb + fr)) =
      if ex = 2 ^ F.eb - 1 then (if fr ≠ 0 then 2 ^ 8 else if n then 2 ^ 0 else 2 ^ 7)
      else if ex ≠ 0 then (if n then 2 ^ 1 else 2 ^ 6)
      else if fr ≠ 0 then (if n then 2 ^ 2 else 2 ^ 5)
      else if n then 2 ^ 3 else 2 ^ 4)

/-- R140 to R145: float functions, their special cases and their finite results. -/
def Obligations.FloatFunctions : Prop :=
  Sys2Proof.Rule.FloatFunctionInstructions ∧ Sys2Proof.Rule.FloatSpecialCases ∧ Sys2Proof.Rule.FloatQuotients ∧
  Sys2Proof.Rule.ElementaryFunctions ∧ Sys2Proof.Rule.FloatParts

/-- R148 to R151: conversions. -/
def Sys2Proof.Rule.ConversionInstructions : Prop :=
  (∀ f s x, ready (.cvt f) s x = true → inside s x = true →
    ComputesF (.cvt f) s x f.d f.dty.regs (fun l => cvtOp f (rmode s x f.rnd) (src (.cvt f) s x .A f.a f.sty.regs l))) ∧
  (∀ f s x, ready (.fpack f) s x = true → inside s x = true →
    ComputesF (.fpack f) s x f.d 1 (fun l =>
      let e0 := toFlt (fmtOf f.dty) (rmode s x f.rnd) f.sat (F32.val false (src (.fpack f) s x .A f.a 1 l))
      let e1 := toFlt (fmtOf f.dty) (rmode s x f.rnd) f.sat (F32.val false (src (.fpack f) s x .B f.b 1 l))
      (e0.1 + 2 ^ 16 * e1.1, Nat.lor e0.2 e1.2))) ∧
  (∀ f s x, ready (.fsplit f) s x = true → inside s x = true →
    ComputesF (.fsplit f) s x f.d 2 (fun l =>
      let a := src (.fsplit f) s x .A f.a 1 l
      ((F32.enc .rn false ((fmtOf f.sty).val false (a % 2 ^ 16))).1
        + 2 ^ 32 * (F32.enc .rn false ((fmtOf f.sty).val false (a / 2 ^ 16 % 2 ^ 16))).1, 0)))

/-- R149: a float rounded to an integer, saturated with SAT and wrapped without, and its flags. -/
def Sys2Proof.Rule.FloatToInteger : Prop :=
  ∀ (t : Ty) (m : Rnd) (n : Bool) (k : Nat) (e : Int), t.isInt = true →
    let lo : Int := if t.signed then -(2 ^ (t.elem - 1)) else 0
    let hi : Int := if t.signed then 2 ^ (t.elem - 1) - 1 else 2 ^ t.elem - 1
    let put : Int → Nat := fun v => Put (if t.elem = 64 then .n64 else .n32)
      (if t.signed then (BitVec.ofInt t.elem v).toInt else (BitVec.ofInt t.elem v).toNat)
    let q := num (.fin n k e)
    ∃ v : Int, IntegralOf m q v ∧
      (lo ≤ v → v ≤ hi → ∀ sat, toInt t m sat (.fin n k e) = (put v, if (v : ℚ) = q then 0 else fNX)) ∧
      (v < lo → toInt t m true (.fin n k e) = (put lo, fNV)) ∧
      (hi < v → toInt t m true (.fin n k e) = (put hi, fNV)) ∧
      (v < lo ∨ hi < v → toInt t m false (.fin n k e) = (put v, fNV)) ∧
      toInt t m false (.inf n) = (0, fNV) ∧ toInt t m true (.inf n) = (put (if n then lo else hi), fNV) ∧
      (∀ sat, toInt t m sat .nan = (0, fNV))

namespace Sys2Proof.Rule
/-- The integer that a source of an integer type stands for: the low bits of its register under the type (R148). -/
def intRead (t : Ty) (a : Nat) : Int :=
  if t.signed then (BitVec.ofNat t.elem a).toInt else ((BitVec.ofNat t.elem a).toNat : Int)
/-- An integer destination: its low bits, extended under the type to its registers (R148). -/
def intWrite (t : Ty) (v : Int) : Nat :=
  Put (if t.elem = 64 then .n64 else .n32) (if t.signed then (BitVec.ofInt t.elem v).toInt else ((BitVec.ofInt t.elem v).toNat : Int))
def intLow (t : Ty) : Int := if t.signed then -(2 ^ (t.elem - 1)) else 0
def intHigh (t : Ty) : Int := if t.signed then 2 ^ (t.elem - 1) - 1 else 2 ^ t.elem - 1
/-- A value converted to a float format (R150): rounded once, and with SAT the largest finite value of its sign where the result is
infinite. -/
def toFormat (F : Fmt) (m : Rnd) (sat : Bool) (v : FV) : Nat × Nat :=
  let r := F.fin m false false (v, 0)
  match F.val false r.1 with
  | .inf n => (if sat then F.withSign n F.maxBits else r.1, r.2)
  | _ => r
end Sys2Proof.Rule

/-- R148 to R151: the value that `cvt` gives for each pair of types, what `fpack` makes of each of its sources, and that `fsplit` widens exactly. -/
def Sys2Proof.Rule.ConversionValues : Prop :=
  (∀ (f : CvtR) (m : Rnd) (a : Nat),
    (f.sty.isInt = true → f.dty.isInt = true → cvtOp f m a =
      (intWrite f.dty (if intLow f.dty ≤ intRead f.sty a ∧ intRead f.sty a ≤ intHigh f.dty then intRead f.sty a
        else if f.sat then (if intRead f.sty a < intLow f.dty then intLow f.dty else intHigh f.dty) else intRead f.sty a), 0)) ∧
    (f.sty.isInt = true → f.dty.isInt = false → ∀ z : Int, z = intRead f.sty a →
      cvtOp f m a = toFormat (fmtOf f.dty) m f.sat (.fin (decide (z < 0)) z.natAbs 0)) ∧
    (f.sty.isInt = false → f.dty.isInt = true → cvtOp f m a = toInt f.dty m f.sat ((fmtOf f.sty).val false (a % 2 ^ (fmtOf f.sty).width))) ∧
    (f.sty.isInt = false → f.dty.isInt = false →
      cvtOp f m a = toFormat (fmtOf f.dty) m f.sat ((fmtOf f.sty).val false (a % 2 ^ (fmtOf f.sty).width)))) ∧
  (∀ (F : Fmt) (m : Rnd) (sat : Bool) (v : FV), toFlt F m sat v = toFormat F m sat v) ∧
  (∀ F ∈ [F16, BF16], ∀ x < 2 ^ 16,
    let r := F32.enc .rn false (F.val false x)
    r.2 = 0 ∧ match F.val false x with
      | .nan => r.1 = F32.nanBits
      | .inf n => F32.val false r.1 = .inf n
      | .fin n k e => ∃ k' e', F32.val false r.1 = .fin n k' e' ∧ num (.fin n k' e') = num (.fin n k e))

/-- R148 to R151: conversions, and the values that they give. -/
def Obligations.Conversions : Prop :=
  Sys2Proof.Rule.ConversionInstructions ∧ Sys2Proof.Rule.ConversionValues ∧ Sys2Proof.Rule.FloatToInteger

/-! ## Lane instructions (file 06) -/

namespace Sys2Proof.Rule
/-- OPN of R153 over the values of the lanes, in their order. -/
def combine (t : Ty) (opn : Nat) (vals : List Nat) : Nat :=
  match opn with
  | 0 => vals.sum % 2 ^ 32
  | 1 => Put t ((vals.map (I t)).foldl min (Hi t))
  | 2 => Put t ((vals.map (I t)).foldl max (Lo t))
  | 3 => (vals.foldl (fun a v => a &&& BitVec.ofNat 32 v) (BitVec.allOnes 32)).toNat
  | 4 => (vals.foldl (fun a v => a ||| BitVec.ofNat 32 v) 0).toNat
  | _ => (vals.foldl (fun a v => a ^^^ BitVec.ofNat 32 v) 0).toNat

/-- The source lane of R154 for lane l with its b. -/
def fromLane (mode l b : Nat) : Int :=
  match mode with
  | 0 => (b % 32 : Nat)
  | 1 => (l : Int) + (BitVec.ofNat 32 b).toInt
  | 2 => ((l + b) % 32 : Nat)
  | _ => (Nat.xor l (b % 32) : Nat)

/-- The exchange of R154. -/
def exchanged (act : List Nat) (a : Nat → Nat) (mode l b : Nat) : Nat :=
  if 0 ≤ fromLane mode l b ∧ fromLane mode l b ≤ 31 ∧ (fromLane mode l b).toNat ∈ act then a (fromLane mode l b).toNat else a l

/-- The vote of R155. -/
def voted (kind : Nat) (act : List Nat) (a : Nat → Nat) : Nat :=
  match kind with
  | 0 => maskWhere act (fun l => (a l).testBit 0)
  | 1 => if ∃ l ∈ act, (a l).testBit 0 = true then 1 else 0
  | 2 => if ∀ l ∈ act, (a l).testBit 0 = true then 1 else 0
  | _ => if ∀ l ∈ act, ∀ k ∈ act, a l = a k then 1 else 0

/-- A lane that `rdlane` and `wrlane` may name, where the lowest active lane is F: in a tail one of its lane set (R185), in tail mode one
of those that `baton` took with F (log entry 69), and otherwise any lane. -/
def inTail (s : State) (x : Sel) (F k : Nat) : Bool :=
  let d := (s.wave x.wk).div
  if x.main then (s.run x).mask &&& d.tmode == 0 || (FMap.get d.tmode d.tsets F).getLsbD k
  else (s.tail x.tk).lanes.getLsbD k
end Sys2Proof.Rule

/-- R154, R155, R158: exchange, vote, match and election over the active lanes. -/
def Obligations.LaneExchangeAndVotes : Prop :=
  (∀ f s x, ready (.lxch f) s x = true → inside s x = true →
    Computes (.lxch f) s x f.d f.w (fun l => exchanged (cxOf (.lxch f) s x).act (src (.lxch f) s x .A f.a f.w) (f.sub.toNat % 4) l
      (src (.lxch f) s x .B f.b 1 l))) ∧
  (∀ f s x, ready (.lxchRi f) s x = true → inside s x = true →
    Computes (.lxchRi f) s x f.d f.w (fun l => exchanged (cxOf (.lxchRi f) s x).act (src (.lxchRi f) s x .A f.a f.w)
      (f.sub.toNat % 4) l f.imm.toNat)) ∧
  (∀ f s x, ready (.vote f) s x = true → inside s x = true →
    Computes (.vote f) s x f.d 1 (fun _ => voted (f.sub.toNat % 4) (cxOf (.vote f) s x).act (src (.vote f) s x .A f.a f.w))) ∧
  (∀ f s x, ready (.lmatch f) s x = true → inside s x = true →
    Computes (.lmatch f) s x f.d 1 (fun l => maskWhere (cxOf (.lmatch f) s x).act (fun k =>
      src (.lmatch f) s x .A f.a f.w k == src (.lmatch f) s x .A f.a f.w l))) ∧
  (∀ f s x, ready (.elect f) s x = true → inside s x = true →
    Computes (.elect f) s x f.d 1 (fun l => if ∀ k ∈ (cxOf (.elect f) s x).act, l ≤ k then 1 else 0))

/-- R156, R157: reductions and prefixes over the active lanes in ascending order. That `.min` and `.max` of floats pass over a NaN while
there is a number is log entry 71; `lscan` has no float type. -/
def Sys2Proof.Rule.LaneReductions : Prop :=
  (∀ f s x, f.ty ≠ .f32 → ready (.lred f) s x = true → inside s x = true →
    Computes (.lred f) s x f.d 1 (fun _ =>
      combine f.ty (f.sub.toNat % 8) ((cxOf (.lred f) s x).act.map (src (.lred f) s x .A f.a 1)))) ∧
  (∀ f s x, f.ty = .f32 → f.sub.toNat % 8 = 0 → ready (.lred f) s x = true → inside s x = true →
    ComputesF (.lred f) s x f.d 1 (fun _ => F32.fin .rn false false
      (sumFV .rn ((cxOf (.lred f) s x).act.map (fun l => F32.val false (src (.lred f) s x .A f.a 1 l)))))) ∧
  (∀ f s x, f.ty = .f32 → f.sub.toNat % 8 ≠ 0 → ready (.lred f) s x = true → inside s x = true →
    ∃ v, ComputesF (.lred f) s x f.d 1 (fun _ => (v, 0)) ∧
      ((∀ l ∈ (cxOf (.lred f) s x).act, F32.val false (src (.lred f) s x .A f.a 1 l) = .nan) → v = F32.nanBits) ∧
      ((∃ l ∈ (cxOf (.lred f) s x).act, F32.val false (src (.lred f) s x .A f.a 1 l) ≠ .nan) →
        ∃ l ∈ (cxOf (.lred f) s x).act, v = src (.lred f) s x .A f.a 1 l ∧ F32.val false v ≠ .nan) ∧
      (∀ l ∈ (cxOf (.lred f) s x).act, F32.val false (src (.lred f) s x .A f.a 1 l) ≠ .nan →
        (f.sub.toNat % 8 = 1 → ¬ under F32 false (src (.lred f) s x .A f.a 1 l) v) ∧
        (f.sub.toNat % 8 = 2 → ¬ under F32 false v (src (.lred f) s x .A f.a 1 l)))) ∧
  (∀ f s x, ready (.lscan f) s x = true → inside s x = true →
    Computes (.lscan f) s x f.d 1 (fun l =>
      combine f.ty (f.sub.toNat % 8) (((cxOf (.lscan f) s x).act.filter (fun k =>
        if f.sub.getLsbD 3 then k < l else k ≤ l)).map (src (.lscan f) s x .A f.a 1))))

/-- R159, R185: `rdlane` gives every active lane the value of lane s, whatever its state, and for a lane that a tail may not name
the value of the lowest active lane; `wrlane` writes lane s alone, and only if it is active. What an inactive lane of a
queue operand reads is a free value (log entry 13), and the lanes of tail mode are those of log entry 69. -/
def Sys2Proof.Rule.OneLane : Prop :=
  (∀ f s x, ready (.rdlane f) s x = true → inside s x = true →
    let cx := cxOf (.rdlane f) s x
    let k := src (.rdlane f) s x .B f.b 1 cx.F % 32
    let k' := if inTail s x cx.F k then k else cx.F
    ∃ v, Computes (.rdlane f) s x f.d f.w (fun _ => v) ∧
      ((∀ q, f.a ≠ .q q) ∨ k' ∈ cx.act → v = src (.rdlane f) s x .A f.a f.w k')) ∧
  (∀ f s x, ready (.rdlaneRi f) s x = true → inside s x = true →
    let cx := cxOf (.rdlaneRi f) s x
    let k := f.imm.toNat % 32
    let k' := if inTail s x cx.F k then k else cx.F
    ∃ v, Computes (.rdlaneRi f) s x f.d f.w (fun _ => v) ∧
      ((∀ q, f.a ≠ .q q) ∨ k' ∈ cx.act → v = src (.rdlaneRi f) s x .A f.a f.w k')) ∧
  (∀ f s x, ready (.wrlane f) s x = true → inside s x = true →
    let cx := cxOf (.wrlane f) s x
    let k := src (.wrlane f) s x .B f.b 1 cx.F % 32
    let ls := if k ∈ cx.act ∧ inTail s x cx.F k = true then [k] else []
    ∃ t, exec (.wrlane f) s = .next t ∧ Gets cx f.d f.w ls (fun _ => src (.wrlane f) s x .A f.a f.w cx.F) s t ∧
      RegsKept x (destCodes f.d f.w) ls s t ∧ FlagsKept x s t ∧ AluFrame x s t ∧ GoesOn x s t ∧
      QueuesKept (.wrlane f) x f.d s t)

/-- R156 to R160: reductions and scans over lanes, and the instructions that single lanes out. -/
def Obligations.LaneReductions : Prop := Sys2Proof.Rule.LaneReductions ∧ Sys2Proof.Rule.OneLane

/-! ## Control (file 06) -/

/-- R166, R176: `nop`, `lpad` and `sleep 0` have no effect but to let the wave go on; `sleep n` blocks its context until
the watch counter of the die has advanced by n, and changes nothing else. -/
def Sys2Proof.Rule.NoEffect : Prop :=
  (∀ f s x, ready (.nop f) s x = true → inside s x = true → OnlyAdvances (.nop f) s x) ∧
  (∀ f s x, ready (.lpad f) s x = true → inside s x = true → OnlyAdvances (.lpad f) s x) ∧
  (∀ f s x, f.imm16 = 0 → ready (.sleep f) s x = true → inside s x = true → OnlyAdvances (.sleep f) s x) ∧
  (∀ f s x, f.imm16 ≠ 0 → ready (.sleep f) s x = true → inside s x = true →
    ∃ t, exec (.sleep f) s = .next t ∧ (t.ctx x).sleep = some (((s.die x.die).watch.toNat + f.imm16) % 2 ^ 64) ∧
      RegsKept x [] [] s t ∧ FlagsKept x s t ∧ AluFrame x s (t.modCtx x (fun c => { c with sleep := (s.ctx x).sleep })) ∧
      GoesOn x s t ∧ QueuesKept (.sleep f) x .none s t)

/-- R175, R249, R255: `trap n` and `brk n` stop the whole wave with `TRAP` and `BRK` and the number n: the record holds the
PC of the instruction and the active lanes, no lane completes, and no other effect takes place. -/
def Sys2Proof.Rule.TrapInstructions : Prop :=
  (∀ f s x, ready (.trap f) s x = true →
    ∃ t, exec (.trap f) s = .next t ∧ StoppedAs x t
      { cause := 0x13, number := .ofNat 16 f.imm.toNat, pc := (s.run x).pc, mask := (cxOf (.trap f) s x).mask } ∧
      t.stack x = s.stack x ∧ RegsKept x [] [] s t ∧ FlagsKept x s t ∧ t.mem = s.mem ∧ (∀ k, k ≠ x.wk → t.wave k = s.wave k) ∧
      t.cores = s.cores) ∧
  (∀ f s x, ready (.brk f) s x = true →
    ∃ t, exec (.brk f) s = .next t ∧ StoppedAs x t
      { cause := 0x12, number := .ofNat 16 f.imm.toNat, pc := (s.run x).pc, mask := (cxOf (.brk f) s x).mask } ∧
      t.stack x = s.stack x ∧ RegsKept x [] [] s t ∧ FlagsKept x s t ∧ t.mem = s.mem ∧ (∀ k, k ≠ x.wk → t.wave k = s.wave k) ∧
      t.cores = s.cores)

/-- R166, R175, R176, R249, R255: instructions with no effect of their own, sleep, and the trap instructions. -/
def Obligations.TrapsAndSleep : Prop := Sys2Proof.Rule.NoEffect ∧ Sys2Proof.Rule.TrapInstructions

namespace Sys2Proof.Rule
/-- The lanes that take a branch (R163): active, bit 0 of the condition and NEG differing. -/
def taken (i : Instr) (f : BrF) (s : State) (x : Sel) : List Nat :=
  (cxOf i s x).act.filter (fun l => (src i s x .A f.a 1 l).testBit 0 != f.mod.getLsbD 0)

/-- The branch target of a displacement is a place to go: inside the address space, and marked as a target (R37, R38). -/
def lands (s : State) (x : Sel) (disp : Int) (pc : Addr) : Prop :=
  target (s.run x).pc disp = some pc ∧ s.checkTarget x pc none = none

/-- A branch moves the divergence state to l and changes nothing else. -/
def Branches (i : Instr) (s : State) (x : Sel) (l : List DivEntry) : Prop :=
  ∃ t, exec i s = .next t ∧ RegsKept x [] [] s t ∧ FlagsKept x s t ∧ AluFrame x s t ∧ Moves x s t l ∧ QueuesKept i x .none s t

/-- The whole RUN entry goes to a PC: its BBC counts a backward branch (R89, R161). -/
def wholeTo (s : State) (x : Sel) (pc : Addr) : List DivEntry :=
  countBack (s.run x).pc pc (({ s.run x with pc := pc } : DivEntry) :: (s.stack x).tail)

/-- The next slot, as the rules of a split name it. -/
def nextSlot (s : State) (x : Sel) : Addr := (nextPc (s.run x).pc).getD (s.run x).pc
end Sys2Proof.Rule

/-- R162 to R164, R161: where the lanes of `br`, `brc`, `brany` and `brall` go. A partly taken branch leaves the not-taken lanes on
top, then the taken ones, and the JOIN below them where one is named. -/
def Sys2Proof.Rule.Branches4 : Prop :=
  (∀ f s x pc, ready (.br f) s x = true → inside s x = true → lands s x f.disp.toInt pc →
    let cx := cxOf (.br f) s x
    Branches (.br f) s x (if cx.idle = 0 then wholeTo s x pc
      else pendE (nextSlot s x) (s.run x).depth cx.idle :: pendE pc (s.run x).depth cx.mask :: (s.stack x).tail)) ∧
  (∀ f s x, taken (.brc f) f s x = [] → ready (.brc f) s x = true → inside s x = true → OnlyAdvances (.brc f) s x) ∧
  (∀ f s x pc, taken (.brc f) f s x ≠ [] → ready (.brc f) s x = true → inside s x = true → lands s x f.disp.toInt pc →
    let T := maskOf (taken (.brc f) f s x)
    let N := (s.run x).mask &&& ~~~T
    (N = 0 → Branches (.brc f) s x (wholeTo s x pc)) ∧
    (N ≠ 0 → f.join = 0 → Branches (.brc f) s x
      (pendE (nextSlot s x) (s.run x).depth N :: pendE pc (s.run x).depth T :: (s.stack x).tail)) ∧
    (∀ j, N ≠ 0 → f.join ≠ 0 → target (s.run x).pc f.join.toInt = some j → Branches (.brc f) s x
      (pendE (nextSlot s x) (s.run x).depth N :: pendE pc (s.run x).depth T
        :: joinE j (s.run x).depth (s.run x).mask :: (s.stack x).tail))) ∧
  (∀ f s x, taken (.brany f) f s x = [] → ready (.brany f) s x = true → inside s x = true → OnlyAdvances (.brany f) s x) ∧
  (∀ f s x pc, taken (.brany f) f s x ≠ [] → ready (.brany f) s x = true → lands s x f.disp.toInt pc →
    Branches (.brany f) s x (wholeTo s x pc)) ∧
  (∀ f s x, (∃ l ∈ (cxOf (.brall f) s x).act, l ∉ taken (.brall f) f s x) → ready (.brall f) s x = true → inside s x = true →
    OnlyAdvances (.brall f) s x) ∧
  (∀ f s x pc, (∀ l ∈ (cxOf (.brall f) s x).act, l ∈ taken (.brall f) f s x) → ready (.brall f) s x = true →
    lands s x f.disp.toInt pc → Branches (.brall f) s x (wholeTo s x pc))

namespace Sys2Proof.Rule
/-- The check of a target (R38, R166), in its order: the form of the PC, the line, its parity, the TGT bit, and for a table the `lpad`
with its label. -/
def targetCheck (s : State) (x : Sel) (dst : Option Addr) (label : Option Nat) : Option Fail :=
  match dst with
  | none => some (2, none)
  | some pc =>
    if pc.toNat / 8 % 8 ≠ 0 ∨ 5 ≤ pc.toNat % 8 then some (2, none)
    else match s.line x (pc.toNat / 64 * 64) with
      | .error c => some (c, some (.ofNat 57 (pc.toNat / 64 * 64)))
      | .ok l =>
        if !lwpOk l then some (0x20, none)
        else if !tgtOf l (pc.toNat % 8) then some (2, none)
        else
          let w := slotBits l (pc.toNat % 8)
          if ∀ lab, label = some lab → bits w 95 86 = 0x189 ∧ bits w 37 22 = lab then none else some (9, none)

/-- The instruction takes effect in no lane (R161): the wave stops with the lowest cause that an active lane raises, told of the
lanes that raise it; parity stops every active lane. -/
def Turned (i : Instr) (s : State) (x : Sel) (fail : Nat → Option Fail) : Prop :=
  ∀ c ∈ (cxOf i s x).act.filterMap fail, (∀ d ∈ (cxOf i s x).act.filterMap fail, c.1 ≤ d.1) →
    let ls := (cxOf i s x).act.filter (fun l => (fail l).any (fun d => d.1 == c.1))
    ∃ t, exec i s = .next t ∧
      StoppedAs x t (if c.1 = 0x20 then { cause := 0x20, pc := (s.run x).pc, mask := (cxOf i s x).mask } else
        { cause := c.1, pc := (s.run x).pc, mask := maskOf ls
          faddr := ls.filterMap (fun l => (fail l).bind (fun d => d.2.map (fun a => (l, a)))) }) ∧
      t.stack x = s.stack x ∧ (∀ l, (t.wave x.wk).ret l = (s.wave x.wk).ret l) ∧ RegsKept x [] [] s t ∧ FlagsKept x s t
end Sys2Proof.Rule

/-- R37, R38, R161 to R164: a branch that would transfer lanes to a target outside the address space, or one that the checks refuse, takes
effect in no lane, and the lanes that would transfer raise the cause; so they do where a split names no join inside the address space. -/
def Sys2Proof.Rule.BadBranchTarget : Prop :=
  (∀ f s x, ready (.br f) s x = true →
    Turned (.br f) s x (fun _ => targetCheck s x (target (s.run x).pc f.disp.toInt) none)) ∧
  (∀ f s x, ready (.brc f) s x = true →
    let N := (s.run x).mask &&& ~~~(maskOf (taken (.brc f) f s x))
    Turned (.brc f) s x (fun l => if l ∈ taken (.brc f) f s x then
      (targetCheck s x (target (s.run x).pc f.disp.toInt) none).orElse (fun _ =>
        if N ≠ 0 ∧ f.join ≠ 0 ∧ target (s.run x).pc f.join.toInt = none then some (2, none) else none) else none)) ∧
  (∀ f s x, ready (.brany f) s x = true → taken (.brany f) f s x ≠ [] →
    Turned (.brany f) s x (fun _ => targetCheck s x (target (s.run x).pc f.disp.toInt) none)) ∧
  (∀ f s x, ready (.brall f) s x = true → (∀ l ∈ (cxOf (.brall f) s x).act, l ∈ taken (.brall f) f s x) →
    Turned (.brall f) s x (fun _ => targetCheck s x (target (s.run x).pc f.disp.toInt) none))

/-- R89: what a transfer of the whole RUN entry does to BBC. A branch forward, or without a PEND entry, is not counted; the 64th that is
counted makes the topmost PEND entry RUN, and the former RUN entry PEND below it. -/
def Sys2Proof.Rule.BackwardBranches : Prop :=
  (∀ frm dst l, (slotIndex frm < slotIndex dst ∨ ∀ p ∈ l, p.kind ≠ 1) → countBack frm dst l = l) ∧
  (∀ frm dst e r, slotIndex dst ≤ slotIndex frm → (∃ p ∈ r, p.kind = 1) → e.bbc ≠ 63 →
    countBack frm dst (e :: r) = { e with bbc := e.bbc + 1 } :: r) ∧
  (∀ frm dst e a p b, slotIndex dst ≤ slotIndex frm → p.kind = 1 → (∀ q ∈ a, q.kind ≠ 1) → e.bbc = 63 →
    countBack frm dst (e :: (a ++ p :: b)) = { p with kind := 0, bbc := 0 } :: { e with kind := 1, bbc := 0 } :: (a ++ b))

/-- R37, R38, R89, R161 to R164: where the lanes of a branch go, when a loop gives way to a waiting group, and what a bad target comes
to. -/
def Obligations.Branching : Prop :=
  Sys2Proof.Rule.Branches4 ∧ Sys2Proof.Rule.BadBranchTarget ∧ Sys2Proof.Rule.BackwardBranches

/-- R87: the settled divergence state is one that the loop leaves alone, and settling loses no lane and gains none. -/
def Obligations.Settling : Prop :=
  ∀ (tm : Mask) (l : List DivEntry),
    settleStep tm (settle tm l) = none ∧
    liveMask (settle tm l) = liveMask l

namespace Sys2Proof.Rule
/-- Targets by lane, lowest first, each with its lanes (R168, R172, R173). -/
def targets (l : List (Nat × Addr)) : List (Addr × Mask) := groupBy l

/-- The stack of R168, R172, R173: one target and no lane left behind moves the RUN entry, anything else splits it. -/
def grouped (s : State) (x : Sel) (join : Option Addr) (stay : Mask) (depth : Half) (count : Bool) (l : List (Nat × Addr)) :
    List DivEntry :=
  match stay == 0, groupBy l with
  | true, [(t, _)] =>
    let l' := ({ s.run x with pc := t, depth := depth } : DivEntry) :: (s.stack x).tail
    if count then countBack (s.run x).pc t l' else l'
  | _, gs => split (s.run x) join ((nextSlot s x, (s.run x).depth, stay) :: gs.map (fun g => (g.1, depth, g.2))) (s.stack x).tail
end Sys2Proof.Rule

/-- The context has no store of its own to the table entries outstanding. -/
def Sys2Proof.Rule.tableClear (i : Instr) (f : XF) (s : State) (x : Sel) : Prop :=
  Clear x s ((s.tablePlaces (cxOf i s x) f).map (fun p => (Place.late (.glob p.2), 8)))

/-- R165 to R168: `jtab` whose lanes all find a target goes there, lowest target first, the inactive lanes before them. -/
def Sys2Proof.Rule.TableJumps : Prop :=
  ∀ f s x (pc : Nat → Addr), ready (.jtab f) s x = true → inside s x = true →
    let cx := cxOf (.jtab f) s x
    (∀ l ∈ cx.act, s.tableEntry cx f l = .goes (pc l)) →
    let ts := cx.act.map (fun l => (l, pc l))
    let one := cx.idle == 0 && (groupBy ts).length == 1
    let jd := (BitVec.ofNat 18 f.join18).toInt
    (jd = 0 ∨ one = true → ∃ t, exec (.jtab f) s = .next t ∧ (tableClear (.jtab f) f s x → FlowFrame x s t) ∧
      Moves x s t (grouped s x none cx.idle (s.run x).depth true ts)) ∧
    (∀ j, jd ≠ 0 → one = false → target (s.run x).pc jd = some j → ∃ t, exec (.jtab f) s = .next t ∧
      (tableClear (.jtab f) f s x → FlowFrame x s t) ∧
      Moves x s t (grouped s x (some j) cx.idle (s.run x).depth true ts))

namespace Sys2Proof.Rule
/-- R165, R167: what lane l of a table instruction finds, in the order of the checks; the entry is the word that its context would load. -/
def tableCheck (i : Instr) (f : XF) (s : State) (x : Sel) (l : Nat) : Option Fail :=
  let idx := src i s x .A f.a 1 l
  let base := src i s x .B f.b 2 l
  let a := base + 8 * idx
  if f.bound ≤ idx then some (8, none)
  else if 2 ^ 57 < a + 8 then some (6, some (.ofNat 57 a))
  else if base % 8 ≠ 0 then some (5, some (.ofNat 57 a))
  else match s.locate (s.agent x) a 8 .rd with
    | .cause c => some (c, some (.ofNat 57 a))
    | .nonres => some (7, some (.ofNat 57 a))
    | .at_ loc =>
      let e := (s.inOrder x [(Place.late (.glob loc), 8)]).readLoc (s.agent x) loc 8
      if 2 ^ 57 ≤ e then some (2, none) else targetCheck s x (some (.ofNat 57 e)) (some f.label)
end Sys2Proof.Rule

/-- R165 to R167, R161: a lane of `jtab` that finds no target stops the instruction in every lane, and so does a join that several groups
need and that lies outside the address space. Where some lane fails a check, whether a join is needed is log entry 71, and nothing
is said here of a join outside the address space. -/
def Sys2Proof.Rule.TableCauses : Prop :=
  (∀ i f (s : State) x l, match s.tableEntry (cxOf i s x) f l with
    | .fail c => tableCheck i f s x l = some c
    | .goes _ => tableCheck i f s x l = none) ∧
  (∀ f s x, ready (.jtab f) s x = true →
    let jd := (BitVec.ofNat 18 f.join18).toInt
    (jd = 0 ∨ (target (s.run x).pc jd).isSome = true) → Turned (.jtab f) s x (tableCheck (.jtab f) f s x)) ∧
  (∀ f s x (pc : Nat → Addr), ready (.jtab f) s x = true →
    let cx := cxOf (.jtab f) s x
    (∀ l ∈ cx.act, s.tableEntry cx f l = .goes (pc l)) →
    let jd := (BitVec.ofNat 18 f.join18).toInt
    jd ≠ 0 → target (s.run x).pc jd = none →
    (cx.idle ≠ 0 ∨ (groupBy (cx.act.map (fun l => (l, pc l)))).length ≠ 1) → Turned (.jtab f) s x (fun _ => some (2, none)))

/-- R161, R165 to R168: a jump through a table, and what stops it. -/
def Obligations.JumpTable : Prop := Sys2Proof.Rule.TableJumps ∧ Sys2Proof.Rule.TableCauses

namespace Sys2Proof.Rule
/-- The lane's return stack has taken an entry (R171): one more in depth, the entry on top. -/
def Pushed (x : Sel) (s t : State) (l : Nat) (e : RetEntry) : Prop :=
  ((t.wave x.wk).ret l).depth = ((s.wave x.wk).ret l).depth + 1 ∧ 0 < ((t.wave x.wk).ret l).oncnt ∧ t.topRet x l = e
/-- The return stacks of the other lanes are as before. -/
def OtherRets (x : Sel) (s t : State) (ls : List Nat) : Prop := ∀ l, l ∉ ls → (t.wave x.wk).ret l = (s.wave x.wk).ret l
/-- Where a lane's stack is not full on chip, nothing is spilled: the scratchpad keeps every byte (R171). -/
def NoSpill (x : Sel) (s t : State) : Prop := (t.core x.ck).scratch = (s.core x.ck).scratch
end Sys2Proof.Rule

/-- R171, R172: `call` pushes the return entry of every active lane and enters its target one level deeper; the lanes that the guard
leaves out wait at the return site. -/
def Sys2Proof.Rule.CallEntries : Prop :=
  (∀ f s x pc, ready (.call f) s x = true → inside s x = true → lands s x f.disp.toInt pc →
    let cx := cxOf (.call f) s x
    (∀ l ∈ cx.act, s.canPush x l = true ∧ ((s.wave x.wk).ret l).oncnt ≤ 4) →
    let e : RetEntry := ⟨nextSlot s x, .ofNat 9 (match f.a with | .v r => r | _ => 0), .ofNat 9 f.fs⟩
    ∃ t, exec (.call f) s = .next t ∧ (∀ l ∈ cx.act, Pushed x s t l e) ∧ OtherRets x s t cx.act ∧ FlowFrame x s t ∧
      ((∀ l ∈ cx.act, ((s.wave x.wk).ret l).oncnt < 4) → NoSpill x s t) ∧
      Moves x s t (if cx.idle = 0 then ({ s.run x with pc := pc, depth := (s.run x).depth + 1 } : DivEntry) :: (s.stack x).tail
        else pendE pc ((s.run x).depth + 1) cx.mask :: joinE (nextSlot s x) (s.run x).depth (s.run x).mask :: (s.stack x).tail)) ∧
  (∀ f s x (pc : Nat → Addr), ready (.callt f) s x = true → inside s x = true →
    let cx := cxOf (.callt f) s x
    (∀ l ∈ cx.act, s.tableEntry cx f l = .goes (pc l) ∧ s.canPush x l = true ∧ ((s.wave x.wk).ret l).oncnt ≤ 4) →
    let e : RetEntry := ⟨nextSlot s x, .ofNat 9 (match f.d with | .v r => r | _ => 0), .ofNat 9 f.fs⟩
    ∃ t, exec (.callt f) s = .next t ∧ (∀ l ∈ cx.act, Pushed x s t l e) ∧ OtherRets x s t cx.act ∧
      (tableClear (.callt f) f s x → FlowFrame x s t ∧
        ((∀ l ∈ cx.act, ((s.wave x.wk).ret l).oncnt < 4) → NoSpill x s t)) ∧
      let ts := cx.act.map (fun l => (l, pc l))
      Moves x s t (match cx.idle == 0, groupBy ts with
        | true, [(p, _)] => ({ s.run x with pc := p, depth := (s.run x).depth + 1 } : DivEntry) :: (s.stack x).tail
        | _, gs => split (s.run x) (some (nextSlot s x)) (gs.map (fun g => (g.1, (s.run x).depth + 1, g.2))) (s.stack x).tail))

/-- R161, R167, R171: a lane whose on-chip entries are full and whose spill area is full too raises `STACK`, after the checks of the
target, and the call takes effect in no lane. -/
def Sys2Proof.Rule.CallCauses : Prop :=
  (∀ f s x, ready (.call f) s x = true →
    Turned (.call f) s x (fun l => (targetCheck s x (target (s.run x).pc f.disp.toInt) none).orElse (fun _ =>
      if s.canPush x l = true then none else some (10, none)))) ∧
  (∀ f s x, ready (.callt f) s x = true →
    Turned (.callt f) s x (fun l => (tableCheck (.callt f) f s x l).orElse (fun _ =>
      if s.canPush x l = true then none else some (10, none)))) ∧
  (∀ (s : State) x l, s.canPush x l = true ↔
    ¬ (((s.wave x.wk).ret l).oncnt = 4 ∧ ((((s.wave x.wk).ret l).spcnt = s.spillCap x) ∨ ((s.wave x.wk).ret l).depth = 65535)))

/-- R161, R165 to R167, R171, R172: calls, and what stops them. -/
def Obligations.Calls : Prop := Sys2Proof.Rule.CallEntries ∧ Sys2Proof.Rule.CallCauses

/-- R173, R174, R186: `ret` of a main context pops an entry in every active lane at a depth above 0, which goes on at its return PC one
level up; a lane at depth 0 is gone from every entry, and so is every active lane of `exit`, and of `ret` in a tail. -/
def Obligations.ReturnsAndExits : Prop :=
  (∀ f s x, x.main = true → ready (.ret f) s x = true → inside s x = true →
    let cx := cxOf (.ret f) s x
    let gone := cx.act.filter (fun l => ((s.wave x.wk).ret l).depth == 0)
    let back := cx.act.filter (fun l => ((s.wave x.wk).ret l).depth != 0)
    ∃ t, exec (.ret f) s = .next t ∧ FlowFrame x s t ∧
      (∀ l ∈ back, ((t.wave x.wk).ret l).depth + 1 = ((s.wave x.wk).ret l).depth) ∧ OtherRets x s t back ∧ NoSpill x s t ∧
      (t.wave x.wk).div.tmode = (s.wave x.wk).div.tmode &&& ~~~(maskOf back) ∧
      t.stack x = settle ((s.wave x.wk).div.tmode &&& ~~~(maskOf back))
        (dropLanes (maskOf gone) (grouped s x none cx.idle ((s.run x).depth - 1) false (back.map (fun l => (l, (s.topRet x l).rpc)))))) ∧
  (∀ f s x, x.main = false → ready (.ret f) s x = true → inside s x = true →
    ∃ t, exec (.ret f) s = .next t ∧ FlowFrame x s t ∧
      Moves x s t (dropLanes (cxOf (.ret f) s x).mask (({ s.run x with pc := nextSlot s x } : DivEntry) :: (s.stack x).tail))) ∧
  (∀ f s x, ready (.exit f) s x = true → inside s x = true →
    ∃ t, exec (.exit f) s = .next t ∧ FlowFrame x s t ∧ NoSpill x s t ∧
      Moves x s t (dropLanes (cxOf (.exit f) s x).mask (({ s.run x with pc := nextSlot s x } : DivEntry) :: (s.stack x).tail)))

/-! ## Memory (file 07) -/

namespace Sys2Proof.Rule
/-- The address of R220 in a lane: BASE of `wide` registers. -/
def addr (i : Instr) (f : MemF) (s : State) (x : Sel) (wide : Nat) (l : Nat) : Int :=
  (src i s x .A f.base wide l : Int) + f.off.toInt +
    (if f.x = .none then 0
      else if f.xsg then (BitVec.ofNat 32 (src i s x .B f.x 1 l)).toInt * 2 ^ f.xsh
      else (src i s x .B f.x 1 l : Int) * 2 ^ f.xsh)

/-- The address of R220 in a lane of an atomic or a future: its index is signed and scaled by the access size. -/
def addrSized (i : Instr) (f : MemF) (s : State) (x : Sel) (wide : Nat) (l : Nat) : Int :=
  (src i s x .A f.base wide l : Int) + f.off.toInt +
    (if f.x = .none then 0 else (BitVec.ofNat 32 (src i s x .B f.x 1 l)).toInt * f.size.bytes)

/-- What a lane's access meets: in global memory, in the scratchpad of the group, in that of a member of its cluster. -/
def globHit (need : Need) (i : Instr) (f : MemF) (s : State) (x : Sel) (l : Nat) : Hit :=
  s.gHit (s.agent x) (addr i f s x 2 l) f.size.bytes need false
def scrHit (i : Instr) (f : MemF) (s : State) (x : Sel) (l : Nat) : Hit := s.sHit x (addr i f s x 1 l) f.size.bytes true true
def cluHit (i : Instr) (f : MemF) (s : State) (x : Sel) (l : Nat) : Hit := s.cHit x (addr i f s x 1 l) f.size.bytes true
def globAtom (need : Need) (i : Instr) (f : MemF) (s : State) (x : Sel) (l : Nat) : Hit :=
  s.gHit (s.agent x) (addrSized i f s x 2 l) f.size.bytes need true
def scrAtom (i : Instr) (f : MemF) (s : State) (x : Sel) (l : Nat) : Hit := s.sHit x (addrSized i f s x 1 l) f.size.bytes false true
def scrCas (i : Instr) (f : MemF) (s : State) (x : Sel) (l : Nat) : Hit := s.sHit x (addrSized i f s x 1 l) f.size.bytes false false
def cluAtom (i : Instr) (f : MemF) (s : State) (x : Sel) (l : Nat) : Hit := s.cHit x (addrSized i f s x 1 l) f.size.bytes false

/-- A value as its register takes it (R54). -/
def extended (z : MSize) (v : Nat) : Nat :=
  match z with
  | .s8 => ((BitVec.ofNat 8 v).signExtend 32).toNat
  | .s16 => ((BitVec.ofNat 16 v).signExtend 32).toNat
  | _ => v

/-- The words that a load writes when it completes (R221, R223): D, and the flag register. -/
def loadWord (f : MemF) (act : List Nat) (hit : Nat → Hit) (get : Place → Nat) (c l : Nat) : Option Word :=
  if l ∉ act then none
  else if f.flag ≠ .none ∧ c = f.flag.code then some (match hit l with | .ok _ => 0 | _ => 1)
  else if f.d.code ≤ c ∧ c < f.d.code + f.size.regs then
    some (.ofNat 32 ((match hit l with | .ok p => extended f.size (get p) | _ => 0) / 2 ^ (32 * (c - f.d.code))))
  else none

/-- The words that a store writes when it completes: the flag register alone. -/
def storeWord (f : MemF) (act : List Nat) (hit : Nat → Hit) (c l : Nat) : Option Word :=
  if l ∈ act ∧ f.flag ≠ .none ∧ c = f.flag.code then some (match hit l with | .ok _ => 0 | _ => 1) else none

/-- Every lane may access, or has a flag register for a page that is not resident. -/
def allPass (flag : Opnd) (act : List Nat) (hit : Nat → Hit) : Prop := ∀ l ∈ act, (hit l).cause flag = none

/-- The home byte of a place in memory: in the old page while a page migrates (R357). -/
def physOf (s : State) : Place → Option Nat
  | .glob (.phys pa) => some (s.canon pa)
  | _ => none
def spOf (ck : Nat) : Place → Option Nat
  | .sp k a => if k = ck then some a else none
  | _ => none
def copyOf (ri : Nat) : Place → Option Nat
  | .glob (.copy r va) => if r = ri then some va else none
  | _ => none

/-- The byte that the writes of n bytes leave at address a of a memory: that of the last of them that covers it. -/
def lastAt (ws : List (Place × Nat)) (at_ : Place → Option Nat) (n a : Nat) : Option Byte :=
  ws.reverse.findSome? (fun w => (at_ w.1).bind (fun b =>
    if b ≤ a ∧ a < b + n then some (.ofNat 8 (w.2 / 2 ^ (8 * (a - b)))) else none))

/-- The access of n bytes at a place touches a physical byte: at home, or forwarded to the new copy of a migrating page. -/
def touches (s : State) (n : Nat) (p : Place) (a : Nat) : Prop :=
  ∃ b i, physOf s p = some b ∧ i < n ∧
    (a = b + i ∨ ∃ g ∈ s.migs, g.old ≤ b + i ∧ b + i < g.old + g.size ∧ a = g.new + (b + i - g.old))

/-- It meets the aligned word of w bytes with number k. -/
def meetsWord (s : State) (n w k : Nat) (p : Place) : Bool :=
  match physOf s p with | some b => decide (b < w * k + w) && decide (w * k < b + n) | none => false

/-- Outside the bytes that accesses of n bytes at these places store to, nothing changes: physical bytes, cells, tags,
scratchpads, carved lines. -/
structure Elsewhere (s t : State) (n : Nat) (ps : List Place) : Prop where
  phys : ∀ a, (∀ p ∈ ps, ¬ touches s n p (s.canon a)) →
    (FMap.get none s.cells (s.canon a / 4) = none ∨ ∀ p ∈ ps, meetsWord s n 4 (s.canon a / 4) p = false) → t.byte a = s.byte a
  cells : ∀ w, (∀ p ∈ ps, meetsWord s n 4 w p = false) → FMap.get none t.cells w = FMap.get none s.cells w
  tags : s.absent = [] → ∀ w, (∀ p ∈ ps, meetsWord s n 8 w p = false) → FMap.get false t.empties w = FMap.get false s.empties w
  scratch : ∀ ck a, (∀ p ∈ ps, ∀ b, spOf ck p = some b → ¬ (b ≤ a ∧ a < b + n)) →
    FMap.get 0 (t.core ck).scratch a = FMap.get 0 (s.core ck).scratch a
  lines : ∀ ri k c, (s.region ri).vbase % 64 = 0 → (s.region ri).lines.find? k = some c →
    (∀ p ∈ ps, ∀ va, copyOf ri p = some va → lineAt (s.region ri) va ≠ k) → (t.region ri).lines.find? k = some c

/-- The writes of n bytes, in their order, and nothing else (R221, R234, R235, R350). -/
structure Stored (s t : State) (n : Nat) (ws : List (Place × Nat)) : Prop where
  phys : ∀ a, FMap.get none s.cells (s.canon a / 4) = none → (∀ g ∈ s.migs, ¬ (g.new ≤ s.canon a ∧ s.canon a < g.new + g.size)) →
    t.byte a = (lastAt ws (physOf s) n (s.canon a)).getD (s.byte a)
  forwarded : ∀ g, s.migs = [g] → g.new + g.size ≤ g.old ∨ g.old + g.size ≤ g.new → ∀ w ∈ ws, ∀ b i, physOf s w.1 = some b → i < n →
    g.old ≤ b + i → b + i < g.old + g.size →
    some (FMap.get memDefault t.mem (g.new + (b + i - g.old))) = lastAt ws (physOf s) n (b + i)
  tags : s.absent = [] → ∀ w, FMap.get false t.empties w = (FMap.get false s.empties w && !ws.any (fun p => meetsWord s n 8 w p.1))
  scratch : ∀ ck a, FMap.get 0 (t.core ck).scratch a = (lastAt ws (spOf ck) n a).getD (FMap.get 0 (s.core ck).scratch a)
  lines : ∀ ri k c, (s.region ri).vbase % 64 = 0 → (s.region ri).lines.find? k = some c →
    ∃ c', (t.region ri).lines.find? k = some c' ∧ ∀ i < 64,
      let va := (s.region ri).vbase + 64 * k + i
      c'.data / 2 ^ (8 * i) % 256 = ((lastAt ws (copyOf ri) n va).getD (.ofNat 8 (c.data / 2 ^ (8 * i)))).toNat ∧
      c'.dirty.testBit i = ((lastAt ws (copyOf ri) n va).isSome || c.dirty.testBit i)
  others : Elsewhere s t n (ws.map Prod.fst)

/-- The writes of the lanes of a store, ascending. -/
def writesOf (act : List Nat) (hit : Nat → Hit) (datum : Nat → Nat) : List (Place × Nat) :=
  act.filterMap (fun l => match hit l with | .ok p => some (p, datum l) | _ => none)
def spots (act : List Nat) (hit : Nat → Hit) : List Place :=
  act.filterMap (fun l => match hit l with | .ok p => some p | _ => none)

/-- No store of the context to what the lanes access is outstanding. -/
def hitsClear (x : Sel) (s : State) (n : Nat) (act : List Nat) (hit : Nat → Hit) : Prop :=
  Clear x s ((spots act hit).map (fun p => (p.late, n)))

/-- Physical words are aligned (R355: pages are). -/
def wordsAligned (act : List Nat) (hit : Nat → Hit) (n : Nat) : Prop :=
  ∀ l ∈ act, ∀ pa, hit l = .ok (.glob (.phys pa)) → pa % n = 0

/-- A load whose lanes all may access: it counts and goes on; where its context has no store to those bytes outstanding, the values
that stand now are under way to D. -/
def Loads (mk : MemF → Instr) (hit : Instr → MemF → State → Sel → Nat → Hit) : Prop :=
  ∀ f s x, ready (mk f) s x = true → inside s x = true → allPass f.flag (cxOf (mk f) s x).act (hit (mk f) f s x) →
    ∃ t, exec (mk f) s = .next t ∧ Counted x s t true ∧ MemFrame (mk f) x s t ∧ GoesOn x s t ∧
      (hitsClear x s f.size.bytes (cxOf (mk f) s x).act (hit (mk f) f s x) →
        Under x s t true (loadWord f (cxOf (mk f) s x).act (hit (mk f) f s x) (fun p => s.readAt (s.agent x) p f.size.bytes)) ∧
        NoStore s t)

/-- A store whose lanes all may access: it counts and goes on. Each of its bytes is written now or later (log entry 73): by the time
that every store of the context is performed, memory holds what the lanes wrote in ascending order, and until then nothing but those bytes changes. -/
def Stores (mk : MemF → Instr) (hit : Instr → MemF → State → Sel → Nat → Hit) : Prop :=
  ∀ f s x, ready (mk f) s x = true → inside s x = true → allPass f.flag (cxOf (mk f) s x).act (hit (mk f) f s x) →
    ∃ t, exec (mk f) s = .next t ∧ Counted x s t false ∧ MemFrame (mk f) x s t ∧ GoesOn x s t ∧
      (Performed x s → Under x s t false (storeWord f (cxOf (mk f) s x).act (hit (mk f) f s x)) ∧
        (Paged s → wordsAligned (cxOf (mk f) s x).act (hit (mk f) f s x) f.size.bytes →
          Elsewhere s t f.size.bytes (spots (cxOf (mk f) s x).act (hit (mk f) f s x)) ∧
          Stored s (t.publish x) f.size.bytes
            (writesOf (cxOf (mk f) s x).act (hit (mk f) f s x) (src (mk f) s x .C f.d f.size.regs))))
end Sys2Proof.Rule

/-- R222: before a context accesses bytes again, what it stored there, or to any scratchpad before a scratchpad access, is performed; and a
publishing act leaves none of its stores outstanding, and every one of other contexts. -/
def Sys2Proof.Rule.OwnStoresInOrder : Prop :=
  (∀ (s : State) x ps, Clear x (s.inOrder x ps) ps) ∧
  (∀ (s : State) x, ((s.publish x).wave x.wk).late = (s.wave x.wk).late.filter (fun e => e.ctx != x.ctx))

/-- R218, R220, R221, R223, R95: loads read each lane's bytes, extend them, and count on `ld`; no byte of memory changes. A lane whose
page is not resident gives 0 and its flag. `pf` has no effect (R225). -/
def Sys2Proof.Rule.LoadInstructions : Prop :=
  Loads .ld (globHit .rd) ∧ Loads .lds scrHit ∧ Loads .ldc cluHit ∧
  (∀ f s x, ready (.pf f) s x = true → inside s x = true → OnlyAdvances (.pf f) s x)

/-- R218, R220, R221, R223, R235: stores leave the bytes of the highest lane that covers each address, set the tags of the words full,
count on `st`, and change no other byte of any memory. -/
def Sys2Proof.Rule.StoreInstructions : Prop := Stores .st (globHit .wr) ∧ Stores .sts scrHit ∧ Stores .stc cluHit

/-- R218 to R223, R225: loads, stores and prefetches. -/
def Obligations.LoadsAndStores : Prop :=
  Sys2Proof.Rule.LoadInstructions ∧ Sys2Proof.Rule.StoreInstructions ∧ Sys2Proof.Rule.OwnStoresInOrder

namespace Sys2Proof.Rule
/-- The access stops in the lanes with the lowest cause, and is performed in every lane without one (R69, R220, R255). -/
def LaneCauses (mk : MemF → Instr) (hit : Instr → MemF → State → Sel → Nat → Hit) (stores : Bool) : Prop :=
  ∀ f s x c, ready (mk f) s x = true →
    let cx := cxOf (mk f) s x
    let cause := fun l => (hit (mk f) f s x l).cause f.flag
    let ok := cx.act.filter (fun l => (cause l).isNone)
    let bad := cx.act.filter (fun l => (cause l).map Prod.fst == some c)
    bad ≠ [] → (∀ l ∈ cx.act, ∀ e, cause l = some e → c ≤ e.1) → c ≠ 13 →
    ∃ t, exec (mk f) s = .next t ∧ StoppedAs x t
        { cause := c, pc := (s.run x).pc, mask := maskOf bad, eff := maskOf ok
          faddr := bad.filterMap (fun l => (cause l).bind (fun e => e.2.map (fun a => (l, a)))) } ∧
      t.stack x = s.stack x ∧ RegsKept x [] [] s t ∧
      ((∀ l ∈ cx.act, (cause l).map Prod.fst ≠ some 7) → Performed x s → Paged s → wordsAligned ok (hit (mk f) f s x) f.size.bytes →
        Stored s (t.publish x) f.size.bytes (if stores then writesOf ok (hit (mk f) f s x) (src (mk f) s x .C f.d f.size.regs) else []))
end Sys2Proof.Rule

/-- R69, R220: lanes that fail a check perform no access and are recorded with the lowest cause and their addresses; the other
lanes complete, and EFFMASK names them. -/
def Sys2Proof.Rule.LaneAccessCauses : Prop :=
  LaneCauses .ld (globHit .rd) false ∧ LaneCauses .lds scrHit false ∧ LaneCauses .ldc cluHit false ∧
  LaneCauses .st (globHit .wr) true ∧ LaneCauses .sts scrHit true ∧ LaneCauses .stc cluHit true

/-- R220 steps 1 and 2: range before alignment: `PROTECT` outside 2^57 bytes, `BOUND` outside the group's scratchpad less its spill
areas or outside the cluster window (R19, R20), then `ALIGN`; FADDR is the address. A group of no cluster launch raises `BOUND`, and so does a
member's spill area (R170, log entry 86). -/
def Sys2Proof.Rule.AddressChecks : Prop :=
  (∀ (s : State) ag (a : Int) (n : Nat) need noHost, (a < 0 ∨ 2 ^ 57 < a + n → s.gHit ag a n need noHost = .fail (6, some (.ofNat 57 a.toNat))) ∧
    (0 ≤ a → a + n ≤ 2 ^ 57 → a.toNat % n ≠ 0 → s.gHit ag a n need noHost = .fail (5, some (.ofNat 57 a.toNat)))) ∧
  (∀ (s : State) x (a : Int) (n : Nat) rings reach, (reach && s.handler x) = false →
    let sd : Int := (((s.groupOf x).skib * 1024 - (s.groupOf x).gwaves * (s.groupOf x).cspill : Nat) : Int)
    (a < 0 ∨ sd < a + n → s.sHit x a n rings reach = .fail (8, some (.ofNat 57 a.toNat))) ∧
    (0 ≤ a → a + n ≤ sd → a.toNat % n ≠ 0 → s.sHit x a n rings reach = .fail (5, some (.ofNat 57 a.toNat)))) ∧
  (∀ (s : State) x (a : Int) (n : Nat) rings, (a < 0 ∨ (s.groupOf x).clu = false → s.cHit x a n rings = .fail (8, some (.ofNat 57 a.toNat)))) ∧
  (∀ (s : State) x (a n : Nat) rings, (s.groupOf x).clu = true →
    let g := s.groupOf x
    -- the members of the other die of a straddling launch stand 8 MiB up
    let o := if g.straddle = true ∧ 2 ^ 23 ≤ a ∧ a < 2 ^ 24 then a - 2 ^ 23 else a
    let inWindow := o + n ≤ 8 * (g.skib * 1024) ∧ (g.straddle = true → a < 2 ^ 24)
    let inMember := o / 1024 * 128 + o % 128 + n ≤ g.skib * 1024 - g.gwaves * g.cspill
    (¬ inWindow → s.cHit x a n rings = .fail (8, some (.ofNat 57 a))) ∧
    (inWindow → ¬ inMember → s.cHit x a n rings = .fail (8, some (.ofNat 57 a))) ∧
    (inWindow → inMember → a % n ≠ 0 → s.cHit x a n rings = .fail (5, some (.ofNat 57 a)))) ∧
  (∀ (s : State) ag va n need root, ag.root = some root → ag.launch = none → s.translate ag.ck root va = none →
    va + n ≤ 2 ^ 57 → va % n = 0 → s.gHit ag va n need false = .fail (6, some (.ofNat 57 va)))

/-- R69, R220: the checks of an access, and what a lane that fails one comes to. -/
def Obligations.AccessCauses : Prop := Sys2Proof.Rule.LaneAccessCauses ∧ Sys2Proof.Rule.AddressChecks

namespace Sys2Proof.Rule
/-- The view record (R227), read by lane F. -/
def viewBase (v : Nat) : Nat := v % 2 ^ 64
def extent (v i : Nat) : Nat := v / 2 ^ (64 * i + 64) % 2 ^ 32
def stride (v i : Nat) : Int := (BitVec.ofNat 32 (v / 2 ^ (64 * i + 96))).toInt

/-- Coordinate i of element j in a lane, and the element's address where it is in bounds (R228). -/
def coord (f : XF) (s : State) (x : Sel) (l j i : Nat) : Int :=
  (BitVec.ofNat 32 ((s.wave x.wk).reg ((match f.a with | .v r => r | _ => 0) + i) l).toNat).toInt + (if i = 0 then (j : Int) else 0)
def elemAddr (f : XF) (s : State) (x : Sel) (v l j : Nat) : Option Int :=
  if ∀ i < f.tnCrd, 0 ≤ coord f s x l j i ∧ coord f s x l j i < extent v i then
    some (viewBase v + ((List.range f.tnCrd).map (fun i => coord f s x l j i * stride v i)).sum)
  else none

/-- What element j of a lane meets; none where it is out of bounds. -/
def elemHit (f : XF) (s : State) (x : Sel) (need : Need) (v l j : Nat) : Option Hit :=
  (elemAddr f s x v l j).map (fun a => s.gHit (s.agent x) a f.tnBytes need false)

/-- Every element in bounds may be accessed, or the flag register tells of it. -/
def elemsPass (f : XF) (s : State) (x : Sel) (need : Need) (v : Nat) (act : List Nat) : Prop :=
  ∀ l ∈ act, ∀ j < f.tnN, ∀ h, elemHit f s x need v l j = some h → h.cause f.tFlag = none

/-- The flag word: the elements not performed. -/
def elemFlag (f : XF) (s : State) (x : Sel) (need : Need) (v l : Nat) : Nat :=
  ((List.range f.tnN).map (fun j => match elemHit f s x need v l j with | some (.nonres _) => 2 ^ j | _ => 0)).sum

/-- The data registers of a tensor load as one number. -/
def elemData (f : XF) (s : State) (x : Sel) (v l : Nat) : Nat :=
  ((List.range f.tnN).map (fun j => match elemHit f s x .rd v l j with
    | some (.ok p) => 2 ^ (8 * f.tnBytes * j) * s.readAt (s.agent x) p f.tnBytes
    | _ => 0)).sum

/-- The flag register, or a data register, of a tensor access. -/
def tensorWord (f : XF) (act : List Nat) (n : Nat) (data flag : Nat → Nat) (c l : Nat) : Option Word :=
  if l ∉ act then none
  else if f.tFlag ≠ .none ∧ c = f.tFlag.code then some (.ofNat 32 (flag l))
  else
    let d := match f.d with | .v r => r | _ => 0
    if d ≤ c ∧ c < d + n then some (.ofNat 32 (data l / 2 ^ (32 * (c - d)))) else none
end Sys2Proof.Rule

/-- R226 to R228: tensor loads and stores clip their elements to the view that lane F reads; an element out of bounds reads 0 or is dropped.
That the elements of one lane are stored in ascending order is the model's choice (R228 leaves the order open). -/
def Obligations.TensorAccesses : Prop :=
  (∀ f s x p, ready (.ldt f) s x = true → inside s x = true →
    let cx := cxOf (.ldt f) s x
    s.gHit (s.agent x) (src (.ldt f) s x .B f.b 2 cx.F) 64 .rd false = .ok p →
    let v := (s.inOrder x [(p.late, 64)]).readAt (s.agent x) p 64
    elemsPass f s x .rd v cx.act →
    ∃ t, exec (.ldt f) s = .next t ∧ Counted x s t true ∧ MemFrame (.ldt f) x s t ∧ GoesOn x s t ∧
      (Performed x s → Under x s t true (tensorWord f cx.act f.tnReg (elemData f s x v) (elemFlag f s x .rd v)) ∧ NoStore s t)) ∧
  (∀ f s x p, ready (.stt f) s x = true → inside s x = true →
    let cx := cxOf (.stt f) s x
    s.gHit (s.agent x) (src (.stt f) s x .B f.b 2 cx.F) 64 .rd false = .ok p →
    let v := (s.inOrder x [(p.late, 64)]).readAt (s.agent x) p 64
    elemsPass f s x .wr v cx.act →
    let data := fun l => (s.wave x.wk).regN (match f.d with | .v r => r | _ => 0) l f.tnReg
    let ws := cx.act.flatMap (fun l => (List.range f.tnN).filterMap (fun j => match elemHit f s x .wr v l j with
      | some (.ok q) => some (q, data l / 2 ^ (8 * f.tnBytes * j) % 2 ^ (8 * f.tnBytes))
      | _ => none))
    ∃ t, exec (.stt f) s = .next t ∧ Counted x s t false ∧ MemFrame (.stt f) x s t ∧ GoesOn x s t ∧
      (Performed x s → Under x s t false (tensorWord f cx.act 0 (fun _ => 0) (elemFlag f s x .wr v)) ∧
        (Paged s → (∀ w ∈ ws, ∀ pa, w.1 = .glob (.phys pa) → pa % f.tnBytes = 0) →
          Elsewhere s t f.tnBytes (ws.map Prod.fst) ∧ Stored s (t.publish x) f.tnBytes ws))) ∧
  (∀ f s x e, ready (.ldt f) s x = true →
    (s.gHit (s.agent x) (src (.ldt f) s x .B f.b 2 (cxOf (.ldt f) s x).F) 64 .rd false).cause .none = some e →
    ∃ t, exec (.ldt f) s = .next t ∧ (t.wave x.wk).cause = e.1 ∧ (t.wave x.wk).faultmask = (cxOf (.ldt f) s x).mask ∧
      (t.wave x.wk).effmask = 0 ∧ RegsKept x [] [] s t)

namespace Sys2Proof.Rule
/-- The operation of R230 on the word of an atomic. -/
def atomRule (z : MSize) (kind aop old b : Nat) : Nat :=
  let w := 8 * z.bytes
  let I := fun v : Nat => if kind = 1 then (BitVec.ofNat w v).toInt else ((v : Nat) : Int)
  let F := if z.bytes = 8 then F64 else F32
  if kind = 3 then
    match aop with
    | 0 => (F.fin .rn false false (sumFV .rn [F.val false old, F.val false b])).1
    | 1 => minmax F false true old b
    | _ => minmax F false false old b
  else
    match aop with
    | 0 => (old + b) % 2 ^ w
    | 1 => if I b < I old then b else old
    | 2 => if I old < I b then b else old
    | 3 => old &&& b
    | 4 => old ||| b
    | 5 => old ^^^ b
    | 6 => b
    | 7 => if b ≤ old then 0 else old + 1
    | _ => if old = 0 ∨ b < old then b else old - 1

/-- A place whose word no cell, no page migration and no fill of a carved line gets between. -/
def plainWord (s : State) (n : Nat) : Place → Prop
  | .glob (.phys pa) => (∀ i < n, FMap.get none s.cells ((pa + i) / 4) = none) ∧
      (∀ g ∈ s.migs, pa + n ≤ g.new ∨ g.new + g.size ≤ pa)
  | .glob (.copy ri va) => (s.region ri).vbase % 64 = 0 ∧ (s.region ri).lines.find? (lineAt (s.region ri) va) ≠ none
  | .sp _ _ => True

/-- What a word holds after the lanes of a list, in their order. -/
def wordAfter (ls : List Nat) (hit : Nat → Hit) (op : Nat → Nat → Nat) (n : Nat) (p : Place) (v : Nat) : Nat :=
  (ls.filter (fun k => decide (hit k = .ok p))).foldl (fun v k => op k v % 2 ^ (8 * n)) v

/-- Lanes ascending, each one step on its word (R230, R231); the old values are under way to D where it returns. A lane whose word lies on the
other die takes its step now or later (log entry 73), so its words are told of the state in which the context's stores are performed. -/
def Atomics (mk : MemF → Instr) (ret : Bool) (hit : Instr → MemF → State → Sel → Nat → Hit)
    (op : Instr → MemF → State → Sel → Nat → Nat → Nat) : Prop :=
  ∀ f s x, ready (mk f) s x = true → inside s x = true →
    let i := mk f
    let act := (cxOf i s x).act
    let n := f.size.bytes
    allPass .none act (hit i f s x) →
    ∃ t, exec i s = .next t ∧ Counted x s t ret ∧ MemFrame i x s t ∧ GoesOn x s t ∧
      (t.wave x.wk).accs.map Access.id = (s.wave x.wk).accs.map Access.id ++ [(s.wave x.wk).nextAcc] ∧
      (∃ a, (t.wave x.wk).accs.getLast? = some a ∧ a.load = ret ∧ a.ctx = x.ctx ∧
        ∀ c l, l < 32 → ((a.writes.find? (regKey c l)).isSome || a.due.contains (regKey c l)) =
          (decide (l ∈ act) && ret && decide (f.d.code ≤ c ∧ c < f.d.code + f.size.regs))) ∧
      (Performed x s → Paged s → wordsAligned act (hit i f s x) n →
      let u := t.publish x
      Elsewhere s t n (spots act (hit i f s x)) ∧ Elsewhere s u n (spots act (hit i f s x)) ∧
      ∃ a, (u.wave x.wk).accs.getLast? = some a ∧
      let word := fun c l => a.writes.find? (regKey c l)
      ∀ l ∈ act, ∀ p, hit i f s x l = .ok p → plainWord s n p →
        u.readAt (s.agent x) p n = wordAfter act (hit i f s x) (op i f s x) n p (s.readAt (s.agent x) p n) ∧
        (ret = true → ∀ j < f.size.regs, word (f.d.code + j) l = some (.ofNat 32
          (wordAfter (act.filter (· < l)) (hit i f s x) (op i f s x) n p (s.readAt (s.agent x) p n) / 2 ^ (32 * j)))))

def atomOp (i : Instr) (f : MemF) (s : State) (x : Sel) (l old : Nat) : Nat :=
  atomRule f.size f.kind f.aop old (src i s x .C f.d f.size.regs l)
def casOp (i : Instr) (f : MemF) (s : State) (x : Sel) (l old : Nat) : Nat :=
  let v := src i s x .C f.d (2 * f.size.regs) l
  if old = v % 2 ^ (8 * f.size.bytes) then v / 2 ^ (8 * f.size.bytes) else old
end Sys2Proof.Rule

/-- R229 to R232, R346: atomics and compare-and-swaps, lane by lane in ascending order; `red` returns nothing and counts on `st`. -/
def Obligations.AtomicInstructions : Prop :=
  Atomics .atom true (globAtom .rdwr) atomOp ∧ Atomics .red false (globAtom .wr) atomOp ∧ Atomics .atoms true scrAtom atomOp ∧
  Atomics .atomc true cluAtom atomOp ∧ Atomics .cas true (globAtom .rdwr) casOp ∧ Atomics .cass true scrCas casOp

namespace Sys2Proof.Rule
/-- What an exact reduction cell holds (R234): a multiple of 2^-149, unless a sticky state has set in. -/
def cellVal (c : Cell) : ℚ := c.s * (2 : ℚ) ^ (-149 : Int)

/-- The words that lanes of `rcell` and `rcfree` name (R233); `rcell` refuses host memory (R346). -/
def cellWord (noHost : Bool) (i : Instr) (f : XF) (s : State) (x : Sel) (l : Nat) : Hit :=
  let a := src i s x .A f.a 2 l
  if a % 4 ≠ 0 then .fail (5, some (.ofNat 57 a))
  else if 2 ^ 57 < a + 4 then .fail (6, some (.ofNat 57 a))
  else match s.home (s.agent x) a 4 .rdwr with
    | .at_ (.phys pa) => if noHost = true ∧ inHost pa 4 = true then .fail (6, some (.ofNat 57 a)) else .ok (.glob (.phys pa))
    | .at_ l => .ok (.glob l)
    | .nonres => .nonres (.ofNat 57 a)
    | .cause c => .fail (c, some (.ofNat 57 a))

/-- Cells in use at a die's unit. -/
def cellsOn (s : State) (die : Nat) : Nat := (s.cells.filter (fun p => (p.2.map Cell.die) = some die)).length
end Sys2Proof.Rule

/-- R233: a declared cell answers 1 and holds what the word held; without room the answer is 0; freeing leaves the rounded value. The permission
that both ask for is log entry 55. -/
def Sys2Proof.Rule.CellsDeclared : Prop :=
  (∀ f s x, ready (.rcell f) s x = true → inside s x = true → allPass .none (cxOf (.rcell f) s x).act (cellWord true (.rcell f) f s x) →
    ∃ t val, exec (.rcell f) s = .next t ∧ Gets (cxOf (.rcell f) s x) f.d 1 (cxOf (.rcell f) s x).act val s t ∧ (∀ l, val l ≤ 1) ∧
      MemFrameD (.rcell f) (destCodes f.d 1) (cxOf (.rcell f) s x).act x s t ∧ Uncounted x s t ∧ GoesOn x s t ∧
      ∀ l pa, (cxOf (.rcell f) s x).act = [l] → cellWord true (.rcell f) f s x l = .ok (.glob (.phys pa)) → Performed x s →
      let free := (FMap.get none s.cells (pa / 4)).isSome || decide (cellsOn s (s.homeDie pa) < 4096)
      Gets (cxOf (.rcell f) s x) f.d 1 [l] (fun _ => free.toNat) s t ∧ t.mem = s.mem ∧
      (FMap.get none t.cells (pa / 4)).isSome = ((FMap.get none s.cells (pa / 4)).isSome || free) ∧
      (∀ w, w ≠ pa / 4 → FMap.get none t.cells w = FMap.get none s.cells w) ∧
      (∀ c, FMap.get none s.cells (pa / 4) = some c → FMap.get none t.cells (pa / 4) = some c) ∧
      (FMap.get none s.cells (pa / 4) = none → free = true →
        FMap.get none t.cells (pa / 4) = some (Cell.load (s.homeDie pa) (s.agent x).launch (s.readPhys pa 4)))) ∧
  (∀ f s x, ready (.rcfree f) s x = true → inside s x = true → allPass .none (cxOf (.rcfree f) s x).act (cellWord false (.rcfree f) f s x) →
    ∃ t, exec (.rcfree f) s = .next t ∧ MemFrame (.rcfree f) x s t ∧ Uncounted x s t ∧ GoesOn x s t ∧
      ∀ l pa, (cxOf (.rcfree f) s x).act = [l] → cellWord false (.rcfree f) f s x l = .ok (.glob (.phys pa)) → FMap.get none t.cells (pa / 4) = none ∧ (Performed x s →
      (∀ w, w ≠ pa / 4 → FMap.get none t.cells w = FMap.get none s.cells w) ∧
      ∀ a, (∀ g ∈ s.migs, ¬ (g.new ≤ s.canon a ∧ s.canon a < g.new + g.size)) → t.byte a = s.byte a))

/-- R234: the states that an FP32 value loads, and the one value that a cell reads as: canonical NaN, an infinity, or S rounded once to
nearest even. -/
def Sys2Proof.Rule.CellValues : Prop :=
  (∀ die launch y, y < 2 ^ 32 →
    let c := Cell.load die launch y
    match F32.val false y with
    | .nan => c.nan = true ∧ c.pinf = false ∧ c.ninf = false
    | .inf n => c.nan = false ∧ c.pinf = !n ∧ c.ninf = n
    | .fin n m e => c.nan = false ∧ c.pinf = false ∧ c.ninf = false ∧ cellVal c = num (.fin n m e)) ∧
  (∀ c : Cell,
    (c.nan = true ∨ (c.pinf = true ∧ c.ninf = true) → c.value = 0x7FC00000) ∧
    (c.nan = false → c.pinf = true → c.ninf = false → c.value = 0x7F800000) ∧
    (c.nan = false → c.pinf = false → c.ninf = true → c.value = 0xFF800000) ∧
    (c.nan = false → c.pinf = false → c.ninf = false →
      c.value = (F32.fin .rn false false (.fin (decide (c.s < 0)) c.s.natAbs (-149), 0)).1)) ∧
  (∀ (s : State) pa c, pa % 4 = 0 → s.canon pa = pa → (∀ i < 4, s.canon (pa + i) = pa + i) → FMap.get none s.cells (pa / 4) = some c →
    s.readPhys pa 4 = c.value)

/-- R234: an FP32 addition goes to the cell exactly, one that would reach 2^170 sets an infinity and leaves S, and the order of additions does
not tell. -/
def Sys2Proof.Rule.CellSums : Prop :=
  (∀ (c : Cell) n m e y, y < 2 ^ 32 → F32.val false y = .fin n m e → (2 : ℚ) ^ 170 ≤ |cellVal c + num (.fin n m e)| →
    (c.add y).s = c.s ∧ (c.add y).nan = c.nan ∧ (c.add y).pinf = (c.pinf || decide (0 < cellVal c + num (.fin n m e))) ∧
      (c.add y).ninf = (c.ninf || decide (cellVal c + num (.fin n m e) < 0))) ∧
  (∀ (c : Cell) y, F32.val false y = .nan → c.add y = { c with nan := true }) ∧
  (∀ (c : Cell) y, F32.val false y = .inf false → c.add y = { c with pinf := true }) ∧
  (∀ (c : Cell) y, F32.val false y = .inf true → c.add y = { c with ninf := true }) ∧
  (∀ (c : Cell) n m e y, y < 2 ^ 32 → F32.val false y = .fin n m e →
    |cellVal c + num (.fin n m e)| < 2 ^ 170 →
    cellVal (c.add y) = cellVal c + num (.fin n m e) ∧ (c.add y).nan = c.nan ∧ (c.add y).pinf = c.pinf ∧ (c.add y).ninf = c.ninf) ∧
  (∀ (c : Cell) y z, (∀ v ∈ [y, z], v < 2 ^ 32 ∧ ∃ n m e, F32.val false v = .fin n m e) → |cellVal c| < 2 ^ 169 →
    (c.add y).add z = (c.add z).add y)

namespace Sys2Proof.Rule
/-- The operands of the lanes that name the word, ascending. -/
def addends (mk : MemF → Instr) (hit : Nat → Hit) (f : MemF) (s : State) (x : Sel) (pa : Nat) : List Nat :=
  ((cxOf (mk f) s x).act.filter (fun l => decide (hit l = .ok (.glob (.phys pa))))).map (src (mk f) s x .C f.d 1)

/-- `.add.f32` to the word of a declared cell adds every lane's operand to the cell, and no byte of memory changes for it. -/
def AddsToCell (mk : MemF → Instr) (need : Need) : Prop :=
  ∀ f s x pa c, ready (mk f) s x = true → inside s x = true → f.size.bytes = 4 → f.kind = 3 → f.aop = 0 →
    let hit := globAtom need (mk f) f s x
    allPass .none (cxOf (mk f) s x).act hit → Performed x s → Paged s → wordsAligned (cxOf (mk f) s x).act hit 4 →
    (∃ l ∈ (cxOf (mk f) s x).act, hit l = .ok (.glob (.phys pa))) → s.canon pa = pa → FMap.get none s.cells (pa / 4) = some c →
    (∀ l ∈ (cxOf (mk f) s x).act, ∀ p, hit l = .ok p → p ≠ .glob (.phys pa) → meetsWord s 4 4 (pa / 4) p = false) →
    ∃ t, exec (mk f) s = .next t ∧
      FMap.get none (t.publish x).cells (pa / 4) = some ((addends mk hit f s x pa).foldl Cell.add c) ∧
      ((∀ l ∈ (cxOf (mk f) s x).act, ∃ q, hit l = .ok (.glob (.phys q)) ∧ s.canon q = q ∧ (FMap.get none s.cells (q / 4)).isSome = true) →
        (t.publish x).mem = s.mem)
end Sys2Proof.Rule

/-- R234: `red` and `atom` add to a cell, and any other atomic loads it again from its result: a comparison that fails, from the rounded
value. -/
def Sys2Proof.Rule.CellAtomics : Prop :=
  AddsToCell .red .wr ∧ AddsToCell .atom .rdwr ∧
  (∀ (s : State) ag pa c v, pa % 4 = 0 → (∀ i < 4, s.canon (pa + i) = pa + i) → FMap.get none s.cells (pa / 4) = some c →
    FMap.get none (s.casAt ag (.glob (.phys pa)) 4 v).cells (pa / 4) =
      some (Cell.load c.die c.launch (if c.value = v % 2 ^ 32 then v / 2 ^ 32 % 2 ^ 32 else c.value))) ∧
  (∀ (s : State) ag pa c kind aop b, pa % 4 = 0 → (∀ i < 4, s.canon (pa + i) = pa + i) → FMap.get none s.cells (pa / 4) = some c →
    ¬ (kind = 3 ∧ aop = 0) →
    FMap.get none (s.atomAt ag (.glob (.phys pa)) 4 kind aop b).cells (pa / 4) =
      some (Cell.load c.die c.launch (atomNew 4 kind aop c.value b % 2 ^ 32)))

/-- R233, R234: reduction cells: declaring and freeing one, the value it reads as, exact sums, and the atomics that meet it. -/
def Obligations.ReductionCells : Prop :=
  Sys2Proof.Rule.CellsDeclared ∧ Sys2Proof.Rule.CellValues ∧ Sys2Proof.Rule.CellSums ∧ Sys2Proof.Rule.CellAtomics

namespace Sys2Proof.Rule
/-- A carved copy holds the line of the place. -/
def present (s : State) : Loc → Prop
  | .phys _ => True
  | .copy ri va => (s.region ri).lines.find? (lineAt (s.region ri) va) ≠ none

/-- The words of `futtry`: the value with flag 0, or 0 with the flag of an empty word or of a page not resident (R236). -/
def futWord (f : MemF) (s : State) (x : Sel) (act : List Nat) (hit : Nat → Hit) (c l : Nat) : Option Word :=
  if l ∉ act then none
  else
    let full := fun p => match p with | Place.glob q => !s.tagEmpty (s.agent x) q | _ => true
    let r : Nat × Nat := match hit l with
      | .ok p => if full p then (s.readAt (s.agent x) p 8, 0) else (0, 2)
      | _ => (0, 1)
    if c = f.flag.code then some (.ofNat 32 r.2)
    else if f.d.code ≤ c ∧ c < f.d.code + 2 then some (.ofNat 32 (r.1 / 2 ^ (32 * (c - f.d.code)))) else none
end Sys2Proof.Rule

/-- R235, R236: `futst` fills a word, `futclr` empties it at 0, `futtry` never waits, and `futld` answers at once where every word is
full, and otherwise waits with its requests in the deferral buffer. -/
def Obligations.Futures : Prop :=
  (∀ f s x, ready (.futst f) s x = true → inside s x = true →
    let hit := globAtom .rdwr (.futst f) f s x
    allPass .none (cxOf (.futst f) s x).act hit →
    ∃ t, exec (.futst f) s = .next t ∧ Counted x s t false ∧ MemFrame (.futst f) x s t ∧ GoesOn x s t ∧ Performed x t ∧
      (Performed x s → Under x s t false (fun _ _ => none) ∧
        (Paged s → wordsAligned (cxOf (.futst f) s x).act hit 8 →
          Stored s t 8 (writesOf (cxOf (.futst f) s x).act hit (src (.futst f) s x .C f.d 2))))) ∧
  (∀ f s x, ready (.futclr f) s x = true → inside s x = true →
    let hit := globAtom .rdwr (.futclr f) f s x
    allPass .none (cxOf (.futclr f) s x).act hit →
    ∃ t, exec (.futclr f) s = .next t ∧ Counted x s t false ∧ MemFrame (.futclr f) x s t ∧ GoesOn x s t ∧
      ∀ l pa, (cxOf (.futclr f) s x).act = [l] → hit l = .ok (.glob (.phys pa)) →
      FMap.get false t.empties (pa / 8) = true ∧
      (Performed x s → Under x s t false (fun _ _ => none) ∧
        (Paged s → pa % 8 = 0 → s.canon pa = pa →
          (s.absent = [] → ∀ w, w ≠ pa / 8 → FMap.get false t.empties w = FMap.get false s.empties w) ∧
          (plainWord s 8 (.glob (.phys pa)) → t.readPhys pa 8 = 0) ∧
          (∀ a, ¬ touches s 8 (.glob (.phys pa)) (s.canon a) → FMap.get none s.cells (s.canon a / 4) = none → t.byte a = s.byte a)))) ∧
  (∀ f s x, ready (.futtry f) s x = true → inside s x = true →
    let hit := globAtom .rdwr (.futtry f) f s x
    allPass f.flag (cxOf (.futtry f) s x).act hit →
    ∃ t, exec (.futtry f) s = .next t ∧ Counted x s t true ∧ MemFrame (.futtry f) x s t ∧ GoesOn x s t ∧
      (hitsClear x s 8 (cxOf (.futtry f) s x).act hit → NoStore s t ∧
        (s.absent = [] → Under x s t true (futWord f s x (cxOf (.futtry f) s x).act hit)))) ∧
  (∀ f s x, ready (.futld f) s x = true → inside s x = true → (s.ctx x).fut = none →
    let hit := globAtom .rdwr (.futld f) f s x
    let act := (cxOf (.futld f) s x).act
    allPass f.flag act hit → (∀ l ∈ act, ∀ p, hit l = .ok (.glob p) → s.tagEmpty (s.agent x) p = false ∧ present s p) →
    ∃ t, exec (.futld f) s = .next t ∧ Counted x s t true ∧ MemFrame (.futld f) x s t ∧ GoesOn x s t ∧
      (hitsClear x s 8 act hit → Under x s t true (futWord f s x act hit) ∧ NoStore s t)) ∧
  (∀ f s x l pa, ready (.futld f) s x = true → (s.ctx x).fut = none → (cxOf (.futld f) s x).act = [l] →
    globAtom .rdwr (.futld f) f s x l = .ok (.glob (.phys pa)) → FMap.get false s.empties (pa / 8) = true → s.absent = [] →
    s.deferred (s.homeDie pa * 32 + homeSlice pa) < 64 → Performed x s →
    ∃ t d, exec (.futld f) s = .next t ∧ t.defer = s.defer ++ [d] ∧ d.who = x ∧ d.lane = l ∧ d.addr = pa ∧ d.got = none ∧
      Counted x s t true ∧ (t.ctx x).blk.isSome = true ∧ t.stack x = s.stack x ∧ RegsKept x [] [] s t ∧ t.mem = s.mem)

namespace Sys2Proof.Rule
/-- R238: the status of a binding, and the table after it. Ranges of the same object that overlap the new one merge with it. -/
def bound (t : List BindRange) (a len obj : Nat) : Nat × List BindRange :=
  let meet := t.filter (fun r => decide (r.start < a + len ∧ a < r.start + r.len))
  let rest := t.filter (fun r => !decide (r.start < a + len ∧ a < r.start + r.len))
  if ∃ r ∈ meet, r.obj ≠ obj then (2, t)
  else if 256 < rest.length + 1 then (1, t)
  else
    let lo := (meet.map BindRange.start).foldl min a
    let hi := (meet.map (fun r => r.start + r.len)).foldl max (a + len)
    (0, rest ++ [⟨lo, hi - lo, obj⟩])

/-- An object that a lane of `acq` or `rel` names, at BASE plus OFFSET (R220). -/
def objHit (i : Instr) (f : MemF) (s : State) (x : Sel) (need : Need) (l : Nat) : Hit :=
  s.gHit (s.agent x) ((src i s x .A f.base 2 l : Int) + f.off.toInt) 8 need false

/-- All lanes of the instruction stop with `ALIGN`, and nothing else happens. -/
def AllMisaligned (i : Instr) (s : State) (x : Sel) : Prop :=
  ∃ t, exec i s = .next t ∧ (t.wave x.wk).state = 1 ∧ (t.wave x.wk).cause = 5 ∧ (t.wave x.wk).faultmask = (cxOf i s x).mask ∧
    (t.wave x.wk).effmask = 0 ∧ t.stack x = s.stack x ∧ RegsKept x [] [] s t ∧ t.mem = s.mem ∧ t.regions = s.regions ∧
    (t.wave x.wk).table = (s.wave x.wk).table
end Sys2Proof.Rule

/-- R238 to R242: binding and freeing ranges once per wave with the values of lane F; acquires read their object, releases write it in
ascending lane order (the data, or the old value plus 1); a release and a fence come
after everything that their context stored before. -/
def Obligations.ObjectsAndFences : Prop :=
  (∀ f s x, ready (.sbind f) s x = true → inside s x = true →
    let cx := cxOf (.sbind f) s x
    let a := src (.sbind f) s x .A f.a 2 cx.F
    let o := src (.sbind f) s x .B f.b 2 cx.F
    (a % 64 ≠ 0 ∨ o % 8 ≠ 0 → AllMisaligned (.sbind f) s x) ∧
    (a % 64 = 0 → o % 8 = 0 → s.isHost (s.agent x) a = false → s.isHost (s.agent x) o = false →
      let r := bound (s.wave x.wk).table a (64 * f.len) o
      ∃ t, exec (.sbind f) s = .next t ∧ Gets cx f.d 1 cx.act (fun _ => r.1) s t ∧ (t.wave x.wk).table = r.2 ∧
        RegsKept x (destCodes f.d 1) cx.act s t ∧ FlagsKept x s t ∧ AluBut x s t (fun w v => { v with table := w.table }) ∧
        GoesOn x s t ∧ QueuesKept (.sbind f) x f.d s t)) ∧
  (∀ f s x, ready (.sfree f) s x = true → inside s x = true →
    let o := src (.sfree f) s x .B f.b 2 (cxOf (.sfree f) s x).F
    ∃ t, exec (.sfree f) s = .next t ∧ (∀ r, r ∈ (t.wave x.wk).table ↔ r ∈ (s.wave x.wk).table ∧ r.obj ≠ o) ∧
      RegsKept x [] [] s t ∧ FlagsKept x s t ∧ AluBut x s t (fun w v => { v with table := w.table }) ∧ GoesOn x s t) ∧
  (∀ f s x, ready (.acq f) s x = true → inside s x = true →
    let cx := cxOf (.acq f) s x
    let hit := objHit (.acq f) f s x .rd
    allPass .none cx.act hit →
    ∃ t val, exec (.acq f) s = .next t ∧ Gets cx f.d 2 cx.act val s t ∧
      MemFrameD (.acq f) (destCodes f.d 2) cx.act x s t ∧ Uncounted x s t ∧ GoesOn x s t ∧
      (hitsClear x s 8 cx.act hit → NoStore s t ∧
        ∀ l ∈ cx.act, val l = match hit l with | .ok p => s.readAt (s.agent x) p 8 | _ => 0)) ∧
  (∀ f s x, f.d ≠ .none → ready (.rel f) s x = true → inside s x = true →
    let act := (cxOf (.rel f) s x).act
    let hit := objHit (.rel f) f s x .wr
    allPass .none act hit →
    ∃ t, exec (.rel f) s = .next t ∧ MemFrame (.rel f) x s t ∧ Uncounted x s t ∧ GoesOn x s t ∧ Performed x t ∧
      (Performed x s → Paged s → wordsAligned act hit 8 → Stored s t 8 (writesOf act hit (src (.rel f) s x .C f.d 2)))) ∧
  (∀ f s x, f.d = .none → ready (.rel f) s x = true → inside s x = true →
    let act := (cxOf (.rel f) s x).act
    let hit := objHit (.rel f) f s x .rdwr
    allPass .none act hit →
    ∃ t, exec (.rel f) s = .next t ∧ MemFrame (.rel f) x s t ∧ Uncounted x s t ∧ GoesOn x s t ∧ Performed x t ∧
      (Performed x s → Paged s → wordsAligned act hit 8 → Elsewhere s t 8 (spots act hit) ∧
        ∀ l ∈ act, ∀ p, hit l = .ok p → plainWord s 8 p →
          t.readAt (s.agent x) p 8 = wordAfter act hit (fun _ v => v + 1) 8 p (s.readAt (s.agent x) p 8))) ∧
  (∀ f s x, ready (.fence f) s x = true → inside s x = true →
    ∃ t, exec (.fence f) s = .next t ∧ MemFrame (.fence f) x s t ∧ Uncounted x s t ∧ GoesOn x s t ∧ Performed x t ∧
      t.mem = (s.publish x).mem ∧ (Performed x s → OnlyAdvances (.fence f) s x))

namespace Sys2Proof.Rule
/-- Start and length of a range, by lane F (R244). -/
def rangeA (i : Instr) (f : XF) (s : State) (x : Sel) : Nat := src i s x .A f.a 2 (cxOf i s x).F
def rangeL (i : Instr) (f : XF) (s : State) (x : Sel) : Nat := src i s x .B f.b 1 (cxOf i s x).F
def rangeOk (i : Instr) (f : XF) (s : State) (x : Sel) : Prop := rangeA i f s x % 64 = 0 ∧ rangeL i f s x % 64 = 0

/-- A line of a region that serves the agents of the wave lies in a range. -/
def ownLine (s : State) (x : Sel) (a len ri k : Nat) : Prop :=
  ri < s.regions.length ∧ (s.region ri).die = x.die ∧ some (s.region ri).launch = (s.agent x).launch ∧
    a ≤ (s.region ri).vbase + 64 * k ∧ (s.region ri).vbase + 64 * k < a + len

/-- A fault-buffer entry (R274). -/
def fault (die core ctx kind gen page : Nat) : Nat :=
  page + 2 ^ 72 * gen + 2 ^ 80 * kind + 2 ^ 88 * ctx + 2 ^ 104 * core + 2 ^ 111 * die
end Sys2Proof.Rule

/-- R244, R351, R353: `rwb` writes exactly the dirty bytes of a line home and marks it clean, or stops at a line that its page refuses;
`rinv` makes lines ABSENT; `icinv` drops fetched lines (R245). A misaligned range raises `ALIGN` in every lane. -/
def Sys2Proof.Rule.RangeInstructions : Prop :=
  (∀ f s x, ready (.rwb f) s x = true → ¬ rangeOk (.rwb f) f s x → AllMisaligned (.rwb f) s x) ∧
  (∀ f s x, ready (.rinv f) s x = true → ¬ rangeOk (.rinv f) f s x → AllMisaligned (.rinv f) s x) ∧
  (∀ f s x, ready (.icinv f) s x = true → ¬ rangeOk (.icinv f) f s x → AllMisaligned (.icinv f) s x) ∧
  (∀ f s x, ready (.rwb f) s x = true → inside s x = true → rangeOk (.rwb f) f s x →
    -- u: what the context stored before is performed
    let u := s.publish x
    let ds := u.dirtyLines (s.agent x) (rangeA (.rwb f) f s x) (rangeL (.rwb f) f s x)
    ((u.writeBack (s.agent x) ds).1 = none →
      ∃ t, exec (.rwb f) s = .next t ∧ MemFrame (.rwb f) x s t ∧ Uncounted x s t ∧ GoesOn x s t ∧
        ∀ p ∈ ds, ∀ c, (t.region p.1).lines.find? p.2 = some c → c.dirty = 0) ∧
    (ds = [] → Performed x s → OnlyAdvances (.rwb f) s x) ∧
    (∀ ri k c pa, ds = [(ri, k)] → (u.region ri).lines.find? k = some c →
      u.home (s.agent x) ((u.region ri).vbase + 64 * k) 64 .wr = .at_ (.phys pa) → u.canon pa = pa → pa % 64 = 0 →
      ∃ t, exec (.rwb f) s = .next t ∧ (t.region ri).lines.find? k = some { c with dirty := 0 } ∧
        (∀ ri' k', (ri', k') ≠ (ri, k) → (t.region ri').lines.find? k' = (u.region ri').lines.find? k') ∧
        (∀ a, FMap.get none u.cells (u.canon a / 4) = none → (∀ g ∈ u.migs, ¬ (g.new ≤ u.canon a ∧ u.canon a < g.new + g.size)) →
          t.byte a = if pa ≤ u.canon a ∧ u.canon a < pa + 64 ∧ c.dirty.testBit (u.canon a - pa) = true then
            .ofNat 8 (c.data / 2 ^ (8 * (u.canon a - pa))) else u.byte a) ∧
        (∀ i < 64, c.dirty.testBit i = true → FMap.get false t.empties ((pa + i) / 8) = false) ∧
        MemFrame (.rwb f) x s t ∧ Uncounted x s t ∧ GoesOn x s t) ∧
    (∀ ri k ds', ds = (ri, k) :: ds' →
      u.home (s.agent x) ((u.region ri).vbase + 64 * k) 64 .wr = .cause 6 →
      ∃ t, exec (.rwb f) s = .next t ∧ (t.wave x.wk).cause = 6 ∧ (t.wave x.wk).faultmask = (cxOf (.rwb f) s x).mask ∧
        t.regions = u.regions ∧ t.mem = u.mem ∧
        ∀ l ∈ (cxOf (.rwb f) s x).act, ((t.wave x.wk).faddr).find? l = some (.ofNat 57 ((u.region ri).vbase + 64 * k)))) ∧
  (∀ f s x, ready (.rinv f) s x = true → inside s x = true → rangeOk (.rinv f) f s x →
    let u := s.publish x
    ∃ t, exec (.rinv f) s = .next t ∧ t.mem = u.mem ∧ t.cells = u.cells ∧ MemFrame (.rinv f) x s t ∧ Uncounted x s t ∧ GoesOn x s t ∧
      ∀ ri k, (ownLine s x (rangeA (.rinv f) f s x) (rangeL (.rinv f) f s x) ri k → (t.region ri).lines.find? k = none) ∧
        (¬ ownLine s x (rangeA (.rinv f) f s x) (rangeL (.rinv f) f s x) ri k →
          (t.region ri).lines.find? k = (u.region ri).lines.find? k)) ∧
  (∀ f s x, ready (.icinv f) s x = true → inside s x = true → rangeOk (.icinv f) f s x →
    ∃ t, exec (.icinv f) s = .next t ∧
      (∀ b, b ∈ (t.core x.ck).fbuf ↔ b ∈ (s.core x.ck).fbuf ∧
        ¬ (rangeA (.icinv f) f s x ≤ b.addr ∧ b.addr < rangeA (.icinv f) f s x + rangeL (.icinv f) f s x)) ∧
      RegsKept x [] [] s t ∧ FlagsKept x s t ∧ AluButCore x s t (fun w v => { v with fbuf := w.fbuf }) ∧ GoesOn x s t)

/-- R246, R247, R274, R276: `resreq` gives 0 for resident pages; otherwise it posts an entry and gives its ticket, or, where the buffer is full or not
enabled, drops the post, sets OVF and gives 0xFFFF_FFFF. `phase` sets BWPHASE and nothing else. -/
def Sys2Proof.Rule.ResidencyAndPhase : Prop :=
  (∀ f s x, ready (.resreq f) s x = true → inside s x = true →
    let at_ := fun l => s.resHit (s.agent x) (addr (.resreq f) f s x 2 l)
    ((∀ l ∈ (cxOf (.resreq f) s x).act, ∃ p, at_ l = .ok p) → Computes (.resreq f) s x f.d 1 (fun _ => 0)) ∧
    (∀ l a, (cxOf (.resreq f) s x).act = [l] → at_ l = .nonres a →
      let d := s.die x.die
      let page := a.toNat / 4096 * 4096
      let i := d.fbtail.toNat % 1024
      s.fbFind x.die page = none →
      (d.fbbase.getLsbD 0 = false ∨ 1024 ≤ (d.fbtail - d.fbhead).toNat → ∃ t, exec (.resreq f) s = .next t ∧
        Gets (cxOf (.resreq f) s x) f.d 1 [l] (fun _ => 0xFFFFFFFF) s t ∧ t.die x.die = { d with fbovf := true } ∧ t.mem = s.mem ∧
        GoesOn x s t) ∧
      (d.fbbase.getLsbD 0 = true → (d.fbtail - d.fbhead).toNat < 1024 → ∃ t, exec (.resreq f) s = .next t ∧
        Gets (cxOf (.resreq f) s x) f.d 1 [l] (fun _ => d.fbgen.toNat * 2 ^ 24 + i + 1) s t ∧
        t.die x.die = { d with fbtail := d.fbtail + 1 } ∧ GoesOn x s t ∧
        (s.cells = [] → s.migs = [] →
          t.readPhys (bits d.fbbase.toNat 47 14 * 16384 + 16 * i) 16 =
            fault x.die (x.core % 128) ((s.wave x.wk).ctxid % 2 ^ 16) 1 d.fbgen.toNat page % 2 ^ 128 ∧
          ∀ b, ¬ (bits d.fbbase.toNat 47 14 * 16384 + 16 * i ≤ b ∧ b < bits d.fbbase.toNat 47 14 * 16384 + 16 * i + 16) →
            t.byte b = s.byte b)))) ∧
  (∀ f s x, ready (.phase f) s x = true → inside s x = true →
    ∃ t, exec (.phase f) s = .next t ∧ (t.wave x.wk).bwphase = f.imm.toNat % 8 ∧ RegsKept x [] [] s t ∧ FlagsKept x s t ∧
      AluBut x s t (fun w v => { v with bwphase := w.bwphase }) ∧ GoesOn x s t)

/-- R244 to R247, R274, R276, R351: ranges of carved storage and code, residency requests, and `phase`. -/
def Obligations.RangesAndResidency : Prop := Sys2Proof.Rule.RangeInstructions ∧ Sys2Proof.Rule.ResidencyAndPhase

/-! ## Batons and tails (file 06) -/

namespace Sys2Proof.Rule
/-- The register of an operand. -/
def rnum : Opnd → Nat
  | .v r => r
  | _ => 0

/-- The checks of R180 in a lane: its top return entry lends a frame like lane F's, with the source inside and the destination
outside. -/
def lendsFrame (f : PlainI) (s : State) (x : Sel) (l : Nat) : Prop :=
  let e := s.topRet x l
  let eF := s.topRet x (cxOf (.baton f) s x).F
  1 ≤ ((s.wave x.wk).ret l).depth ∧ 1 ≤ e.fs.toNat ∧ e.fb = eF.fb ∧ e.fs = eF.fs ∧
    e.fb.toNat ≤ rnum f.a ∧ rnum f.a + f.batonN ≤ e.fb.toNat + e.fs.toNat ∧
    (rnum f.d + f.batonN ≤ e.fb.toNat ∨ e.fb.toNat + e.fs.toNat ≤ rnum f.d)

/-- The copy of R180: D takes the source registers in the active lanes, and no other register changes. -/
def Copied (f : PlainI) (s t : State) (x : Sel) : Prop :=
  let cx := cxOf (.baton f) s x
  Gets cx (.v (rnum f.d)) f.batonN cx.act (fun l => (s.wave x.wk).regN (rnum f.a) l f.batonN) s t ∧
  RegsKept x (destCodes (.v (rnum f.d)) f.batonN) cx.act s t

/-- Slot k is the lowest free tail slot of the core. -/
def freeSlot (s : State) (x : Sel) (k : Nat) : Prop :=
  k < 32 ∧ (s.tail (x.ck * 32 + k)).valid = false ∧ ∀ j < k, (s.tail (x.ck * 32 + j)).valid = true

/-- The context waits: it is blocked, and is where it was. -/
def Waits (i : Instr) (s : State) (x : Sel) : Prop :=
  ∃ t, exec i s = .next t ∧ (t.ctx x).blk.isSome = true ∧ t.stack x = s.stack x ∧ RegsKept x [] [] s t ∧ FlagsKept x s t ∧
    AluFrame x s t ∧ t.mem = s.mem
end Sys2Proof.Rule

/-- R180 to R184: `baton` in a tail copies and goes on; with a free tail slot it makes a tail of its active lanes and restarts the callers;
with none its lanes enter tail mode together; a lane that fails a check raises `FRAME`, and no lane takes effect. Where lane F's return stack is
empty, what the other lanes compare with is log entry 69, and so are the lanes that stand for LANES in tail mode. -/
def Obligations.Batons : Prop :=
  (∀ f s x, s.tailish x = true → ready (.baton f) s x = true → inside s x = true →
    ∃ t, exec (.baton f) s = .next t ∧ MemFrameD (.baton f) (destCodes (.v (rnum f.d)) f.batonN) (cxOf (.baton f) s x).act x s t ∧
      Performed x t ∧ GoesOn x s t ∧ (Performed x s → Copied f s t x ∧ AluFrame x s t)) ∧
  (∀ f s x k, s.tailish x = false → ready (.baton f) s x = true → inside s x = true →
    let cx := cxOf (.baton f) s x
    (∀ l ∈ cx.act, lendsFrame f s x l) → freeSlot s x k →
    ∃ t, exec (.baton f) s = .next t ∧ FlagsKept x s t ∧ Performed x t ∧
      t.tail (x.ck * 32 + k) = { valid := true, wave := x.wave, fb := (s.topRet x cx.F).fb, fs := (s.topRet x cx.F).fs, lanes := cx.mask
                                 stack := [runE (nextSlot s x) (s.run x).depth cx.mask] } ∧
      (∀ j, j ≠ x.ck * 32 + k → t.tail j = s.tail j) ∧
      (∀ l ∈ cx.act, ((t.wave x.wk).ret l).depth + 1 = ((s.wave x.wk).ret l).depth) ∧ OtherRets x s t cx.act ∧
      (t.core x.ck).tlFast = (s.core x.ck).tlFast + 1 ∧
      Moves x s t (grouped s x none cx.idle ((s.run x).depth - 1) false (cx.act.map (fun l => (l, (s.topRet x l).rpc)))) ∧
      (∀ j, j ≠ x.wk → t.wave j = s.wave j) ∧
      (Performed x s → Copied f s t x ∧ (t.wave x.wk).flow = (s.wave x.wk).flow ∧ (∀ j, j ≠ x.ck → t.core j = s.core j) ∧
        { t.core x.ck with tlFast := (s.core x.ck).tlFast } = s.core x.ck ∧ t.mem = s.mem)) ∧
  (∀ f s x, s.tailish x = false → ready (.baton f) s x = true → inside s x = true →
    let cx := cxOf (.baton f) s x
    let tm := (s.wave x.wk).div.tmode ||| cx.mask
    (∀ l ∈ cx.act, lendsFrame f s x l) → (∀ k < 32, (s.tail (x.ck * 32 + k)).valid = true) →
    ∃ t, exec (.baton f) s = .next t ∧ FlagsKept x s t ∧ Performed x t ∧ t.tails = s.tails ∧ (t.wave x.wk).div.tmode = tm ∧
      (∀ l ∈ cx.act, FMap.get tm (t.wave x.wk).div.tsets l = cx.mask) ∧
      (∀ l < 32, l ∉ cx.act → FMap.find? (t.wave x.wk).div.tsets l = FMap.find? (s.wave x.wk).div.tsets l) ∧
      (∀ l, (t.wave x.wk).ret l = (s.wave x.wk).ret l) ∧ (t.core x.ck).tlSlow = (s.core x.ck).tlSlow + 1 ∧
      t.stack x = settle tm (if cx.idle = 0 then ({ s.run x with pc := nextSlot s x } : DivEntry) :: (s.stack x).tail
        else pendE (nextSlot s x) (s.run x).depth cx.idle :: pendE (nextSlot s x) (s.run x).depth cx.mask :: (s.stack x).tail) ∧
      (∀ j, j ≠ x.wk → t.wave j = s.wave j) ∧
      (Performed x s → Copied f s t x ∧ (t.wave x.wk).flow = (s.wave x.wk).flow ∧ (∀ j, j ≠ x.ck → t.core j = s.core j) ∧
        { t.core x.ck with tlSlow := (s.core x.ck).tlSlow } = s.core x.ck ∧ t.mem = s.mem)) ∧
  (∀ f s x, s.tailish x = false → ready (.baton f) s x = true → ∀ bad,
    (∀ l, l ∈ bad ↔ l ∈ (cxOf (.baton f) s x).act ∧ ¬ lendsFrame f s x l) → bad ≠ [] → bad.Pairwise (· < ·) →
    ∃ t, exec (.baton f) s = .next t ∧ StoppedAs x t { cause := 11, pc := (s.run x).pc, mask := maskOf bad } ∧
      t.stack x = s.stack x ∧ RegsKept x [] [] s t ∧ (∀ k, (t.tail k).valid = (s.tail k).valid) ∧ t.cores = s.cores)

namespace Sys2Proof.Rule
/-- The commands whose completion the wave knows of (R16): those it knew of, and of the completed ones those that this wait or test shows;
a command is told of as long as a byte holds its write. -/
def Observes (x : Sel) (s t : State) (shows : Prior → Prop) : Prop :=
  ∀ c, c ∈ (t.wave x.wk).seen ↔ ∃ p ∈ (s.core x.ck).prior, (p.2.eng, p.2.cmd) = c ∧
    (c ∈ (s.wave x.wk).seen ∨ (p.2.done = true ∧ shows p.2))

/-- The instruction only goes on, and the wave may observe completions. -/
def OnlyObserves (i : Instr) (s : State) (x : Sel) (shows : Prior → Prop) : Prop :=
  ∃ t, exec i s = .next t ∧ RegsKept x [] [] s t ∧ FlagsKept x s t ∧ AluBut x s t (fun w v => { v with seen := w.seen }) ∧
    Observes x s t shows ∧ GoesOn x s t ∧ QueuesKept i x .none s t
end Sys2Proof.Rule

/-- R81, R96, R188, R190, R248: `fjoin` completes where the wave holds no live tail, and what ended tails stored is then performed; `waitc` completes where each counter of the context is at or below its limit
(a tail has only `ld` and `st`); otherwise the context waits, and nothing else changes. A `waitc` of a main context shows the completion of its
wave's commands: with `cp` at 0 of copy commands, and of the matrix items that `mx` counts, but for the last of them that it lets stand (R16, R306,
R333; log entry 79). -/
def Obligations.JoinsAndCounterWaits : Prop :=
  (∀ f s x, ready (.fjoin f) s x = true → inside s x = true →
    ((∀ k < 32, (s.tail (x.ck * 32 + k)).valid = true → (s.tail (x.ck * 32 + k)).wave ≠ x.wave) →
      ∃ t, exec (.fjoin f) s = .next t ∧ MemFrame (.fjoin f) x s t ∧ Uncounted x s t ∧ GoesOn x s t ∧
        (∀ e ∈ (t.wave x.wk).late, e.ctx ≠ 64) ∧ ((∀ e ∈ (s.wave x.wk).late, e.ctx ≠ 64) → OnlyAdvances (.fjoin f) s x)) ∧
    (∀ k < 32, (s.tail (x.ck * 32 + k)).valid = true → (s.tail (x.ck * 32 + k)).wave = x.wave → Waits (.fjoin f) s x)) ∧
  (∀ f s x, ready (.waitc f) s x = true → inside s x = true →
    let lim := fun c => match c with
      | Cnt.ld => f.imm.toNat % 64
      | .st => f.imm.toNat / 2 ^ 6 % 64
      | .cp => f.imm.toNat / 2 ^ 12 % 64
      | .mx => f.imm.toNat / 2 ^ 18 % 64
    ((∀ c, x.main = true ∨ c = .ld ∨ c = .st → s.count x c ≤ lim c) →
      (x.main = false → OnlyAdvances (.waitc f) s x) ∧
      (x.main = true → OnlyObserves (.waitc f) s x (fun p => p.wave = x.wave ∧
        (if p.eng = 4 then 1 ≤ p.no ∧ p.no + lim .mx ≤ (s.wave x.wk).mxNo else lim .cp = 0)))) ∧
    (∀ c, x.main = true ∨ c = .ld ∨ c = .st → lim c < s.count x c → Waits (.waitc f) s x))

/-! ## Queues and barriers (file 07) -/

namespace Sys2Proof.Rule
/-- R199 for name qn, apart from whether it is bound: the ring lies in the group's scratchpad and in thread-owned granules, overlaps no other ring of the
group, and has the DEPTH and DIR of the record that it joins, or finds a free one. -/
def mayJoin (s : State) (x : Sel) (qn base depth dir : Nat) : Prop :=
  let c := s.core x.ck
  let w := s.wave x.wk
  let g := s.groupOf x
  let a := g.sbase * 1024 + base
  base % 128 = 0 ∧ base + 4 * depth ≤ g.skib * 1024 - g.gwaves * g.cspill ∧
  (∀ k, a / 1024 ≤ k → k ≤ (a + 4 * depth - 1) / 1024 → FMap.get false c.owner k = false) ∧
  (∀ p ∈ c.queues, p.2.valid = true → p.2.gid = w.gid → p.2.base ≠ base →
    base + 4 * depth ≤ p.2.base ∨ p.2.base + 4 * p.2.depth ≤ base) ∧
  match c.joins w.gid base with
  | some (qi, r) => r.depth = depth ∧ r.dir = dir ∧ ∀ b ∈ w.binds, b.1 ≠ qn → bnd b.2 = true → bRec b.2 ≠ qi
  | none => (∃ k < 64, (FMap.get {} c.queues k).valid = false) ∧
      (dir ≠ 0 → ∀ p ∈ c.queues, p.2.valid = true → p.2.dir ≠ dir)

/-- R199: the binding breaks no condition. -/
def mayBind (f : XF) (s : State) (x : Sel) (base : Nat) : Prop :=
  bnd ((s.wave x.wk).bind f.qn) = false ∧ mayJoin s x f.qn base f.qDepth f.qDir

/-- What a binding of a role does to a record (R196, R199). -/
def QRecBound (r r' : QRec) (role : Nat) : Prop :=
  r' = { r with pcnt := r.pcnt + (if role = 1 ∨ role = 3 then 1 else 0), ccnt := r.ccnt + (if role = 2 ∨ role = 3 then 1 else 0)
                closed := if role = 1 ∨ role = 3 then false else r.closed }

/-- The whole wave stops with a cause, in no lane does anything take effect, and no core changes. -/
def WholeStop (i : Instr) (s : State) (x : Sel) (cause : Nat) : Prop :=
  ∃ t, exec i s = .next t ∧ StoppedAs x t { cause := cause, pc := (s.run x).pc, mask := (cxOf i s x).mask } ∧
    t.stack x = s.stack x ∧ RegsKept x [] [] s t ∧ FlagsKept x s t ∧ t.cores = s.cores ∧ t.mem = s.mem ∧
    (t.wave x.wk).binds = (s.wave x.wk).binds

/-- A binding is put back, and the queue records of other numbers are as before. -/
def OneRecord (x : Sel) (s t : State) (qi qn : Nat) : Prop :=
  (∀ k, k ≠ qi → FMap.get {} (t.core x.ck).queues k = FMap.get {} (s.core x.ck).queues k) ∧
  (∀ k, k ≠ qn → (t.wave x.wk).bind k = (s.wave x.wk).bind k) ∧ (t.core x.ck).pushes = (s.core x.ck).pushes ∧
  AluBut x s t (fun w v => { v with binds := w.binds }) ∧ RegsKept x [] [] s t ∧ FlagsKept x s t
end Sys2Proof.Rule

/-- R198 to R201: `qbind` joins the group's record at BASE or sets up the lowest free one, `qfree` ends a binding and frees the record of none,
`qstat` reads the record; what R199 and R200 exclude raises `QUEUE` for the wave. That `qfree` and `qstat` wait for the wave's own push under way
is log entry 59. -/
def Sys2Proof.Rule.QueueBindings : Prop :=
  (∀ f s x, ready (.qbind f) s x = true → inside s x = true →
    let base := src (.qbind f) s x .A f.a 1 (cxOf (.qbind f) s x).F
    let c := s.core x.ck
    let binds := fun (t : State) (qi : Nat) => (t.wave x.wk).bind f.qn = BitVec.ofNat 16 (2 ^ 15 + f.qRole * 2 ^ 13 + qi * 2 ^ 7)
    (¬ mayBind f s x base → WholeStop (.qbind f) s x 13) ∧
    (∀ qi r, mayBind f s x base → c.joins (s.wave x.wk).gid base = some (qi, r) →
      ∃ t, exec (.qbind f) s = .next t ∧ QRecBound r (FMap.get {} (t.core x.ck).queues qi) f.qRole ∧ binds t qi ∧
        OneRecord x s t qi f.qn ∧ GoesOn x s t) ∧
    (∀ qi, mayBind f s x base → c.joins (s.wave x.wk).gid base = none → qi < 64 → (FMap.get {} c.queues qi).valid = false →
      (∀ k < qi, (FMap.get {} c.queues k).valid = true) →
      ∃ t, exec (.qbind f) s = .next t ∧
        QRecBound { valid := true, dir := f.qDir, depth := f.qDepth, base := base, gid := (s.wave x.wk).gid }
          (FMap.get {} (t.core x.ck).queues qi) f.qRole ∧ binds t qi ∧ OneRecord x s t qi f.qn ∧ GoesOn x s t)) ∧
  (∀ f s x, ready (.qfree f) s x = true → inside s x = true →
    let b := (s.wave x.wk).bind f.qn
    let r := FMap.get {} (s.core x.ck).queues (bRec b)
    let p := if bRole b = 1 ∨ bRole b = 3 then 1 else 0
    let k := if bRole b = 2 ∨ bRole b = 3 then 1 else 0
    let last := r.pcnt + r.ccnt = p + k ∧ r.dir ≠ 0 ∧ s.mxNames x.ck (bRec b) = true
    (bnd b = false ∨ last → WholeStop (.qfree f) s x 13) ∧
    (bnd b = true → ¬ last → (s.core x.ck).pushing x.wave (bRec b) = true → Waits (.qfree f) s x) ∧
    (bnd b = true → ¬ last → (s.core x.ck).pushing x.wave (bRec b) = false →
      ∃ t, exec (.qfree f) s = .next t ∧ (t.wave x.wk).bind f.qn = b &&& 0x7FFF ∧
        FMap.get {} (t.core x.ck).queues (bRec b) =
          (if r.pcnt - p = 0 ∧ r.ccnt - k = 0 then { r with pcnt := 0, ccnt := 0, valid := false, count := 0 }
            else { r with pcnt := r.pcnt - p, ccnt := r.ccnt - k }) ∧
        OneRecord x s t (bRec b) f.qn ∧ GoesOn x s t)) ∧
  (∀ f s x, ready (.qstat f) s x = true → inside s x = true →
    let b := (s.wave x.wk).bind (f.mod.toNat % 32)
    let r := FMap.get {} (s.core x.ck).queues (bRec b)
    (bnd b = false → Computes (.qstat f) s x f.d 1 (fun _ => 0)) ∧
    (bnd b = true → (s.core x.ck).pushing x.wave (bRec b) = false → Computes (.qstat f) s x f.d 1 (fun _ =>
      2 ^ 31 + (if r.closed then 2 ^ 30 else 0) + r.dir * 2 ^ 28 + bRole b * 2 ^ 26 + r.count * 2 ^ 13 + r.pcnt * 2 ^ 8 + r.ccnt * 2 ^ 3 +
        (if s.mxp x.ck (bRec b) then 4 else 0))))

/-- R202, R204: the k-th pop of a queue takes the k-th element from HEAD on, or 0 and CLOSED where none is left; an element that is pushed stands
at TAIL. -/
def Sys2Proof.Rule.QueueElements : Prop :=
  (∀ (c : Core) qi, let r := FMap.get {} c.queues qi
    (0 < r.count → (c.pop qi).1 = c.scratchWord (c.ringAt r r.head) ∧
      FMap.get {} (c.pop qi).2.queues qi = { r with head := (r.head + 1) % r.depth, count := r.count - 1 } ∧
      (c.pop qi).2.scratch = c.scratch) ∧
    (r.count = 0 → (c.pop qi).1 = 0 ∧ FMap.get {} (c.pop qi).2.queues qi = { r with closed := true })) ∧
  (∀ (c : Core) qi v, let r := FMap.get {} c.queues qi
    (c.push qi v).scratchWord (c.ringAt r r.tail) = v ∧
      FMap.get {} (c.push qi v).queues qi = { r with tail := (r.tail + 1) % r.depth, count := r.count + 1 } ∧
      ∀ a, a < c.ringAt r r.tail ∨ c.ringAt r r.tail + 4 ≤ a → FMap.get 0 (c.push qi v).scratch a = FMap.get 0 c.scratch a) ∧
  (∀ i s x, ready i s x = true → ∀ p ∈ popFields (s.wave x.wk) i.uses,
    let r := FMap.get {} (s.core x.ck).queues p.2
    (popLanes i s x).length * ((popFields (s.wave x.wk) i.uses).filter (fun q => q.2 == p.2)).length ≤ r.count ∨
      (r.pcnt = 0 ∧ s.mxp x.ck p.2 = false))

/-- R196 to R205: queue bindings, and what queues hold. That `qfree` and `qstat` wait for the wave's own push is the model's reading (log entry 59). -/
def Obligations.Queues : Prop := Sys2Proof.Rule.QueueBindings ∧ Sys2Proof.Rule.QueueElements

namespace Sys2Proof.Rule
/-- Advance of R213. -/
def advanced (b : Bar) : Bar := { b with phase := b.phase + 1, arr := b.exparr, bytes := 0, rwait := false }
/-- A phase with no arrival and no byte outstanding completes (R213, of a barrier whose cluster lies on one die). -/
def completed (b : Bar) : Bar := if b.arr = 0 ∧ b.bytes = 0 then advanced b else b

/-- A barrier whose cluster does not straddle, with no arrival held, between phases or within one. -/
def plainBar (s : State) (ck i : Nat) : Prop :=
  s.otherHome ck i = none ∧ (∀ h ∈ (s.core ck).held, h.bar ≠ i) ∧ (s.bar ck i).exparr ≠ 0 ∧ (s.bar ck i).rwait = false

/-- What a wave holds, but whether it is blocked on a barrier. -/
def offBar (w : Wave) : Wave := { w with main := { w.main with onBar := none } }

/-- Only the barrier record, besides what an instruction that goes on changes, the release of waves that were blocked on the barrier, and
stores that are performed. -/
structure BarFrame (x : Sel) (ck i : Nat) (s t : State) : Prop where
  rest : t = { s with
    waves := t.waves, cores := t.cores, tails := t.tails, tick := t.tick, mem := t.mem, cells := t.cells, empties := t.empties
    regions := t.regions, defer := t.defer, absent := t.absent }
  quiet : Performed x s → t.mem = s.mem ∧ t.cells = s.cells ∧ (s.absent = [] → t.empties = s.empties) ∧ ∀ k, (t.core k).scratch = (s.core k).scratch
  waves : ∀ k, k ≠ x.wk → offBar (t.wave k) = offBar (s.wave k)
  own : { (t.wave x.wk).calm with seen := (s.wave x.wk).seen } = (s.wave x.wk).calm
  counts : Uncounted x s t
  cores : ∀ k, { (t.core k).calm with bars := [] } = { (s.core k).calm with bars := [] }
  bars : ∀ k j, (k, j) ≠ (ck, i) → t.bar k j = s.bar k j
  tails : t.tails = s.tails
  flags : FlagsKept x s t

/-- The wave cannot name the barrier (R212). -/
def NotNamed (mk : XF → Instr) : Prop :=
  ∀ f s x, ready (mk f) s x = true → s.barAt x f.bidx f.clu = none → WholeStop (mk f) s x 14
/-- The token of a wait: bits 15:0 of A in lane F (R214). -/
def tokenOf (i : Instr) (f : XF) (s : State) (x : Sel) : Half := .ofNat 16 (src i s x .A f.a 1 (cxOf i s x).F)

/-- A command whose arrival counted in the phase of a token, or in one before it, of a barrier whose phase is now `now` (log entry 79). -/
def inPhase (ck i : Nat) (now tok : Half) (p : Prior) : Prop :=
  ∃ q, p.mark = some (256 * ck + i, q) ∧ (tok - q).toNat < 2 ^ 15 ∧ (now - 1 - q).toNat < 2 ^ 15

/-- The wave has no part of this instruction behind it. -/
def afresh (s : State) (x : Sel) : Prop := ∀ n, (s.wave x.wk).div.can ≠ some ((s.run x).pc, n)
end Sys2Proof.Rule

/-- R209, R211 to R214: initialising, arriving at, expecting, waiting on and testing a barrier. Each takes effect once for the wave; an
arrival gives the PHASE in force, and what its context stored before is performed by then. A wait or test that finds the phase over shows the
completions that it counted. An arrival that would be held waits while the wave holds one already (log entry 15), with its Expect done. -/
def Sys2Proof.Rule.BarrierOperations : Prop :=
  (∀ f s x ck i, ready (.barInit f) s x = true → inside s x = true → s.barAt x f.bidx f.clu = some (ck, i) →
    let b := s.bar ck i
    (s.blockedOn ck i = true ∨ b.arr ≠ b.exparr ∨ b.bytes ≠ 0 ∨ b.rwait = true → WholeStop (.barInit f) s x 14) ∧
    (s.blockedOn ck i = false → b.arr = b.exparr → b.bytes = 0 → b.rwait = false →
      ∃ t, exec (.barInit f) s = .next t ∧ t.bar ck i = { b with exparr := f.count, arr := f.count } ∧ BarFrame x ck i s t ∧
        (t.wave x.wk).seen = (s.wave x.wk).seen ∧ RegsKept x [] [] s t ∧ GoesOn x s t)) ∧
  (∀ f s x ck i, ready (.barArrive f) s x = true → inside s x = true → s.barAt x f.bidx f.clu = some (ck, i) →
    let cx := cxOf (.barArrive f) s x
    let b := s.bar ck i
    plainBar s ck i → b.arr ≠ 0 →
      ∃ t, exec (.barArrive f) s = .next t ∧ t.bar ck i = completed { b with arr := b.arr - 1 } ∧
        Gets cx f.d 1 cx.act (fun _ => b.phase.toNat) s t ∧ RegsKept x (destCodes f.d 1) cx.act s t ∧ BarFrame x ck i s t ∧
        (t.wave x.wk).seen = (s.wave x.wk).seen ∧ Performed x t ∧ GoesOn x s t) ∧
  (∀ f s x ck i, ready (.barArrive f) s x = true → inside s x = true → s.barAt x f.bidx f.clu = some (ck, i) →
    let b := s.bar ck i
    (b.arr = 0 ∨ b.rwait = true) → (s.wave x.wk).heldarr.getLsbD 15 = false →
      ∃ t, exec (.barArrive f) s = .next t ∧ (t.core ck).held = (s.core ck).held ++ [⟨i, some x.wk, 1, 0⟩] ∧ t.bar ck i = b ∧
        (t.wave x.wk).heldarr = .ofNat 16 (2 ^ 15 + f.bidx) ∧ RegsKept x [] [] s t ∧ GoesOn x s t) ∧
  (∀ f s x ck i, ready (.barExpect f) s x = true → inside s x = true → s.barAt x f.bidx f.clu = some (ck, i) →
    let cx := cxOf (.barExpect f) s x
    let n := src (.barExpect f) s x .A f.a 1 cx.F
    let b := s.bar ck i
    let b1 : Bar := if n = 0 then b else completed { b with bytes := b.bytes + .ofNat 32 n }
    afresh s x →
    ((2 : Int) ^ 31 ≤ b.bytes.toInt + n → WholeStop (.barExpect f) s x 14) ∧
    (b.bytes.toInt + n < (2 : Int) ^ 31 → plainBar s ck i → f.arv = false →
      ∃ t, exec (.barExpect f) s = .next t ∧ t.bar ck i = b1 ∧ RegsKept x [] [] s t ∧ BarFrame x ck i s t ∧
        (t.wave x.wk).seen = (s.wave x.wk).seen ∧ GoesOn x s t) ∧
    (b.bytes.toInt + n < (2 : Int) ^ 31 → plainBar s ck i → f.arv = true → b1.arr ≠ 0 →
      ∃ t, exec (.barExpect f) s = .next t ∧ t.bar ck i = completed { b1 with arr := b1.arr - 1 } ∧
        Gets cx f.d 1 cx.act (fun _ => b1.phase.toNat) s t ∧ RegsKept x (destCodes f.d 1) cx.act s t ∧ BarFrame x ck i s t ∧
        (t.wave x.wk).seen = (s.wave x.wk).seen ∧ GoesOn x s t) ∧
    (b.bytes.toInt + n < (2 : Int) ^ 31 → plainBar s ck i → f.arv = true → b1.arr = 0 → (s.wave x.wk).heldarr.getLsbD 15 = true →
      ∃ t, exec (.barExpect f) s = .next t ∧ t.bar ck i = b1 ∧ (t.ctx x).blk.isSome = true ∧
        (t.wave x.wk).div.can = some ((s.run x).pc, 0) ∧ t.stack x = s.stack x ∧ RegsKept x [] [] s t ∧ BarFrame x ck i s t)) ∧
  (∀ f s x ck i m, ready (.barExpect f) s x = true → inside s x = true → s.barAt x f.bidx f.clu = some (ck, i) →
    let cx := cxOf (.barExpect f) s x
    let b := s.bar ck i
    (s.wave x.wk).div.can = some ((s.run x).pc, m) → f.arv = true → plainBar s ck i →
    (b.arr = 0 → (s.wave x.wk).heldarr.getLsbD 15 = true → Waits (.barExpect f) s x) ∧
    (b.arr ≠ 0 → ∃ t, exec (.barExpect f) s = .next t ∧ t.bar ck i = completed { b with arr := b.arr - 1 } ∧
      Gets cx f.d 1 cx.act (fun _ => b.phase.toNat) s t ∧ RegsKept x (destCodes f.d 1) cx.act s t ∧ GoesOn x s t)) ∧
  (∀ f s x ck i, ready (.barWait f) s x = true → inside s x = true → s.barAt x f.bidx f.clu = some (ck, i) →
    ((s.bar ck i).phase ≠ tokenOf (.barWait f) f s x →
      OnlyObserves (.barWait f) s x (inPhase ck i (s.bar ck i).phase (tokenOf (.barWait f) f s x))) ∧
    ((s.bar ck i).phase = tokenOf (.barWait f) f s x → Waits (.barWait f) s x)) ∧
  (∀ f s x ck i, ready (.barTest f) s x = true → inside s x = true → s.barAt x f.bidx f.clu = some (ck, i) →
    let cx := cxOf (.barTest f) s x
    let tok := tokenOf (.barTest f) f s x
    ((s.bar ck i).phase = tok → Computes (.barTest f) s x f.d 1 (fun _ => 0)) ∧
    ((s.bar ck i).phase ≠ tok → ∃ t, exec (.barTest f) s = .next t ∧ Gets cx f.d 1 cx.act (fun _ => 1) s t ∧
      RegsKept x (destCodes f.d 1) cx.act s t ∧ FlagsKept x s t ∧ AluBut x s t (fun w v => { v with seen := w.seen }) ∧
      Observes x s t (inPhase ck i (s.bar ck i).phase tok) ∧ GoesOn x s t ∧ QueuesKept (.barTest f) x f.d s t)) ∧
  NotNamed .barInit ∧ NotNamed .barArrive ∧ NotNamed .barExpect ∧ NotNamed .barWait ∧ NotNamed .barTest ∧ NotNamed .barSync

/-- R213 to R216: `bar.sync` arrives once and waits on its own token; the arrival that completes a phase goes on at once. The completion of a
straddling cluster's barrier waits for the other home. -/
def Sys2Proof.Rule.BarrierSync : Prop :=
  (∀ f s x ck i, ready (.barSync f) s x = true → inside s x = true → s.barAt x f.bidx f.clu = some (ck, i) →
    let b := s.bar ck i
    (s.ctx x).sync = none → (s.wave x.wk).heldarr = 0 → plainBar s ck i →
    (b.arr = 1 → b.bytes = 0 → ∃ t, exec (.barSync f) s = .next t ∧ t.bar ck i = advanced { b with arr := 0 } ∧
      BarFrame x ck i s t ∧ Observes x s t (inPhase ck i (b.phase + 1) b.phase) ∧ Performed x t ∧ RegsKept x [] [] s t ∧ GoesOn x s t) ∧
    (2 ≤ b.arr → ∃ t, exec (.barSync f) s = .next t ∧ t.bar ck i = { b with arr := b.arr - 1 } ∧
      (t.ctx x).sync = some (some b.phase) ∧ (t.ctx x).blk.isSome = true ∧ (t.ctx x).onBar = some (256 * ck + i) ∧
      t.stack x = s.stack x ∧ RegsKept x [] [] s t)) ∧
  (∀ f s x ck i ph, ready (.barSync f) s x = true → inside s x = true → s.barAt x f.bidx f.clu = some (ck, i) →
    (s.ctx x).sync = some (some ph) →
    ((s.bar ck i).phase = ph → Performed x s → Waits (.barSync f) s x) ∧
    ((s.bar ck i).phase ≠ ph → ∃ t, exec (.barSync f) s = .next t ∧ (t.ctx x).sync = none ∧ RegsKept x [] [] s t ∧ FlagsKept x s t ∧
      GoesOn x s t ∧ Observes x s t (inPhase ck i (s.bar ck i).phase ph) ∧
      (Performed x s → AluBut x s t (fun w v => { v with seen := w.seen, main := { v.main with sync := w.main.sync } })))) ∧
  (∀ f s x ck i o, ready (.barArrive f) s x = true → inside s x = true → s.barAt x f.bidx f.clu = some (ck, i) →
    let b := s.bar ck i
    s.otherHome ck i = some o → (∀ h ∈ (s.core ck).held, h.bar ≠ i) → b.arr = 1 → b.bytes = 0 → b.rwait = false → b.dones = 0 →
    ∃ t, exec (.barArrive f) s = .next t ∧ GoesOn x s t ∧
      t.bar ck i = { b with arr := 0, rwait := true, sent := b.sent ++ [(s.die (ck / 99)).watch.toNat] })

/-- R209 to R216: the barrier instructions. What a wait shows of earlier commands is log entry 79, and a held arrival before a further one log entry 15. -/
def Obligations.Barriers : Prop := Sys2Proof.Rule.BarrierOperations ∧ Sys2Proof.Rule.BarrierSync

/-! ## The copy engine and the matrix unit (files 09 to 12) -/

namespace Sys2Proof.Rule
/-- As `AluFrame`, but for what is put back into the wave and into its core. -/
def AluButBoth (x : Sel) (s t : State) (w : Wave → Wave → Wave) (c : Core → Core → Core) : Prop :=
  AluFrame x s ((t.modWave x.wk (w (s.wave x.wk))).modCore x.ck (c (s.core x.ck)))

/-- As `MemFrameD`, but for what is put back into the wave and into its core. -/
def MemButBoth (i : Instr) (codes lanes : List Nat) (x : Sel) (s t : State) (w : Wave → Wave → Wave) (c : Core → Core → Core) : Prop :=
  MemFrameD i codes lanes x s ((t.modWave x.wk (w (s.wave x.wk))).modCore x.ck (c (s.core x.ck)))

/-- What this instruction, a cancel, has counted before it was interrupted (R300, R332). -/
def cancelledSoFar (s : State) (x : Sel) : Nat :=
  match (s.wave x.wk).div.can with
  | some (pc, n) => if pc = (s.run x).pc then n else 0
  | none => 0

/-- The end pointer of a command that enters a channel (R289): the sum of all that is to be added to IP before it, and its own. -/
def endPointer (c : Chan) (nb : Nat) : Word :=
  c.ip + ((c.cmds.filter (fun k => !k.read)).map (fun k => BitVec.ofNat 32 k.nb)).sum + .ofNat 32 nb

/-- The start coordinates that registers give (R293). -/
def coords (f : XF) (s : State) (x : Sel) (F : Nat) : List Int :=
  (List.range f.nc).map (fun i => (BitVec.ofNat 32 ((s.wave x.wk).regN (rnum f.b + i) F 1)).toInt)

/-- A copy command is issued (R288 to R290). -/
def CopyIssue (mk : XF → Instr) (kind : Nat) : Prop :=
  ∀ f s x, ready (mk f) s x = true → inside s x = true →
    let cx := cxOf (mk f) s x
    let c := s.chan x.ck f.ch
    let bar := if f.barv then s.barAt x f.cBar f.cClu else none
    (f.barv = true → bar = none → WholeStop (mk f) s x 14) ∧
    ((f.barv = true → bar ≠ none) → (16 ≤ c.cmds.length ∨ s.engAhead x f.ch = true) → Waits (mk f) s x) ∧
    ((f.barv = true → bar ≠ none) → c.cmds.length < 16 → s.engAhead x f.ch = false →
      let r := (s.publish x).readRecord (s.agent x) kind (src (mk f) s x .A f.a 2 cx.F) (coords f s x cx.F) (s.groupOf x).sd
      ∃ t k, exec (mk f) s = .next t ∧ t.chan x.ck f.ch = { c with entering := c.entering ++ [k] } ∧
        (∀ ch, ch ≠ f.ch → t.chan x.ck ch = s.chan x.ck ch) ∧
        k.kind = kind ∧ k.wave = x.wave ∧ k.gid = (s.wave x.wk).gid ∧ k.bar = bar ∧ k.gslot = (if f.gv then some f.gslot else none) ∧
        k.res = none ∧ k.read = false ∧ k.started = false ∧ k.lines = 0 ∧ k.cancel = false ∧
        (∀ p, r = .ok p → k.code = 0 ∧ k.shape = p ∧ k.nb = p.nb) ∧ (∀ e, r = .error e → k.code = e.1 ∧ k.faddr = e.2 ∧ k.nb = 0) ∧
        k.e = endPointer c k.nb ∧ k.obs = (s.wave x.wk).seen ∧ t.count x .cp = s.count x .cp + 1 ∧
        (∀ n, n ≠ .cp → t.count x n = s.count x n) ∧ Gets cx f.d 1 cx.act (fun _ => k.e.toNat) s t ∧ Performed x t ∧
        MemButBoth (mk f) (destCodes f.d 1) cx.act x s t (fun w v => { v with cp := w.cp, engd := w.engd })
          (fun w v => { v with chans := w.chans }) ∧
        (Performed x s → NoStore s t) ∧ GoesOn x s t)

/-- All active lanes stop with a cause at one address, and nothing takes effect. -/
def AllStop (i : Instr) (s : State) (x : Sel) (cause : Nat) (a : Addr) : Prop :=
  ∃ t, exec i s = .next t ∧ StoppedAs x t { cause := cause, pc := (s.run x).pc, mask := (cxOf i s x).mask
                                            faddr := (cxOf i s x).act.map (fun l => (l, a)) } ∧
    t.stack x = s.stack x ∧ RegsKept x [] [] s t ∧ t.cores = s.cores ∧ t.mem = s.mem
end Sys2Proof.Rule

/-- R288 to R290, R299 to R303: copy commands read their record, enter their channel with their end pointer and count on `cp`; `cpywp`, `cpyx` and `cpyst`;
`own` flips the owner bits of granules, unless a check fails. -/
def Obligations.CopyInstructions : Prop :=
  CopyIssue .cpy 0 ∧ CopyIssue .cpys 1 ∧ CopyIssue .cpyd 2 ∧
  (∀ f s x, ready (.cpywp f) s x = true → inside s x = true →
    let a := src (.cpywp f) s x .A f.a 1 (cxOf (.cpywp f) s x).F
    let ahead := ((s.chan x.ck f.ch).wp - BitVec.ofNat 32 a).toNat
    (ahead < 2 ^ 31 → OnlyAdvances (.cpywp f) s x) ∧ (2 ^ 31 ≤ ahead → Waits (.cpywp f) s x)) ∧
  (∀ f s x, ready (.cpyx f) s x = true → inside s x = true →
    let own := (s.chan x.ck f.ch).cmds.filter (fun k => decide (k.wave = x.wave))
    (own = [] → ∃ t, exec (.cpyx f) s = .next t ∧
      Gets (cxOf (.cpyx f) s x) f.d 1 (cxOf (.cpyx f) s x).act (fun _ => cancelledSoFar s x) s t ∧ (t.wave x.wk).div.can = none ∧
      RegsKept x (destCodes f.d 1) (cxOf (.cpyx f) s x).act s t ∧ FlagsKept x s t ∧ AluFrame x s t ∧ GoesOn x s t) ∧
    (own ≠ [] → ∃ t, exec (.cpyx f) s = .next t ∧
      (t.wave x.wk).div.can = some ((s.run x).pc, (own.filter (fun k => !k.cancel)).length + cancelledSoFar s x) ∧
      (t.chan x.ck f.ch).cmds = (s.chan x.ck f.ch).cmds.map (fun k => if k.wave = x.wave then { k with cancel := true } else k) ∧
      (t.ctx x).blk.isSome = true ∧ t.stack x = s.stack x ∧ RegsKept x [] [] s t ∧ t.mem = s.mem)) ∧
  (∀ f s x, ready (.cpyst f) s x = true → inside s x = true →
    let unread := ∃ ch < 4, ∃ k ∈ (s.chan x.ck ch).cmds, k.wave = x.wave ∧ k.read = false
    (f.e 0 0 = 1 → Computes (.cpyst f) s x f.d 1 (fun _ => (s.wave x.wk).cperr.toNat)) ∧
    (f.e 0 0 = 0 → ¬ unread → Computes (.cpyst f) s x f.d 1 (fun _ => (s.chan x.ck f.ch).ip.toNat)) ∧
    (f.e 0 0 = 0 → unread → Waits (.cpyst f) s x)) ∧
  (∀ f s x, ready (.own f) s x = true → inside s x = true →
    let a := src (.own f) s x .A f.a 1 (cxOf (.own f) s x).F
    let base := (s.groupOf x).sbase * 1024 + a
    let n := f.ownN
    let sd := (s.groupOf x).skib * 1024 - (s.groupOf x).gwaves * (s.groupOf x).cspill
    let covered := ∃ i < n, (s.core x.ck).covered (base + 1024 * i) = true
    let rings := ∃ i < n, (s.core x.ck).inRing (base + 1024 * i) 1024 = true
    (a % 1024 ≠ 0 → AllStop (.own f) s x 5 (.ofNat 57 a)) ∧
    (a % 1024 = 0 → sd < a + 1024 * n → AllStop (.own f) s x 8 (.ofNat 57 a)) ∧
    (a % 1024 = 0 → a + 1024 * n ≤ sd → f.toEng = false → covered → AllStop (.own f) s x 12 (.ofNat 57 a)) ∧
    (a % 1024 = 0 → a + 1024 * n ≤ sd → f.toEng = true → rings → WholeStop (.own f) s x 13) ∧
    (a % 1024 = 0 → a + 1024 * n ≤ sd → (f.toEng = false → ¬ covered) → (f.toEng = true → ¬ rings) →
      ∃ t, exec (.own f) s = .next t ∧
        (∀ k, FMap.get false (t.core x.ck).owner k =
          if base / 1024 ≤ k ∧ k < base / 1024 + n then f.toEng else FMap.get false (s.core x.ck).owner k) ∧
        RegsKept x [] [] s t ∧ FlagsKept x s t ∧ GoesOn x s t ∧ (t.wave x.wk).late = [] ∧
        ((s.wave x.wk).late = [] → AluButCore x s t (fun w v => { v with owner := w.owner, prior := w.prior }))))

namespace Sys2Proof.Rule
/-- b_i of element t (R293). -/
def digit (p : CopyShape) (t i : Nat) : Nat :=
  t / ((p.dims.take i).map CopyDim.box).prod % ((p.dims[i]?).getD ⟨0, 0, 0, 0, 1⟩).box

/-- R291 to R295: the shape that a record gives, the place of an element, and the bank permutation. -/
def CopyShapes : Prop :=
  (∀ kind h ds cs p, shapeOf kind h ds cs = some p →
    p.nb = p.u * (p.dims.map CopyDim.box).prod ∧ p.nb ≤ 2 ^ 20 ∧ p.soff % 128 = 0 ∧ (p.swz ≠ 0 → p.nb % 128 = 0) ∧
    p.dims.length = ds.length ∧ (∀ d ∈ p.dims, 1 ≤ d.box ∧ d.box ≤ 65536 ∧ d.str.natAbs < 2 ^ 56) ∧
    (kind ≠ 2 → p.u = p.e ∧ p.e ∈ [1, 2, 4, 8]) ∧ (kind = 2 → p.e = 64 ∧ 0 < p.u)) ∧
  (∀ (p : CopyShape) t,
    let c := fun i => ((p.dims[i]?).getD ⟨0, 0, 0, 0, 1⟩).start + digit p t i
    (p.elem t).2 = p.gaddr + ((List.range p.dims.length).map (fun i => c i * ((p.dims[i]?).getD ⟨0, 0, 0, 0, 1⟩).str)).sum ∧
    ((p.elem t).1 = true ↔ ∀ i < p.dims.length, ((p.dims[i]?).getD ⟨0, 0, 0, 0, 1⟩).clo ≤ c i ∧
      c i < ((p.dims[i]?).getD ⟨0, 0, 0, 0, 1⟩).chi)) ∧
  (∀ swz x, swz < 4 →
    let m := if swz = 0 then 0 else if swz = 1 then 1 else if swz = 2 then 3 else 7
    perm swz x = x / 128 * 128 + Nat.xor (x / 16 % 8) (Nat.land (x / 128) m) * 16 + x % 16) ∧
  (∀ swz x, perm swz x / 128 = x / 128 ∧ perm swz x % 16 = x % 16 ∧ perm swz (perm swz x) = x)

/-- The channel of a core. -/
def chanOf (s : State) (die core ch : Nat) : Chan := s.chan (coreKey die core) ch

/-- The head of a channel completes (R296): WP is its end pointer, and the wave's `cp` falls. -/
def HeadDone (s t : State) (die core ch : Nat) (k : CopyCmd) (r : List CopyCmd) : Prop :=
  chanOf t die core ch = { chanOf s die core ch with queue := r, wp := k.e } ∧
    (t.wave (waveKey die core k.wave)).cp = (s.wave (waveKey die core k.wave)).cp - 1

/-- The value of in-bounds element j of the next line of a `cpy` or `cpyd`: what it held at issue (R306), or what it holds now where it could not
be read then (log entry 75). -/
def elemNow (s : State) (die core : Nat) (k : CopyCmd) (j : Nat) : Nat :=
  match (k.snap.drop (j - (128 * k.lines + k.shape.u - 1) / k.shape.u)).headD none with
  | some p => p.2
  | none => match s.elemAt (s.agent ⟨die, core, k.wave, 63⟩) (k.shape.elem j).2 k.shape.e .rd with
    | .ok l => s.readLoc (s.agent ⟨die, core, k.wave, 63⟩) l k.shape.e
    | .error _ => 0

/-- The byte that tile offset o of a `cpy` takes (R293): of the element's value, or of FILL where it is out of bounds. -/
def tileByte (s : State) (die core : Nat) (k : CopyCmd) (o : Nat) : Byte :=
  let j := o / k.shape.u
  .ofNat 8 ((if (k.shape.elem j).1 = true then elemNow s die core k j else k.shape.fill) / 2 ^ (8 * (o % k.shape.u)))

/-- Every in-bounds element whose tile bytes begin in the next line may be accessed. -/
def lineMay (s : State) (die core : Nat) (k : CopyCmd) (n : Nat) (need : Need) : Prop :=
  ∀ j, 128 * k.lines ≤ j * k.shape.u → j * k.shape.u < n → (k.shape.elem j).1 = true →
    ∃ l, s.elemAt (s.agent ⟨die, core, k.wave, 63⟩) (k.shape.elem j).2 k.shape.e need = .ok l

/-- The line that ends at byte n is delivered: WP passes it, or the command completes. -/
def LineEnds (s t : State) (die core ch : Nat) (k : CopyCmd) (r : List CopyCmd) (n : Nat) : Prop :=
  (n < k.nb → (chanOf t die core ch).wp = k.e - .ofNat 32 k.nb + .ofNat 32 n ∧
    (t.wave (waveKey die core k.wave)).cp = (s.wave (waveKey die core k.wave)).cp) ∧
  (n = k.nb → (chanOf t die core ch).queue.length = r.length ∧ (chanOf t die core ch).wp = k.e ∧
    (t.wave (waveKey die core k.wave)).cp = (s.wave (waveKey die core k.wave)).cp - 1)

/-- R292, R293, R295 to R297: the bytes that elements of a `cpy` or `cpyd` give, in order up to the first that may not be accessed. -/
def ElementsIn : Prop :=
  (∀ (s : State) ag k (sn : List (Option (Nat × Nat))), s.elemsIn ag k [] sn = (s, [], none)) ∧
  (∀ (s : State) ag k t r sn, (k.shape.elem t).1 = false →
    let u := s.elemsIn ag k r (sn.drop 1)
    s.elemsIn ag k (t :: r) sn = (u.1, k.shape.fillBytes k.kind ++ u.2.1, u.2.2)) ∧
  (∀ (s : State) ag k t r sn e, (k.shape.elem t).1 = true → s.elemAt ag (k.shape.elem t).2 k.shape.e .rd = .error e →
    s.elemsIn ag k (t :: r) sn = (s, [], some e)) ∧
  (∀ (s : State) ag k t r sn l, (k.shape.elem t).1 = true → s.elemAt ag (k.shape.elem t).2 k.shape.e .rd = .ok l →
    let v := match sn.headD none with | some p => p.2 | none => s.readLoc ag l k.shape.e
    (∀ b, (k.kind ≠ 2 ∧ b = toBytes k.shape.e v ∨ k.kind = 2 ∧ blockBytes k.shape.dfmt k.shape.epb v = some b) →
      let u := (s.touch ag (k.shape.elem t).2.toNat l).elemsIn ag k r (sn.drop 1)
      s.elemsIn ag k (t :: r) sn = (u.1, b ++ u.2.1, u.2.2)) ∧
    (k.kind = 2 → blockBytes k.shape.dfmt k.shape.epb v = none →
      s.elemsIn ag k (t :: r) sn = (s, [], some (6, (k.shape.elem t).2.toNat)))) ∧
  (∀ (p : CopyShape) kind, p.fillBytes kind =
    if kind ≠ 2 then (List.range p.e).map (fun i => .ofNat 8 (p.fill / 2 ^ (8 * i)))
    else if p.dfmt = 9 then (List.range 64).map (fun i => .ofNat 8 (p.fill / 2 ^ (8 * (i % 8))))
    else (List.range (p.epb * dfmtBytes p.dfmt)).map (fun i => .ofNat 8 (p.fill / 2 ^ (8 * (i % dfmtBytes p.dfmt))))) ∧
  (∀ b : Nat, ∀ epb, blockBytes 9 epb b = some ((List.range 64).map (fun i => .ofNat 8 (b / 2 ^ (8 * i))))) ∧
  (∀ (b : Nat) dfmt epb, dfmt ≠ 9 → blockBytes dfmt epb b = (if (blockRaw b).length = epb then
    some ((blockRaw b).flatMap (fun q => (List.range (dfmtBytes dfmt)).map (fun i => .ofNat 8 (blockConvert dfmt (blockScale b) q / 2 ^ (8 * i)))))
    else none))

/-- R293, R296, R304: the elements of a `cpys` are stored one after the other, up to the first that may not be accessed; what no other engine wrote
unobserved is read as it stands (R16). -/
def ElementsOut : Prop :=
  (∀ (s : State) ag ck ch k a b, s.elemsOut ag ck ch k (a ++ b) = (match s.elemsOut ag ck ch k a with
    | (t, none) => t.elemsOut ag ck ch k b
    | (t, some e) => (t, some e))) ∧
  (∀ (s : State) ag ck ch k t, (k.shape.elem t).1 = false → s.elemsOut ag ck ch k [t] = (s, none)) ∧
  (∀ (s : State) ag ck ch k t e, (k.shape.elem t).1 = true → s.elemAt ag (k.shape.elem t).2 k.shape.e .wr = .error e →
    s.elemsOut ag ck ch k [t] = (s, some e)) ∧
  (∀ (s : State) ag ck ch k t l, (k.shape.elem t).1 = true → s.elemAt ag (k.shape.elem t).2 k.shape.e .wr = .ok l →
    let c := s.core ck
    let tile := fun i => c.tileBase k + perm k.shape.swz (t * k.shape.u + i)
    (∀ i < k.shape.e, ∀ p ∈ c.prior, p.1 = tile i → p.2.free ch k.obs = false) →
    let u := s.elemsOut ag ck ch k [t]
    u.2 = none ∧ (Paged s → (∀ pa, l = .phys pa → pa % k.shape.e = 0) → k.shape.e ∈ [1, 2, 4, 8] →
      Stored s u.1 k.shape.e [(.glob l, ofBytes ((List.range k.shape.e).map (fun i => FMap.get 0 c.scratch (tile i))))]))

/-- R288, R289, R293, R296, R298, R304: the moves of a channel. That an element is read when the command runs, with the value that it had at issue,
is log entry 75. -/
def CopyMoves : Prop :=
  (∀ die core ch s k r, (chanOf s die core ch).entering = k :: r → (chanOf s die core ch).queue.length < 16 →
    ∃ t, exec (.copyChannelEnter die core ch) s = .next t ∧
      chanOf t die core ch = { chanOf s die core ch with entering := r, queue := (chanOf s die core ch).queue ++ [k] } ∧
      t = { s with cores := t.cores } ∧ ∀ j, j ≠ coreKey die core → t.core j = s.core j) ∧
  (∀ die core ch s a k b, (chanOf s die core ch).queue = a ++ k :: b → (∀ j ∈ a, j.read = true) → k.read = false →
    ∃ t, exec (.copyRecordRead die core ch) s = .next t ∧
      chanOf t die core ch = { chanOf s die core ch with ip := k.e, queue := a ++ { k with read := true } :: b } ∧
      (∀ n, k.dst = some n → (t.wave (waveKey die core k.wave)).engd = (s.wave (waveKey die core k.wave)).engd.erase n) ∧
      t = { s with cores := t.cores, waves := t.waves }) ∧
  (∀ die core ch s k r, (chanOf s die core ch).queue = k :: r → k.read = true → k.dropped = true →
    ∃ t, exec (.copyHeadStart die core ch) s = .next t ∧ HeadDone s t die core ch k r ∧ t.mem = s.mem) ∧
  (∀ die core ch s k r, (chanOf s die core ch).queue = k :: r → k.read = true → k.dropped = false → k.started = false → k.code = 0 →
    (k.gslot = none ∨ k.res ≠ none) →
    ∃ t, exec (.copyHeadStart die core ch) s = .next t ∧
      chanOf t die core ch = { chanOf s die core ch with queue := { k with started := true, born := (s.die die).watch.toNat } :: r } ∧ t = { s with cores := t.cores }) ∧
  (∀ die core ch s k r, (chanOf s die core ch).queue = k :: r → k.started = true → k.dropped = false → k.kind = 0 →
    k.carry = [] → k.shape.u = k.shape.e → k.shape.e ∈ [1, 2, 4, 8] → k.shape.e ∣ k.nb → 128 * k.lines < k.nb →
    let c := s.core (coreKey die core)
    let n := min (128 * (k.lines + 1)) k.nb
    FMap.get false c.owner ((c.tileBase k + 128 * k.lines) / 1024) = true →
    lineMay s die core k n .rd →
    (∀ o p, 128 * k.lines ≤ o → o < n → c.prior.find? (c.tileBase k + perm k.shape.swz o) = some p → p.free ch k.obs = false) →
    ∃ t, exec (.copyLineDeliver die core ch) s = .next t ∧ t.mem = s.mem ∧
      (∀ o, 128 * k.lines ≤ o → o < n →
        FMap.get 0 (t.core (coreKey die core)).scratch (c.tileBase k + perm k.shape.swz o) = tileByte s die core k o) ∧
      LineEnds s t die core ch k r n ∧ (n = k.nb → HeadDone s t die core ch k r)) ∧
  (∀ die core ch s k r, (chanOf s die core ch).queue = k :: r → k.started = true → k.dropped = false → k.kind ≠ 1 →
    let c := s.core (coreKey die core)
    let n := min (128 * (k.lines + 1)) k.nb
    let els := s.elemsIn (s.agent ⟨die, core, k.wave, 63⟩) k k.lineElems k.snap
    let bs := k.carry ++ els.2.1
    FMap.get false c.owner ((c.tileBase k + 128 * k.lines) / 1024) = true → els.2.2 = none → 128 * k.lines < n →
    (∀ o p, 128 * k.lines ≤ o → o < n → c.prior.find? (c.tileBase k + perm k.shape.swz o) = some p → p.free ch k.obs = false) →
    ∃ t, exec (.copyLineDeliver die core ch) s = .next t ∧ t.mem = s.mem ∧ LineEnds s t die core ch k r n ∧
      (∀ i v, i < n - 128 * k.lines → bs[i]? = some v →
        FMap.get 0 (t.core (coreKey die core)).scratch (c.tileBase k + perm k.shape.swz (128 * k.lines + i)) = v) ∧
      (n < k.nb → ∃ k', (chanOf t die core ch).queue.head? = some k' ∧ k'.lines = k.lines + 1 ∧
        k'.carry = bs.drop (n - 128 * k.lines) ∧ k'.snap = k.snap.drop k.lineElems.length)) ∧
  (∀ die core ch s k r, (chanOf s die core ch).queue = k :: r → k.started = true → k.dropped = false → k.kind = 1 →
    let c := s.core (coreKey die core)
    let n := min (128 * (k.lines + 1)) k.nb
    let els := s.elemsOut (s.agent ⟨die, core, k.wave, 63⟩) (coreKey die core) ch k k.lineElems
    FMap.get false c.owner ((c.tileBase k + 128 * k.lines) / 1024) = true → els.2 = none →
    ∃ t, exec (.copyLineDeliver die core ch) s = .next t ∧ t.mem = els.1.mem ∧ t.regions = els.1.regions ∧ t.cells = els.1.cells ∧
      (t.core (coreKey die core)).scratch = c.scratch ∧ LineEnds s t die core ch k r n) ∧
  (∀ k : CopyCmd, 0 < k.shape.u → ∀ j, j ∈ k.lineElems ↔
    128 * k.lines ≤ j * k.shape.u ∧ j * k.shape.u < min (128 * (k.lines + 1)) k.nb) ∧
  (∀ die core ch s k r, (chanOf s die core ch).queue = k :: r → k.read = true → k.dropped = false → k.code ≠ 0 → k.code ≠ 4 →
    ∃ t, exec (.copyStop die core ch) s = .next t ∧ HeadDone s t die core ch k r ∧ t.mem = s.mem ∧
      (t.wave (waveKey die core k.wave)).cperr = .ofNat 32 (2 ^ 31 + ch * 2 ^ 29 + k.code * 2 ^ 20) ∧
      ((s.wave (waveKey die core k.wave)).div.stack ≠ [] → ∃ p, p.cause = 15 ∧
        (t.wave (waveKey die core k.wave)).pend = (s.wave (waveKey die core k.wave)).pend ++ [p]))
end Sys2Proof.Rule

/-- R288 to R298, R304: shapes and the permutation of tiles, how a channel takes, reads, starts, delivers and stops its commands, and what the lines of
`cpy`, `cpys` and `cpyd` move. -/
def Obligations.CopyEngine : Prop := CopyShapes ∧ ElementsIn ∧ ElementsOut ∧ CopyMoves

namespace Sys2Proof.Rule
/-- An item is issued to the matrix unit (R320, R324). -/
def MxIssue (mk : XF → Instr) (item : XF → State → Sel → MxItem) (barv : MxItem → Bool) (bar : XF → State → Sel → Option (Nat × Nat)) : Prop :=
  ∀ f s x, ready (mk f) s x = true → inside s x = true →
    let m := item f s x
    let full := 8 ≤ ((s.core x.ck).mx.items.filter (fun i => decide (i.kind ≠ 5))).length
    (barv m = true → bar f s x = none → WholeStop (mk f) s x 14) ∧
    ((barv m = true → bar f s x ≠ none) → (full ∨ s.engAhead x 4 = true) → Waits (mk f) s x) ∧
    ((barv m = true → bar f s x ≠ none) → ¬ full → s.engAhead x 4 = false →
      ∃ t, exec (mk f) s = .next t ∧
        (t.core x.ck).mx = { (s.core x.ck).mx with entering := (s.core x.ck).mx.entering ++
          [{ m with wave := x.wave, gid := (s.wave x.wk).gid, at_ := s.tick, obs := (s.wave x.wk).seen, no := if m.kind ≤ 2 then (s.wave x.wk).mxNo + 1 else 0, bar := if barv m then bar f s x else none }] } ∧
        (t.wave x.wk).mxNo = (s.wave x.wk).mxNo + (if m.kind ≤ 2 then 1 else 0) ∧
        t.count x .mx = s.count x .mx + (if m.kind ≤ 2 then 1 else 0) ∧ RegsKept x [] [] s t ∧ FlagsKept x s t ∧
        AluButBoth x s t (fun w v => { v with mx := w.mx, mxNo := w.mxNo }) (fun w v => { v with mx := w.mx }) ∧ GoesOn x s t)

/-- The block of 16 registers of lane F (R322), its BARV, and its barrier. -/
def blockItem (kind : Nat) (mk : XF → Instr) (f : XF) (s : State) (x : Sel) : MxItem :=
  { kind := kind, wave := 0, gid := 0, at_ := 0, blk := src (mk f) s x .A f.a 16 (cxOf (mk f) s x).F }
def blockBarv (m : MxItem) : Bool := m.blk.testBit (8 * 33)
def blockBar (mk : XF → Instr) (f : XF) (s : State) (x : Sel) : Option (Nat × Nat) :=
  let b := src (mk f) s x .A f.a 16 (cxOf (mk f) s x).F
  s.barAt x (b / 2 ^ (8 * 32) % 256) (b.testBit (8 * 33 + 1))
def imageItem (kind : Nat) (mk : XF → Instr) (f : XF) (s : State) (x : Sel) : MxItem :=
  { kind := kind, wave := 0, gid := 0, at_ := 0, off := src (mk f) s x .A f.a 1 (cxOf (mk f) s x).F, eng := f.eng.toNat }
end Sys2Proof.Rule

/-- R320, R322, R324 to R326, R329 to R332: matrix instructions join the unit's queue or wait for room, `mxgrd` never waits, `mxovf` and `mxcan`
wait for the wave's items. -/
def Obligations.MatrixInstructions : Prop :=
  MxIssue .mxgo (blockItem 0 .mxgo) blockBarv (blockBar .mxgo) ∧ MxIssue .mxst (blockItem 4 .mxst) blockBarv (blockBar .mxst) ∧
  MxIssue .mxrd (imageItem 1 .mxrd) (fun _ => false) (fun _ _ _ => none) ∧
  MxIssue .mxwr (imageItem 2 .mxwr) (fun _ => false) (fun _ _ _ => none) ∧
  MxIssue .mxclr (fun f _ _ => { kind := 3, wave := 0, gid := 0, at_ := 0, eng := f.eng.toNat }) (fun _ => false) (fun _ _ _ => none) ∧
  (∀ f s x, ready (.mxgrd f) s x = true → inside s x = true →
    ∃ t, exec (.mxgrd f) s = .next t ∧
      (t.core x.ck).mx = { (s.core x.ck).mx with entering := (s.core x.ck).mx.entering ++
        [{ kind := 5, wave := x.wave, gid := (s.wave x.wk).gid, at_ := s.tick, obs := (s.wave x.wk).seen, off := f.eng.toNat % 8
           eng := src (.mxgrd f) s x .A f.a 1 (cxOf (.mxgrd f) s x).F % 2 }] } ∧
      t.count x .mx = s.count x .mx ∧ RegsKept x [] [] s t ∧ FlagsKept x s t ∧ AluButCore x s t (fun w v => { v with mx := w.mx }) ∧
      GoesOn x s t) ∧
  (∀ f s x, ready (.mxovf f) s x = true → inside s x = true →
    let cx := cxOf (.mxovf f) s x
    let m := (s.core x.ck).mx
    let w := s.wave x.wk
    let left := ∃ i ∈ m.queue ++ m.entering, i.wave = x.wave
    (left → Waits (.mxovf f) s x) ∧
    (¬ left → ∃ t, exec (.mxovf f) s = .next t ∧
      Gets cx f.d 1 cx.act (fun _ => (if w.mxerr then 2 ^ 31 else 0) + w.mxcode * 2 ^ 24 +
        (match m.slot with | some p => p.1 * 2 ^ 18 + p.2 * 2 ^ 15 + 2 ^ 14 | none => 0) +
        (if m.ovfs then 2 else 0) + (if m.ovfl then 1 else 0)) s t ∧
      (t.core x.ck).mx = (if f.e 0 0 = 1 then { m with ovfl := false, ovfs := false } else m) ∧
      RegsKept x (destCodes f.d 1) cx.act s t ∧ FlagsKept x s t ∧ AluButCore x s t (fun w v => { v with mx := w.mx }) ∧ GoesOn x s t)) ∧
  (∀ f s x, ready (.mxcan f) s x = true → inside s x = true →
    let own := (s.core x.ck).mx.items.filter (fun i => decide (i.wave = x.wave ∧ i.kind ≠ 5))
    (own = [] → ∃ t, exec (.mxcan f) s = .next t ∧
      Gets (cxOf (.mxcan f) s x) f.d 1 (cxOf (.mxcan f) s x).act (fun _ => cancelledSoFar s x) s t ∧ (t.wave x.wk).div.can = none ∧
      RegsKept x (destCodes f.d 1) (cxOf (.mxcan f) s x).act s t ∧ FlagsKept x s t ∧ AluFrame x s t ∧ GoesOn x s t) ∧
    (own ≠ [] → ∃ t, exec (.mxcan f) s = .next t ∧
      (t.wave x.wk).div.can = some ((s.run x).pc, (own.filter (fun i => !i.cancel)).length + cancelledSoFar s x) ∧
      (t.core x.ck).mx.items = (s.core x.ck).mx.items.map (fun i =>
        if i.wave = x.wave ∧ i.kind ≠ 5 then { i with cancel := true } else i) ∧
      (t.ctx x).blk.isSome = true ∧ t.stack x = s.stack x ∧ RegsKept x [] [] s t ∧ t.mem = s.mem))

namespace Sys2Proof.Rule
/-- An N-bit two's-complement element by its planes, most significant first (R312). -/
def planes (n : Nat) (bit : Nat → Bool) : Int :=
  ((List.range n).map (fun j => if bit j then (if j = 0 then -(2 : Int) ^ (n - 1) else 2 ^ (n - 1 - j)) else 0)).sum

/-- R312 to R314, R316, R319, R322: the reading of planes, the integer path, and INT32 output. -/
def MatrixArithmetic : Prop :=
  (∀ n p near bit, 1 ≤ p → p ≤ n → n ≤ 8 →
    planeValue n p near bit = planes n bit / 2 ^ (n - p) + (if near = true ∧ p < n ∧ bit p = true then 1 else 0)) ∧
  (∀ (c : Core) (m : MxItem) i j acc, m.afmt = 2 → m.bfmt = 2 → m.K % 16 = 0 →
    let prod := fun k => (BitVec.ofNat 8 (c.mxA m i k)).toInt *
      planeValue (m.byte 24) (m.byte 25) (m.byte 26 == 1) (c.mxPlane m k j)
    let upTo := fun n => ((List.range n).map prod).sum
    (c.mxElem m i j (m.K / 16) acc).1 = acc + BitVec.ofInt 64 (upTo m.K) ∧
    ((c.mxElem m i j (m.K / 16) acc).2 = true ↔ ∃ n < m.K,
      (acc + BitVec.ofInt 64 (upTo n)).toInt + prod n ≠ (acc + BitVec.ofInt 64 (upTo (n + 1))).toInt)) ∧
  (∀ x < 2 ^ 64, outConvert 3 true x =
    (BitVec.ofInt 32 (max (-(2 : Int) ^ 31) (min (2 ^ 31 - 1) (BitVec.ofNat 64 x).toInt))).toNat) ∧
  (∀ ps : List (FV × FV), (∃ p ∈ ps, p.1 = .nan ∨ p.2 = .nan) → groupSum ps = .nan)

/-- R315, R317, R319: the float path. Products are exact, one aligned group's sum is rounded once, and each accumulator step once more; the
prologue expands a weight with one rounding; outputs are converted with one rounding. -/
def MatrixFloats : Prop :=
  (∀ ps : List (FV × FV),
    let prods := ps.map (fun p => (mulFV p.1 p.2).1)
    let bad := ∃ p ∈ ps, p.1 = .nan ∨ p.2 = .nan ∨ (p.1.isZero = true ∧ p.2.isInf = true) ∨ (p.1.isInf = true ∧ p.2.isZero = true)
    (bad → groupSum ps = .nan) ∧
    (¬ bad → .inf false ∈ prods → .inf true ∈ prods → groupSum ps = .nan) ∧
    (¬ bad → .inf false ∈ prods → .inf true ∉ prods → groupSum ps = .inf false) ∧
    (¬ bad → .inf false ∉ prods → .inf true ∈ prods → groupSum ps = .inf true) ∧
    (¬ bad → (∀ n, .inf n ∉ prods) →
      let q := (prods.map num).sum
      (q = 0 → ∃ e, groupSum ps = .fin (prods.all FV.neg) 0 e) ∧
      (q ≠ 0 → ∃ r, Rounded F64 .rn false (decide (q < 0)) |(q : ℝ)| r ∧ groupSum ps = F64.val false r.1))) ∧
  (∀ acc g, accFloat acc g = (F64.fin .rn false false (sumFV .rn [F64.val false acc, g])).1) ∧
  (∀ (q z : Int) sc, sc < 2 ^ 16 → -8 ≤ q → q ≤ 7 → -8 ≤ z → z ≤ 7 →
    match BF16.val false sc with
    | .nan => prologue q z sc = BF16.nanBits
    | .inf n => prologue q z sc = if q = z then BF16.nanBits else BF16.withSign (decide (q < z) != n) BF16.infBits
    | .fin n k e =>
      let x := ((q - z : Int) : ℚ) * num (.fin n k e)
      (x = 0 → prologue q z sc % 2 ^ 15 = 0) ∧
      (x ≠ 0 → ∃ fl, Rounded BF16 .rn false (decide (x < 0)) |(x : ℝ)| (prologue q z sc, fl))) ∧
  (∀ (c : Core) (m : MxItem) i j acc, m.bfmt ≠ 2 → c.mxElem m i j 0 acc = (acc, false) ∧ ∀ g,
    c.mxElem m i j (g + 1) acc = (.ofNat 64 (accFloat (c.mxElem m i j g acc).1.toNat
      (groupSum ((List.range 16).map (fun k => (floatOf m.afmt (c.mxA m i (16 * g + k)), c.mxW m (16 * g + k) j))))), false)) ∧
  (∀ (c : Core) (m : MxItem) k j,
    let at_ := fun o n => c.scratchN (c.groupBase m.gid + o) n
    let word := fun i => m.blk / 2 ^ (32 * i) % 2 ^ 32
    (m.bfmt ≤ 1 → c.mxW m k j = floatOf m.bfmt (at_ (word 1 + 2 * (64 * k + j)) 2)) ∧
    (m.bfmt = 3 →
      let e := at_ (word 2 + 4 * (64 * (k / m.gsize) + j)) 4
      c.mxW m k j = BF16.val false (prologue (planes (m.byte 24) (c.mxPlane m k j) / 2 ^ (m.byte 24 - 4))
        (BitVec.ofNat 4 (e / 2 ^ 16)).toInt (e % 2 ^ 16)) ∨ m.byte 24 < 4 ∨ 8 < m.byte 24)) ∧
  (∀ x, floatOf 0 x = BF16.val false x ∧ floatOf 1 x = F16.val false x) ∧
  (∀ (int : Bool) (x : Nat), x < 2 ^ 64 →
    let v : FV := if int then .fin (decide ((BitVec.ofNat 64 x).toInt < 0)) (BitVec.ofNat 64 x).toInt.natAbs 0 else F64.val false x
    outConvert 1 int x = (F32.fin .rn false false (v, 0)).1 ∧ outConvert 2 int x = (BF16.fin .rn false false (v, 0)).1) ∧
  (∀ x < 2 ^ 64, match F64.val false x with
    | .nan => outConvert 3 false x = 0
    | .inf n => outConvert 3 false x = if n then 2 ^ 31 else 2 ^ 31 - 1
    | .fin n k e => ∃ v : Int, IntegralOf .rn (num (.fin n k e)) v ∧
        outConvert 3 false x = (BitVec.ofInt 32 (max (-(2 : Int) ^ 31) (min (2 ^ 31 - 1) v))).toNat)

/-- The head item of a matrix unit: first of its queue, no resolution before it. -/
def mxHead (s : State) (die core : Nat) (i : MxItem) (r : List MxItem) : Prop :=
  (s.core (coreKey die core)).mx.queue = i :: r ∧ i.kind ≠ 5

/-- The head item leaves the queue and counts down (R325). -/
def MxGone (s t : State) (die core : Nat) (i : MxItem) (r : List MxItem) : Prop :=
  (t.core (coreKey die core)).mx.queue = r ∧
    (t.wave (waveKey die core i.wave)).mx = (s.wave (waveKey die core i.wave)).mx - (if i.kind ≤ 2 then 1 else 0)

/-- An item that the unit finishes: it has started, it may go on, and R16 gives every byte that it reads one value. -/
def mxEnds (s : State) (die core : Nat) (i : MxItem) (r : List MxItem) : Prop :=
  mxHead s die core i r ∧ i.phase = 1 ∧ i.cancel = false ∧ s.mxCode core (coreKey die core) i = none ∧
    ∀ p ∈ (s.core (coreKey die core)).prior, p.2.free 4 i.obs = false

/-- R326, R330: images and outputs: `mxrd` stores a set, `mxwr` loads one and sets its OVF, `mxst` writes the live set in its format. -/
def MatrixImages : Prop :=
  (∀ die core s i r, mxEnds s die core i r → i.kind = 1 →
    let c := s.core (coreKey die core)
    let a := c.groupBase i.gid + i.off
    ∃ t, exec (.mxJobComplete die core) s = .next t ∧ MxGone s t die core i r ∧ t.mem = s.mem ∧
      (∀ x < 4096, (t.core (coreKey die core)).scratchN (a + 8 * x) 8 =
        (FMap.get 0 (if i.eng.testBit 0 then c.mx.shad else c.mx.live) x).toNat) ∧
      (∀ b, b < a ∨ a + 32768 ≤ b → FMap.get 0 (t.core (coreKey die core)).scratch b = FMap.get 0 c.scratch b) ∧
      (t.core (coreKey die core)).mx = { c.mx with queue := r }) ∧
  (∀ die core s i r, mxEnds s die core i r → i.kind = 2 →
    let c := s.core (coreKey die core)
    let image := fun x => BitVec.ofNat 64 (c.scratchN (c.groupBase i.gid + i.off + 8 * x) 8)
    ∃ t, exec (.mxJobComplete die core) s = .next t ∧ MxGone s t die core i r ∧ t.mem = s.mem ∧
      (t.core (coreKey die core)).scratch = c.scratch ∧
      let m := (t.core (coreKey die core)).mx
      (if i.eng.testBit 0 then (∀ x < 4096, FMap.get 0 m.shad x = image x) ∧ m.ovfs = i.eng.testBit 5 ∧ m.live = c.mx.live ∧ m.ovfl = c.mx.ovfl ∧
          m.slot = (if i.eng.testBit 1 then some (i.wave, i.eng / 4 % 8) else c.mx.slot)
        else (∀ x < 4096, FMap.get 0 m.live x = image x) ∧ m.ovfl = i.eng.testBit 5 ∧ m.shad = c.mx.shad ∧ m.ovfs = c.mx.ovfs ∧
          m.slot = c.mx.slot)) ∧
  (∀ die core s i r, mxEnds s die core i r → i.kind = 4 → i.oq = false → i.M ≤ 64 → i.N ≤ 64 → i.ofmt ≠ 0 →
    let c := s.core (coreKey die core)
    let a := c.groupBase i.gid + i.blk / 2 ^ 96 % 2 ^ 32
    let e := if i.ofmt = 2 then 2 else 4
    ∃ t, exec (.mxJobComplete die core) s = .next t ∧ MxGone s t die core i r ∧ t.mem = s.mem ∧
      (∀ x y, x < i.M → y < i.N → (t.core (coreKey die core)).scratchN (a + e * (i.N * x + y)) e =
        outConvert i.ofmt (i.bfmt == 2) (FMap.get 0 c.mx.live (64 * x + y)).toNat % 2 ^ (8 * e)) ∧
      (∀ b, b < a ∨ a + e * (i.M * i.N) ≤ b → FMap.get 0 (t.core (coreKey die core)).scratch b = FMap.get 0 c.scratch b) ∧
      (t.core (coreKey die core)).mx = { c.mx with queue := r })

/-- R329: a false resolution leaves the live set, closes its slot, discards a job of the slot that has not started, with its arrival, and releases the
copy commands that it holds. -/
def FalseResolutions : Prop :=
  (∀ die core s i r, (s.core (coreKey die core)).mx.queue = i :: r → i.kind = 5 → i.eng = 0 →
    (s.core (coreKey die core)).mx.done = [] →
    let c := s.core (coreKey die core)
    ∃ t, exec (.mxResolution die core) s = .next t ∧ (t.core (coreKey die core)).mx =
      { c.mx with queue := r, slot := if c.mx.slot = some (i.wave, i.off) then none else c.mx.slot } ∧
      (∀ ch, (t.chan (coreKey die core) ch).cmds = (s.chan (coreKey die core) ch).cmds.map (fun k =>
        if k.wave = i.wave ∧ k.gslot = some i.off ∧ k.res = none ∧ k.at_ < i.at_ then { k with res := some false } else k)) ∧
      t = { s with cores := t.cores }) ∧
  (∀ die core s j i r, (s.core (coreKey die core)).mx.queue = j :: i :: r → i.kind = 5 → i.eng = 0 →
    (s.core (coreKey die core)).mx.done = [] → j.kind = 0 → j.guarded = true → j.wave = i.wave → j.gslot = i.off → j.phase = 0 →
    j.bar = none →
    let c := s.core (coreKey die core)
    ∃ t, exec (.mxResolution die core) s = .next t ∧ (t.core (coreKey die core)).mx =
      { c.mx with queue := r, slot := if c.mx.slot = some (i.wave, i.off) then none else c.mx.slot } ∧
      (t.wave (waveKey die core j.wave)).mx = (s.wave (waveKey die core j.wave)).mx - 1 ∧ t.mem = s.mem)

/-- R320, R325 to R330, R335: the moves of the matrix unit. -/
def MatrixMoves : Prop :=
  (∀ die core s i r, (s.core (coreKey die core)).mx.entering = i :: r →
    (i.kind = 5 ∨ ((s.core (coreKey die core)).mx.queue.filter (fun i => decide (i.kind ≠ 5))).length < 8) →
    ∃ t, exec (.mxQueueEnter die core) s = .next t ∧ (t.core (coreKey die core)).mx =
      { (s.core (coreKey die core)).mx with entering := r, queue := (s.core (coreKey die core)).mx.queue ++ [i] } ∧
      t = { s with cores := t.cores }) ∧
  (∀ die core s i r, mxHead s die core i r → i.phase = 0 → i.cancel = false → s.mxCode core (coreKey die core) i = none →
    (s.core (coreKey die core)).mx.slot = none → i.kind = 0 → i.guarded = true →
    ∃ t, exec (.mxItemStart die core) s = .next t ∧
      (t.core (coreKey die core)).mx.slot = some (i.wave, i.gslot) ∧ (t.core (coreKey die core)).mx.live = (s.core (coreKey die core)).mx.live ∧
      (t.core (coreKey die core)).mx.ovfs = (s.core (coreKey die core)).mx.ovfl ∧
      (∀ a b, a < 64 → b < 64 → FMap.get 0 (t.core (coreKey die core)).mx.shad (64 * a + b) =
        if i.blk.testBit (8 * 29) = true ∧ a < i.M ∧ b < i.N then 0 else FMap.get 0 (s.core (coreKey die core)).mx.live (64 * a + b)) ∧
      (t.core (coreKey die core)).mx.queue = { i with phase := 1 } :: r) ∧
  (∀ die core s i r, mxHead s die core i r → i.phase = 0 → i.cancel = false → s.mxCode core (coreKey die core) i = none →
    (s.core (coreKey die core)).mx.slot = none → i.kind ≠ 0 →
    ∃ t, exec (.mxItemStart die core) s = .next t ∧ (t.core (coreKey die core)).mx =
      { (s.core (coreKey die core)).mx with queue := { i with phase := 1 } :: r } ∧ t = { s with cores := t.cores }) ∧
  (∀ die core s i r q, mxHead s die core i r → i.phase = 1 → i.cancel = false → s.mxCode core (coreKey die core) i = none →
    i.aq = true → i.got.length < i.M * i.K → (s.core (coreKey die core)).dirRec 1 = some q →
    (0 < (FMap.get {} (s.core (coreKey die core)).queues q).count ∨ (FMap.get {} (s.core (coreKey die core)).queues q).pcnt = 0) →
    ∃ t, exec (.mxQueueElement die core) s = .next t ∧
      (t.core (coreKey die core)).mx.queue = { i with got := ((s.core (coreKey die core)).pop q).1 :: i.got } :: r ∧
      (t.core (coreKey die core)).queues = ((s.core (coreKey die core)).pop q).2.queues) ∧
  (∀ die core s i r, mxHead s die core i r → i.phase = 1 → i.kind = 0 → i.cancel = false → i.guarded = false →
    s.mxCode core (coreKey die core) i = none → i.aq = false → i.oq = false →
    (∀ p ∈ (s.core (coreKey die core)).prior, p.2.free 4 i.obs = false) →
    ∃ t, exec (.mxJobComplete die core) s = .next t ∧ MxGone s t die core i r ∧ t.mem = s.mem ∧
      (∀ a b, a < i.M → b < i.N → i.N ≤ 64 → FMap.get 0 (t.core (coreKey die core)).mx.live (64 * a + b) =
        ((s.core (coreKey die core)).mxElem i a b (i.K / 16) (FMap.get 0 (s.core (coreKey die core)).mx.live (64 * a + b))).1) ∧
      (∀ a b, b < 64 → (i.M ≤ a ∨ i.N ≤ b) → i.N ≤ 64 → FMap.get 0 (t.core (coreKey die core)).mx.live (64 * a + b) =
        FMap.get 0 (s.core (coreKey die core)).mx.live (64 * a + b)) ∧
      (t.core (coreKey die core)).mx.shad = (s.core (coreKey die core)).mx.shad) ∧
  (∀ die core s i r, mxHead s die core i r → i.phase = 1 → i.kind = 3 → i.cancel = false → s.mxCode core (coreKey die core) i = none →
    ∃ t, exec (.mxJobComplete die core) s = .next t ∧ MxGone s t die core i r ∧
      (if i.eng.testBit 0 then (t.core (coreKey die core)).mx.shad = [] ∧ (t.core (coreKey die core)).mx.ovfs = false
        else (t.core (coreKey die core)).mx.live = [] ∧ (t.core (coreKey die core)).mx.ovfl = false)) ∧
  (∀ die core s i r, (s.core (coreKey die core)).mx.queue = i :: r → i.kind = 5 → i.eng = 1 →
    (s.core (coreKey die core)).mx.slot = some (i.wave, i.off) → (s.core (coreKey die core)).mx.done = [] →
    ∃ t, exec (.mxResolution die core) s = .next t ∧ (t.core (coreKey die core)).mx =
      { (s.core (coreKey die core)).mx with
        queue := r, slot := none, live := (s.core (coreKey die core)).mx.shad, shad := (s.core (coreKey die core)).mx.live
        ovfl := (s.core (coreKey die core)).mx.ovfs, ovfs := (s.core (coreKey die core)).mx.ovfl }) ∧
  (∀ die core s i r c, mxHead s die core i r → i.cancel = false → s.mxCode core (coreKey die core) i = some c → i.guarded = false →
    (s.core (coreKey die core)).mx.slot = none →
    ∃ t, exec (.mxItemStop die core) s = .next t ∧ MxGone s t die core i r ∧
      (i.phase = 0 → (t.core (coreKey die core)).mx.live = (s.core (coreKey die core)).mx.live) ∧
      (t.wave (waveKey die core i.wave)).mxerr = true ∧ (t.wave (waveKey die core i.wave)).mxcode = c)
end Sys2Proof.Rule

/-- R312 to R335: plane readings, the integer and the float path, the output formats, and how the unit takes, starts, runs, resolves and stops its
items. -/
def Obligations.MatrixEngine : Prop := MatrixArithmetic ∧ MatrixFloats ∧ MatrixMoves ∧ MatrixImages ∧ FalseResolutions

/-! ## Graph instructions (file 20) -/

namespace Sys2Proof.Rule
/-- Word k of the input record of a lane (R407): of the batch store, or of the record area in scratchpad. -/
def recordWord (s : State) (x : Sel) (l k : Nat) : Nat :=
  let f := (s.wave x.wk).funel
  let n := (s.nodeOf x).2
  let i := if f.shared then 0 else l
  if n.recsp then
    (s.core x.ck).scratchN ((s.groupOf x).sbase * 1024 + (s.wave x.wk).recbase + i * n.rsz + 4 * k) 4
  else (((f.recs[i]?).getD [])[k]?.getD 0).toNat

/-- The checks of R409 and R410, passed by a lane. -/
def mayAppend (s : State) (x : Sel) (nw l e : Nat) : Prop :=
  let f := (s.wave x.wk).funel
  e ≤ 7 ∧ ∃ d, (s.nodeOf x).2.edge e = some d ∧ nw ≤ ((s.nodeOf x).1.node d.tgt).rsz / 4 ∧ f.ended.getLsbD l = false ∧
    FMap.get 0 f.used (8 * l + e) < d.e ∧ (d.tgt = f.node → (f.depths[f.slot l]?).getD 0 + 1 ≤ (s.nodeOf x).2.sdepth)

/-- The record that a lane appends to node T (R409 to R411): its words, its self-depth and its stamp, as the i-th of the instruction
there. -/
def record (f : XF) (s : State) (x : Sel) (la : Launch) (T : Nat) (val : Nat → Nat) (l i : Nat) : List Word × Nat × Nat :=
  let w := (s.wave x.wk).funel
  ((List.range ((la.node T).rsz / 4)).map (fun k => if k < f.nw then .ofNat 32 (val l / 2 ^ (32 * k)) else 0),
    if T = w.node then (w.depths[w.slot l]?).getD 0 + 1 else 0,
    if (la.node T).ord then (FMap.get 0 la.stamps T + i) % 2 ^ 32 else 0)

/-- Records of the wave's reservation on an edge (R396). -/
def reservedOn (f : FunelWave) (e : Nat) : Nat := FMap.get 0 f.resq e + FMap.get 0 f.ress e

/-- `emit` and `emitn` append one record per active lane, in ascending lane order, or none. -/
def Appends (mk : XF → Instr) (edge : XF → State → Sel → Nat → Nat) : Prop :=
  (∀ f s x q la, ready (mk f) s x = true → inside s x = true → (s.wave x.wk).funel.launch = some q → s.launch? q = some la →
    (∀ n, FMap.get 0 la.stamps n < 2 ^ 32) →
    let cx := cxOf (mk f) s x
    let w := (s.wave x.wk).funel
    (∀ l ∈ cx.act, mayAppend s x f.nw l (edge f s x l)) →
    ∃ t, exec (mk f) s = .next t ∧
      (∀ T, let ls := cx.act.filter (fun l => la.target w.node (edge f s x l) == some T)
        ∃ rs, (t.launch q).queue T x.die = la.queue T x.die ++ rs ∧ rs.map (fun r => (r.words, r.self, r.stamp)) =
          (List.range ls.length).map (fun i =>
            record f s x la T (src (mk f) s x .A f.a f.nw) (ls.getD i 0) i)) ∧
      (∀ T die, die < 2 → x.die < 2 → die ≠ x.die → (t.launch q).queue T die = la.queue T die) ∧
      { t.launch q with queues := la.queues, stamps := la.stamps, spills := la.spills } = la ∧
      (∀ p, p ≠ q → t.launch? p = s.launch? p) ∧
      (∀ k, FMap.get 0 (t.wave x.wk).funel.used k = FMap.get 0 w.used k +
        if k ∈ cx.act.map (fun l => 8 * l + edge f s x l) then 1 else 0) ∧
      (∀ e, reservedOn (t.wave x.wk).funel e = reservedOn w e - (cx.act.filter (fun l => edge f s x l == e)).length) ∧
      { (t.wave x.wk).funel with used := w.used, resq := w.resq, ress := w.ress } = w ∧
      RegsKept x [] [] s t ∧ FlagsKept x s t ∧ AluBut x s { t with launches := s.launches } (fun w v => { v with funel := w.funel }) ∧
      GoesOn x s t) ∧
  (∀ f s x bad, ready (mk f) s x = true →
    (∀ l, l ∈ bad ↔ l ∈ (cxOf (mk f) s x).act ∧ ¬ mayAppend s x f.nw l (edge f s x l)) → bad ≠ [] → bad.Pairwise (· < ·) →
    ∃ t, exec (mk f) s = .next t ∧ StoppedAs x t { cause := 16, pc := (s.run x).pc, mask := maskOf bad } ∧
      t.launches = s.launches ∧ (t.wave x.wk).funel = (s.wave x.wk).funel ∧ t.stack x = s.stack x ∧ RegsKept x [] [] s t ∧
      t.cores = s.cores ∧ t.mem = s.mem)
end Sys2Proof.Rule

/-- R407 to R416: `recld` and `rngld` read the wave's records, `emit` and `emitn` append all their records or none, `nend` releases what is
left of its lanes' reservations, `edgest` describes an edge, `xzopen` marks the wave, `xzwait` waits for the predecessor. A record in the scratchpad is read
after what the context stored there before (R222). -/
def Obligations.GraphInstructions : Prop :=
  (∀ f s x, ready (.recld f) s x = true → inside s x = true →
    let o := fun l => src (.recld f) s x .A f.a 1 l
    let u := if (s.nodeOf x).2.recsp then s.inOrder x [(.sp x.ck 0, 1)] else s
    let val := fun l => ((List.range f.nw).map (fun j => 2 ^ (32 * j) * recordWord u x l (o l + j))).sum
    (∀ l ∈ (cxOf (.recld f) s x).act, o l + f.nw ≤ (s.nodeOf x).2.rsz / 4) →
    (∃ t, exec (.recld f) s = .next t ∧ Gets (cxOf (.recld f) s x) f.d f.nw (cxOf (.recld f) s x).act val s t ∧
      MemFrameD (.recld f) (destCodes f.d f.nw) (cxOf (.recld f) s x).act x s t ∧ Uncounted x s t ∧ GoesOn x s t) ∧
    ((s.nodeOf x).2.recsp = false ∨ Clear x s [(.sp x.ck 0, 1)] → Computes (.recld f) s x f.d f.nw val)) ∧
  (∀ f s x ok bad, ready (.recld f) s x = true →
    let o := fun l => src (.recld f) s x .A f.a 1 l
    (∀ l, l ∈ ok ↔ l ∈ (cxOf (.recld f) s x).act ∧ o l + f.nw ≤ (s.nodeOf x).2.rsz / 4) →
    (∀ l, l ∈ bad ↔ l ∈ (cxOf (.recld f) s x).act ∧ ¬ o l + f.nw ≤ (s.nodeOf x).2.rsz / 4) → bad ≠ [] →
    ((s.nodeOf x).2.recsp = false ∨ Clear x s [(.sp x.ck 0, 1)]) →
    ok.Pairwise (· < ·) → bad.Pairwise (· < ·) →
    ∃ t, exec (.recld f) s = .next t ∧
      StoppedAs x t { cause := 8, pc := (s.run x).pc, mask := maskOf bad, eff := maskOf ok } ∧
      Gets (cxOf (.recld f) s x) f.d f.nw ok (fun l =>
        ((List.range f.nw).map (fun j => 2 ^ (32 * j) * recordWord s x l (o l + j))).sum) s t ∧
      RegsKept x (destCodes f.d f.nw) ok s t ∧ t.stack x = s.stack x ∧ t.cores = s.cores ∧ t.mem = s.mem) ∧
  (∀ f s x, ready (.rngld f) s x = true → inside s x = true →
    Computes (.rngld f) s x f.d 2 (fun _ => match (s.wave x.wk).funel.range with
      | some (count, w) => count + 2 ^ 32 * (w * (s.nodeOf x).2.b % 2 ^ 32)
      | none => (s.wave x.wk).funel.batchn)) ∧
  Appends .emit (fun f _ _ _ => f.edge) ∧
  Appends .emitn (fun f s x l => src (.emitn f) s x .B f.b 1 l) ∧
  (∀ f s x, ready (.nend f) s x = true → inside s x = true →
    let cx := cxOf (.nend f) s x
    let w := (s.wave x.wk).funel
    ∃ t, exec (.nend f) s = .next t ∧ (t.wave x.wk).funel.ended = w.ended ||| cx.mask ∧
      (∀ e d, e < 8 → (s.nodeOf x).2.edge e = some d → reservedOn (t.wave x.wk).funel e = reservedOn w e -
        (cx.act.map (fun l => if w.ended.getLsbD l then 0 else d.e - FMap.get 0 w.used (8 * l + e))).sum) ∧
      { (t.wave x.wk).funel with ended := w.ended, resq := w.resq, ress := w.ress } = w ∧
      RegsKept x [] [] s t ∧ FlagsKept x s t ∧ AluBut x s t (fun w v => { v with funel := w.funel }) ∧ GoesOn x s t) ∧
  (∀ f s x, ready (.edgest f) s x = true → inside s x = true →
    let la := (s.nodeOf x).1
    let w := (s.wave x.wk).funel
    Computes (.edgest f) s x f.d 1 (fun l => match (s.nodeOf x).2.edge (f.eng.toNat % 8) with
      | none => 0
      | some d =>
        let t := la.node d.tgt
        2 ^ 31 + (if t.ord then 2 ^ 30 else 0) + (if t.rsz = 16 then 0 else if t.rsz = 32 then 1 else if t.rsz = 64 then 2 else 3) * 2 ^ 28 +
          d.tgt * 2 ^ 16 + d.e * 2 ^ 8 +
          (if w.ended.getLsbD l then 0 else d.e - FMap.get 0 w.used (8 * l + f.eng.toNat % 8)))) ∧
  (∀ f s x, ready (.xzopen f) s x = true → inside s x = true →
    ∃ t, exec (.xzopen f) s = .next t ∧ (t.wave x.wk).funel = { (s.wave x.wk).funel with xz := true } ∧ RegsKept x [] [] s t ∧
      FlagsKept x s t ∧ AluBut x s t (fun w v => { v with funel := w.funel }) ∧ GoesOn x s t) ∧
  (∀ f s x, ready (.xzwait f) s x = true → inside s x = true →
    let held := ∃ q, (s.nodeOf x).1.pred = some q ∧ s.launch? q ≠ none
    (¬ held → OnlyAdvances (.xzwait f) s x) ∧ (held → Waits (.xzwait f) s x))

/-! ## System instructions (file 10) -/

namespace Sys2Proof.Rule
/-- B is as R262 asks: a selector in a management-core wave, none in a redirected one. -/
def named (x : Sel) (b : Opnd) : Prop := (x.mgmt = true ∧ b ≠ .none) ∨ (x.mgmt = false ∧ b = .none)

/-- The subject of R262: the wave that the selector names, or the redirected wave itself. -/
def subjectOf (i : Instr) (s : State) (x : Sel) (b : Opnd) : Option Sel :=
  if x.mgmt then
    let sel := src i s x .B b 1 (cxOf i s x).F
    let y : Sel := ⟨x.die, sel / 2 ^ 8 % 128, sel % 64, 63⟩
    if sel / 2 ^ 15 % 2 ^ 17 = 0 ∧ sel / 2 ^ 6 % 4 = 0 ∧ y.core < 96 ∧ y.core / 32 = x.core - 96 ∧ (s.wave y.wk).valid = true then some y
    else none
  else some { x with ctx := 63 }

/-- The core whose window is reached (R262): WAVE bits are ignored. -/
def coreOf (i : Instr) (s : State) (x : Sel) (b : Opnd) : Option Nat :=
  if x.mgmt then
    let sel := src i s x .B b 1 (cxOf i s x).F
    let c := sel / 2 ^ 8 % 128
    if sel / 2 ^ 15 % 2 ^ 17 = 0 ∧ sel / 2 ^ 6 % 4 = 0 ∧ c < 96 ∧ c / 32 = x.core - 96 then some c else none
  else some x.core

/-- B = 511 in a management-core wave raises `PRIV`, any other B in a redirected wave `PROTECT`. -/
def SelectorStops (mk : XF → Instr) : Prop :=
  ∀ f s x, ready (mk f) s x = true →
    (x.mgmt = true → f.b = .none → WholeStop (mk f) s x 4) ∧ (x.mgmt = false → f.b ≠ .none → WholeStop (mk f) s x 6)

/-- A selector that names no wave: status 0, and no other effect. -/
def NoSubject (mk : XF → Instr) : Prop :=
  ∀ f s x, ready (mk f) s x = true → inside s x = true → named x f.b → subjectOf (mk f) s x f.b = none →
    Computes (mk f) s x f.d 1 (fun _ => 0)

/-- A block at a: `ALIGN` where it is not aligned, else the cause of its first piece that fails, in every active lane. -/
def BlockStops (i : Instr) (s : State) (x : Sel) (a al : Nat) (ps : List (Nat × Nat × Hit)) : Prop :=
  (a % al ≠ 0 → AllStop i s x 5 (.ofNat 57 a)) ∧
  (a % al = 0 → ∀ fa, blockFail ps = some (6, some fa) → AllStop i s x 6 fa) ∧
  (a % al = 0 → ∀ fa, blockFail ps = some (7, some fa) → ∃ t, exec i s = .next t ∧ StoppedAs x t
    { cause := 7, pc := (s.run x).pc, mask := (cxOf i s x).mask, faddr := (cxOf i s x).act.map (fun l => (l, fa)) })

/-- The words that a block of n bytes with value v leaves at its places, ascending. -/
def blockWrites (s : State) (ag : Ag) (a n v : Nat) : List (Place × Nat) :=
  (s.pieces ag a n .wr).flatMap (fun p => (List.range (p.2.1 / 4)).filterMap (fun j =>
    let w := v / 2 ^ (8 * (p.1 + 4 * j)) % 2 ^ 32
    match p.2.2 with
    | .ok (.glob (.phys pa)) => some (.glob (.phys (pa + 4 * j)), w)
    | .ok (.glob (.copy ri va)) => some (.glob (.copy ri (va + 4 * j)), w)
    | _ => none))

/-- The instruction stores a block, after what its context stored to those bytes before (R222), and gives its status. -/
def WritesBlock (i : Instr) (s : State) (x : Sel) (d : Opnd) (a n v : Nat) : Prop :=
  let ps := s.pieces (s.agent x) a n .wr
  ∃ t, exec i s = .next t ∧ Gets (cxOf i s x) d 1 (cxOf i s x).act (fun _ => n) s t ∧
    (Paged s → (∀ p ∈ ps, ∀ pa, p.2.2 = .ok (.glob (.phys pa)) → pa % 4 = 0) →
      Stored (s.inOrder x (blockSpots ps)) t 4 (blockWrites s (s.agent x) a n v)) ∧
    MemFrameD i (destCodes d 1) (cxOf i s x).act x s t ∧ (∀ c, t.count x c = s.count x c) ∧ GoesOn x s t

/-- The instruction has read a block, gives a status, and nothing else changes but what a read leaves: translations held, lines filled. -/
def Reads (i : Instr) (s : State) (x : Sel) (d : Opnd) (v : Nat) : Prop :=
  ∃ t, exec i s = .next t ∧ Gets (cxOf i s x) d 1 (cxOf i s x).act (fun _ => v) s t ∧
    MemFrameD i (destCodes d 1) (cxOf i s x).act x s t ∧ NoStore s t ∧ (∀ c, t.count x c = s.count x c) ∧ GoesOn x s t

/-- Layouts of R84, R169 and R183. -/
def entryWord (e : DivEntry) : Nat :=
  e.bbc.toNat * 2 ^ 114 + e.kind.toNat * 2 ^ 112 + e.depth.toNat * 2 ^ 96 + e.mask.toNat * 2 ^ 64 + e.pc.toNat
def entryOf (n : Nat) : DivEntry :=
  ⟨.ofNat 6 (n / 2 ^ 114), .ofNat 2 (n / 2 ^ 112), .ofNat 16 (n / 2 ^ 96), .ofNat 32 (n / 2 ^ 64), .ofNat 57 n⟩
def retWord (e : RetEntry) : Nat := e.rpc.toNat + e.fb.toNat * 2 ^ 64 + e.fs.toNat * 2 ^ 73

/-- A field of a block: its value at its byte offset. -/
def atByte (o v : Nat) : Nat := v * 2 ^ (8 * o)
/-- Divergence entries from offset o on, the lowest first. -/
def entriesAt (o : Nat) (l : List DivEntry) : Nat :=
  ((List.range (min 64 l.length)).map (fun i => atByte (o + 0x20 * i) (entryWord (l.reverse.getD i {})))).sum

/-- The save block of R263. -/
def savedBlock (s : State) (y : Sel) : Nat :=
  let w := s.wave y.wk
  let d := w.parked.getD w.div
  let ts := (s.tailsOf y.ck y.wave).map (fun k => s.tail (y.ck * 32 + k))
  atByte 0 3 + atByte 2 d.stack.length + atByte 3 ts.length + atByte 4 d.tmode.toNat + atByte 8 w.fpctl.toNat +
  atByte 0xC (s.allFlags y.ck y.wave).toNat + atByte 0x10 w.bwphase +
  atByte 0x11 ((List.range 3).map (fun e => min 2 (FMap.get 0 d.live e) * 4 ^ e)).sum + atByte 0x12 w.heldarr.toNat +
  ((List.range 96).map (fun k => atByte (0x40 + 4 * k) (FMap.get 0 d.latch k).toNat)).sum +
  ((List.range 32).map (fun l => atByte (0x1C0 + 4 * l) ((FMap.get {} d.rets l).spcnt * 2 ^ 16 + (FMap.get {} d.rets l).oncnt))).sum +
  ((List.range 128).map (fun k => atByte (0x240 + 0x10 * k) (retWord (FMap.get {} (FMap.get {} d.rets (k / 4)).ent (k % 4))))).sum +
  entriesAt 0xA40 d.stack +
  ((List.range ts.length).map (fun k =>
    let t := ts.getD k {}
    atByte (0x1240 + 0x840 * k) (t.lanes.toNat * 2 ^ 32 + t.fs.toNat * 2 ^ 23 + t.fb.toNat * 2 ^ 14 + (if t.valid then 2 ^ 7 else 0) +
      t.stack.length) + entriesAt (0x1280 + 0x840 * k) t.stack)).sum

/-- A divergence state holds what a block gives from an entry count and an offset on. -/
def holdsEntries (l : List DivEntry) (b cnt o : Nat) : Prop :=
  l.length = min 64 cnt ∧ ∀ i < l.length, l.reverse.getD i {} = entryOf (b / 2 ^ (8 * (o + 0x20 * i)))

/-- The subject after a restore from block b with nt tails (R264). -/
def Restored (s t : State) (y : Sel) (b nt : Nat) : Prop :=
  let w := t.wave y.wk
  let d := w.parked.getD w.div
  let free := (List.range 32).filter (fun k => !(s.tail (y.ck * 32 + k)).valid)
  w.parked.isSome = (s.wave y.wk).parked.isSome ∧ d.tmode = .ofNat 32 (b / 2 ^ (8 * 4)) ∧
  holdsEntries d.stack b (b / 2 ^ (8 * 2) % 2 ^ 8) 0xA40 ∧
  (∀ k < 96, FMap.get 0 d.latch k = .ofNat 32 (b / 2 ^ (8 * (0x40 + 4 * k)))) ∧
  (∀ e < 3, b / 2 ^ (8 * 0x11 + 2 * e) % 4 ≤ 2 → FMap.get 0 d.live e = b / 2 ^ (8 * 0x11 + 2 * e) % 4) ∧
  (∀ l < 32, (FMap.get {} d.rets l).spcnt = b / 2 ^ (8 * (0x1C0 + 4 * l) + 16) % 2 ^ 16 ∧
    (b / 2 ^ (8 * (0x1C0 + 4 * l)) % 8 ≤ 4 → (FMap.get {} d.rets l).oncnt = b / 2 ^ (8 * (0x1C0 + 4 * l)) % 8) ∧
    ∀ i < 4, let n := b / 2 ^ (8 * (0x240 + 0x40 * l + 0x10 * i))
      FMap.get {} (FMap.get {} d.rets l).ent i = ⟨.ofNat 57 n, .ofNat 9 (n / 2 ^ 64), .ofNat 9 (n / 2 ^ 73)⟩) ∧
  w.fpctl = fpctlOf (b / 2 ^ (8 * 8) % 2 ^ 32) ∧ w.fpflags = .ofNat 32 (b / 2 ^ (8 * 0xC) % 32) ∧
  w.bwphase = b / 2 ^ (8 * 0x10) % 8 ∧ w.heldarr = .ofNat 16 (b / 2 ^ (8 * 0x12)) &&& 0x80FF ∧
  (∀ k < nt, let n := b / 2 ^ (8 * (0x1240 + 0x840 * k))
    let tl := t.tail (y.ck * 32 + free.getD k 0)
    tl.valid = true ∧ tl.wave = y.wave ∧ tl.fb = .ofNat 9 (n / 2 ^ 14) ∧ tl.fs = .ofNat 9 (n / 2 ^ 23) ∧ tl.lanes = .ofNat 32 (n / 2 ^ 32) ∧
    holdsEntries tl.stack b (n % 2 ^ 7) (0x1280 + 0x840 * k) ∧ tl.ctx.ld = 0 ∧ tl.ctx.st = 0) ∧
  (∀ j, (∀ k < nt, j ≠ y.ck * 32 + free.getD k 0) → t.tail j = s.tail j)

/-- HELDARR v takes the place of the arrival that the subject had held (R217): an arrival of its own is held again at the barrier that v names, until
a phase of it advances. -/
def Rehelds (s t : State) (y : Sel) (v : Nat) : Prop :=
  let g := s.groupOf y
  let home := coreKey y.die g.cbase
  let new := if v.testBit 15 then s.barAt y (v % 256) ((s.bar y.ck (g.bbase + v % 256)).kind != 1) else none
  ∀ k, (t.core k).held = (if k = y.ck ∨ k = home then (s.core k).held.filter (fun h => decide (h.wave ≠ some y.wk)) else (s.core k).held) ++
    (match new with
      | some (ck, i) => if k = ck then [⟨i, some y.wk, 1, 0⟩] else []
      | none => [])

/-- A restore meets another generation (R281): status 0 and RFAULT; a redirected wave stops with STATE 4, its parked state stays parked, and no
record is posted. -/
def Refused (i : Instr) (s : State) (x : Sel) (d : Opnd) (y : Sel) (gen : Nat) : Prop :=
  let mc := mgmtOf y.die y.core
  ∃ t, exec i s = .next t ∧ Gets (cxOf i s x) d 1 (cxOf i s x).act (fun _ => 0) s t ∧
    RegsKept x (destCodes d 1) (cxOf i s x).act s t ∧
    (t.core mc).rfault = .ofNat 64 (2 ^ 63 + gen * 2 ^ 32 + (s.wave y.wk).ctxid % 2 ^ 16 * 2 ^ 16) ∧
    (∀ k, { t.core k with rfault := 0, queues := [], pushes := [], tlb := [] } =
      { s.core k with rfault := 0, queues := [], pushes := [], tlb := [] }) ∧
    (∀ k, k ≠ x.wk → t.wave k = s.wave k) ∧ t.mem = s.mem ∧
    (x.mgmt = true → (t.wave x.wk).still = (s.wave x.wk).still ∧ GoesOn x s t) ∧
    (x.mgmt = false → (t.wave x.wk).state = 4 ∧ (t.wave x.wk).parked = (s.wave x.wk).parked ∧ (t.wave x.wk).posted = true)

/-- R263, R264. -/
def SaveBlocks : Prop :=
  SelectorStops .svdiv ∧ NoSubject .svdiv ∧ SelectorStops .rsdiv ∧ NoSubject .rsdiv ∧
  (∀ f s x y, ready (.svdiv f) s x = true → inside s x = true → named x f.b → subjectOf (.svdiv f) s x f.b = some y →
    let a := src (.svdiv f) s x .A f.a 2 (cxOf (.svdiv f) s x).F
    let n := 0x1240 + 0x840 * (s.tailsOf y.ck y.wave).length
    let ps := s.pieces (s.agent x) a n .wr
    (x.mgmt = true → (s.wave y.wk).stopped = false → Computes (.svdiv f) s x f.d 1 (fun _ => 0)) ∧
    ((x.mgmt = true → (s.wave y.wk).stopped = true) → BlockStops (.svdiv f) s x a 64 ps ∧
      (a % 64 = 0 → blockFail ps = none → s.drained y = false → Waits (.svdiv f) s x) ∧
      (a % 64 = 0 → blockFail ps = none → s.drained y = true → WritesBlock (.svdiv f) s x f.d a n (savedBlock s y)))) ∧
  (∀ f s x y, ready (.rsdiv f) s x = true → inside s x = true → named x f.b → subjectOf (.rsdiv f) s x f.b = some y →
    let ag := s.agent x
    let a := src (.rsdiv f) s x .A f.a 2 (cxOf (.rsdiv f) s x).F
    let hd := s.seeBlock x a 32
    let nt := hd / 2 ^ 24 % 2 ^ 8
    let fits := nt ≤ s.freeTails y.ck ∧ s.tailsOf y.ck y.wave = []
    (x.mgmt = true → (s.wave y.wk).stopped = false → Computes (.rsdiv f) s x f.d 1 (fun _ => 0)) ∧
    ((x.mgmt = true → (s.wave y.wk).stopped = true) →
      (a % 64 ≠ 0 → AllStop (.rsdiv f) s x 5 (.ofNat 57 a)) ∧
      (a % 64 = 0 → blockFail (s.pieces ag a 32 .rd) = none →
        (hd % 2 ^ 16 ≠ 3 → Refused (.rsdiv f) s x f.d y (hd % 2 ^ 16)) ∧
        (hd % 2 ^ 16 = 3 → ¬ fits → Reads (.rsdiv f) s x f.d 0) ∧
        (hd % 2 ^ 16 = 3 → fits → (x.mgmt = false → (s.wave x.wk).parked.isSome = true) →
          let n := 0x1240 + 0x840 * nt
          let b := s.seeBlock x a n
          blockFail (s.pieces ag a n .rd) = none →
          ∃ t, exec (.rsdiv f) s = .next t ∧ Gets (cxOf (.rsdiv f) s x) f.d 1 (cxOf (.rsdiv f) s x).act (fun _ => 1) s t ∧
            RegsKept x (destCodes f.d 1) (cxOf (.rsdiv f) s x).act s t ∧ (y.wk ≠ x.wk → RegsKept y [] [] s t) ∧ Restored s t y b nt ∧ Rehelds s t y (b / 2 ^ (8 * 0x12) % 2 ^ 16) ∧
            (∀ k, k ≠ x.wk → k ≠ y.wk → t.wave k = s.wave k) ∧ t.mem = s.mem ∧ GoesOn x s t))))

/-- The block of a bound name (R265, R197). -/
def queueBlockOf (s : State) (y : Sel) (qn : Nat) : Nat :=
  let b := (s.wave y.wk).bind qn
  let c := s.core y.ck
  let r := FMap.get {} c.queues (bRec b)
  atByte 0 3 + atByte 2 b.toNat +
    atByte 8 (r.depth * 2 ^ 35 + r.base / 128 * 2 ^ 22 + r.dir * 2 ^ 20 + r.pcnt * 2 ^ 15 + r.ccnt * 2 ^ 10 +
      (if s.mxp y.ck (bRec b) then 4 else 0) + (if r.closed then 2 else 0) + (if r.valid then 1 else 0)) +
    atByte 0x10 (r.count * 2 ^ 24 + r.tail * 2 ^ 12 + r.head) +
    ((List.range r.count).map (fun i => atByte (0x20 + 4 * i) (c.scratchWord (c.ringAt r ((r.head + i) % r.depth))).toNat)).sum

/-- A saved record (R197, R198), and whether it keeps their limits for a role. -/
def savedRecord (b : Nat) : QRec :=
  { valid := b.testBit 64, closed := b.testBit 65, ccnt := b / 2 ^ 74 % 2 ^ 5, pcnt := b / 2 ^ 79 % 2 ^ 5, dir := b / 2 ^ 84 % 4
    base := b / 2 ^ 86 % 2 ^ 13 * 128, depth := b / 2 ^ 99 % 2 ^ 13, head := b / 2 ^ 128 % 2 ^ 12, tail := b / 2 ^ 140 % 2 ^ 12
    count := b / 2 ^ 152 % 2 ^ 13 }
def inLimits (r : QRec) (role : Nat) : Prop :=
  32 ≤ r.depth ∧ r.depth ≤ 4096 ∧ r.dir ≠ 3 ∧ role ≠ 0 ∧ (r.dir = 1 → role = 1) ∧ (r.dir = 2 → role = 2) ∧ r.head < r.depth ∧
    r.count ≤ r.depth ∧ r.tail = (r.head + r.count) % r.depth

/-- A record that loses a binding of a role; that of no binding is free, with no elements (R200). -/
def lessRole (r : QRec) (role : Nat) : QRec :=
  let p := r.pcnt - (if role = 1 ∨ role = 3 then 1 else 0)
  let c := r.ccnt - (if role = 2 ∨ role = 3 then 1 else 0)
  if p = 0 ∧ c = 0 then { r with pcnt := 0, ccnt := 0, valid := false, count := 0 } else { r with pcnt := p, ccnt := c }

/-- How many bindings of the group's waves name a record, of the roles that may push, or pop. -/
def bindersOf (t : State) (ck gid qi : Nat) (may : Nat → Bool) : Nat :=
  (((t.residents ck).filter (fun p => decide (p.2.gid = gid))).map (fun p =>
    (p.2.binds.filter (fun b => bnd b.2 && decide (bRec b.2 = qi) && may (bRole b.2))).length)).sum

/-- The other names of the subject, and other waves and cores, are as before. -/
structure BindFrame (x y : Sel) (qn : Nat) (s t : State) : Prop where
  rest : t = { s with
    waves := t.waves, cores := t.cores, tails := t.tails, regions := t.regions, absent := t.absent, empties := t.empties
    defer := t.defer }
  tags : s.absent = [] → t.empties = s.empties
  waves : ∀ k, k ≠ x.wk → k ≠ y.wk → t.wave k = s.wave k
  names : ∀ k, k ≠ qn → (t.wave y.wk).bind k = (s.wave y.wk).bind k
  own : { (t.wave x.wk).still with binds := [] } = { (s.wave x.wk).still with binds := [] }
  binds : y.wk ≠ x.wk → (t.wave x.wk).binds = (s.wave x.wk).binds
  subject : y.wk ≠ x.wk → { t.wave y.wk with binds := [] } = { s.wave y.wk with binds := [] }
  cores : ∀ k, (t.core k).calm = (s.core k).calm
  rings : ∀ k, k ≠ y.ck → (t.core k).scratch = (s.core k).scratch

/-- R265. -/
def QueueSaves : Prop :=
  SelectorStops .qsave ∧ NoSubject .qsave ∧ SelectorStops .qrest ∧ NoSubject .qrest ∧
  (∀ f s x y, ready (.qsave f) s x = true → inside s x = true → named x f.b → subjectOf (.qsave f) s x f.b = some y →
    let a := src (.qsave f) s x .A f.a 2 (cxOf (.qsave f) s x).F
    let qn := f.eng.toNat % 32
    let b := (s.wave y.wk).bind qn
    let n := if bnd b then 0x20 + 4 * (FMap.get {} (s.core y.ck).queues (bRec b)).count else 0x20
    let ps := s.pieces (s.agent x) a n .wr
    let pushing := (s.core y.ck).pushing y.wave (bRec b)
    BlockStops (.qsave f) s x a 32 ps ∧
    (a % 32 = 0 → blockFail ps = none → pushing = true → Waits (.qsave f) s x) ∧
    (a % 32 = 0 → blockFail ps = none → pushing = false →
      WritesBlock (.qsave f) s x f.d a n (if bnd b then queueBlockOf s y qn else 3))) ∧
  (∀ f s x y, ready (.qrest f) s x = true → inside s x = true → named x f.b → subjectOf (.qrest f) s x f.b = some y →
    let i : Instr := .qrest f
    let cx := cxOf i s x
    let ag := s.agent x
    let a := src i s x .A f.a 2 cx.F
    let qn := f.eng.toNat % 32
    let w := s.wave y.wk
    let hd := s.seeBlock x a 32
    let r := savedRecord hd
    let role := hd / 2 ^ 29 % 4
    let n := 0x20 + 4 * r.count
    let may := inLimits r role ∧ mayJoin s y qn r.base r.depth r.dir
    let name := fun (t : State) => (t.wave y.wk).bind qn
    (a % 32 ≠ 0 → AllStop i s x 5 (.ofNat 57 a)) ∧
    (a % 32 = 0 → blockFail (s.pieces ag a 32 .rd) = none →
      (hd % 2 ^ 16 ≠ 3 → Refused i s x f.d y (hd % 2 ^ 16)) ∧
      (hd % 2 ^ 16 = 3 → hd.testBit 31 = false → bnd (w.bind qn) = false → Reads i s x f.d 1) ∧
      (hd % 2 ^ 16 = 3 → hd.testBit 31 = false → bnd (w.bind qn) = true → s.freeBarred y (w.bind qn) = true → WholeStop i s x 13) ∧
      (hd % 2 ^ 16 = 3 → hd.testBit 31 = false → bnd (w.bind qn) = true → s.freeBarred y (w.bind qn) = false →
        ∃ t, exec i s = .next t ∧ Gets cx f.d 1 cx.act (fun _ => 1) s t ∧ RegsKept x (destCodes f.d 1) cx.act s t ∧ name t = w.bind qn &&& 0x7FFF ∧
          FMap.get {} (t.core y.ck).queues (bRec (w.bind qn)) = lessRole (FMap.get {} (s.core y.ck).queues (bRec (w.bind qn))) (bRole (w.bind qn)) ∧
          (t.core y.ck).scratch = (s.core y.ck).scratch ∧ (∀ k, k ≠ bRec (w.bind qn) → FMap.get {} (t.core y.ck).queues k = FMap.get {} (s.core y.ck).queues k) ∧
          BindFrame x y qn s t ∧ GoesOn x s t) ∧
      (hd % 2 ^ 16 = 3 → hd.testBit 31 = true → ¬ may → Reads i s x f.d 0) ∧
      (x.wave < 64 → hd % 2 ^ 16 = 3 → hd.testBit 31 = true → may → blockFail (s.pieces ag a n .rd) = none →
        ∃ t qi, exec i s = .next t ∧ Gets cx f.d 1 cx.act (fun _ => 1) s t ∧ RegsKept x (destCodes f.d 1) cx.act s t ∧
          name t = .ofNat 16 (2 ^ 15 + role * 2 ^ 13 + qi * 2 ^ 7) ∧ BindFrame x y qn s t ∧ GoesOn x s t ∧
          let q := FMap.get {} (t.core y.ck).queues qi
          q.pcnt = bindersOf t y.ck w.gid qi (fun k => k == 1 || k == 3) ∧ q.ccnt = bindersOf t y.ck w.gid qi (fun k => k == 2 || k == 3) ∧
          match (s.core y.ck).joins w.gid r.base with
          | some (qj, old) => qi = qj ∧
              { q with pcnt := 0, ccnt := 0 } = { old with pcnt := 0, ccnt := 0, closed := old.closed && !(role == 1 || role == 3) } ∧
              (t.core y.ck).scratch = (s.core y.ck).scratch
          | none => qi < 64 ∧ (FMap.get {} (s.core y.ck).queues qi).valid = false ∧
              (∀ k < qi, (FMap.get {} (s.core y.ck).queues k).valid = true) ∧
              { q with pcnt := 0, ccnt := 0 } = { r with pcnt := 0, ccnt := 0, valid := true, gid := w.gid } ∧
              (∀ b, b < (t.core y.ck).ringAt q 0 ∨ (t.core y.ck).ringAt q 0 + 4 * r.depth ≤ b →
                FMap.get 0 (t.core y.ck).scratch b = FMap.get 0 (s.core y.ck).scratch b) ∧
              ∀ j < r.count, (t.core y.ck).scratchWord ((t.core y.ck).ringAt q ((r.head + j) % r.depth)) =
                  .ofNat 32 (s.seeBlock x a n / 2 ^ (8 * (0x20 + 4 * j))))))

/-- R266: the barrier of the subject's group, a cluster barrier at the home of the subject's die. -/
def BarrierSaves : Prop :=
  SelectorStops .bsave ∧ NoSubject .bsave ∧ SelectorStops .brest ∧ NoSubject .brest ∧
  (∀ f s x y, ready (.bsave f) s x = true → inside s x = true → named x f.b → subjectOf (.bsave f) s x f.b = some y →
    let a := src (.bsave f) s x .A f.a 2 (cxOf (.bsave f) s x).F
    let bi := f.eng.toNat % 256
    let ps := s.pieces (s.agent x) a 32 .wr
    (s.groupBar y bi = none → BlockStops (.bsave f) s x a 32 [] ∧ (a % 32 = 0 → Computes (.bsave f) s x f.d 1 (fun _ => 0))) ∧
    (∀ ck i, s.groupBar y bi = some (ck, i) → BlockStops (.bsave f) s x a 32 ps ∧
      (a % 32 = 0 → blockFail ps = none → let b := s.bar ck i
        WritesBlock (.bsave f) s x f.d a 32 (atByte 0 3 + atByte 2 bi + atByte 8 (b.phase.toNat * 2 ^ 48 + b.bytes.toNat * 2 ^ 16 +
          b.arr * 2 ^ 4 + b.kind * 2 ^ 2 + (if b.rwait then 2 else 0)) + atByte 0x10 b.exparr)) )) ∧
  (∀ f s x y, ready (.brest f) s x = true → inside s x = true → named x f.b → subjectOf (.brest f) s x f.b = some y →
    let i : Instr := .brest f
    let a := src i s x .A f.a 2 (cxOf i s x).F
    let bi := f.eng.toNat % 256
    let ps := s.pieces (s.agent x) a 32 .rd
    let v := s.seeBlock x a 32
    (s.groupBar y bi = none → BlockStops i s x a 32 [] ∧ (a % 32 = 0 → Computes i s x f.d 1 (fun _ => 0))) ∧
    (∀ ck k, s.groupBar y bi = some (ck, k) → BlockStops i s x a 32 ps ∧
      (a % 32 = 0 → blockFail ps = none →
        let b := s.bar ck k
        let kind := if (s.groupOf y).clu = true ∧ bi < (s.groupOf y).nc then 2 else 1
        (v % 2 ^ 16 ≠ 3 → Refused i s x f.d y (v % 2 ^ 16)) ∧
        (v % 2 ^ 16 = 3 → v / 2 ^ 66 % 4 ≠ kind → Reads i s x f.d 0) ∧
        (v % 2 ^ 16 = 3 → v / 2 ^ 66 % 4 = kind → ∃ t, exec i s = .next t ∧ Gets (cxOf i s x) f.d 1 (cxOf i s x).act (fun _ => 1) s t ∧
          RegsKept x (destCodes f.d 1) (cxOf i s x).act s t ∧ BarFrame x ck k s t ∧ GoesOn x s t ∧
          t.bar ck k = { b with phase := .ofNat 16 (v / 2 ^ 112), bytes := .ofNat 32 (v / 2 ^ 80), arr := v / 2 ^ 68 % 2 ^ 12, kind := kind
                                rwait := v.testBit 65, exparr := v / 2 ^ 128 % 2 ^ 12 }))))
end Sys2Proof.Rule

/-- R261 to R266, R281: the save blocks of waves, queues and barriers, what they hold, and what a restore from them leaves. Four points are the model's
reading: status 0 for a subject or a barrier that is not there (log entry 40), that `qsave` waits for the wave's own push under way (log entry 59), the
management core whose RFAULT a refused restore sets and the STATE 4 without a record (log entry 42), and that the parked state is saved and
restored of a subject that has one (log entry 88). -/
def Obligations.SystemSaves : Prop := SaveBlocks ∧ QueueSaves ∧ BarrierSaves

namespace Sys2Proof.Rule
/-- R267: `kmov` copies between D or A and the stopped subject's kN, lane by lane. -/
def KRegisterMoves : Prop :=
  SelectorStops .kmov ∧
  (∀ f s x, ready (.kmov f) s x = true → inside s x = true → named x f.b →
    let k := 420 + f.eng.toNat % 8
    let y := subjectOf (.kmov f) s x f.b
    let on := fun (y : Sel) => (s.wave y.wk).stopped = true
    (f.eng.toNat / 8 % 2 = 0 → (∀ y', y = some y' → ¬ on y') → Computes (.kmov f) s x f.d 1 (fun _ => 0)) ∧
    (f.eng.toNat / 8 % 2 = 0 → ∀ y', y = some y' → on y' →
      Computes (.kmov f) s x f.d 1 (fun l => ((s.wave y'.wk).reg k l).toNat)) ∧
    (f.eng.toNat / 8 % 2 = 1 → (∀ y', y = some y' → ¬ on y') → OnlyAdvances (.kmov f) s x) ∧
    (f.eng.toNat / 8 % 2 = 1 → ∀ y', y = some y' → on y' → ∃ t, exec (.kmov f) s = .next t ∧
      (∀ l ∈ (cxOf (.kmov f) s x).act, (t.wave y'.wk).raw k l = .ofNat 32 (src (.kmov f) s x .A f.a 1 l)) ∧
      RegsKept y' [k] (cxOf (.kmov f) s x).act s t ∧ (t.wave y'.wk).still = (s.wave y'.wk).still ∧
      (t.wave y'.wk).div = (s.wave y'.wk).div ∧ (t.wave y'.wk).fpflags = (s.wave y'.wk).fpflags ∧
      RegsKept x [] [] s t ∧ FlagsKept x s t ∧ AluFrame x s (t.modWave y'.wk (fun _ => s.wave y'.wk)) ∧ GoesOn x s t))

/-- R85 of one context: the top entry alone is RUN; masks of RUN and PEND entries are disjoint and nonzero, and lie inside every JOIN below that
they overlap; a JOIN lies inside every JOIN below that it overlaps. -/
def soundStack (l : List DivEntry) : Prop :=
  let join := fun (e : DivEntry) => e.kind = 2
  let inside := fun (e j : DivEntry) => e.mask &&& j.mask = 0 ∨ e.mask &&& ~~~j.mask = 0
  (∃ t r, l = t :: r ∧ t.kind = 0 ∧ ∀ e ∈ r, e.kind ≠ 0) ∧ (∀ e ∈ l, e.kind ≠ 3 ∧ (¬ join e → e.mask ≠ 0)) ∧
  l.Pairwise (fun e j => if join j then inside e j else (¬ join e → e.mask &&& j.mask = 0))

/-- The checks of R268, for a wave with a handler's or its own divergence state; a main context that has ended has no stack to check. -/
def soundToResume (s : State) (y : Sel) : Prop :=
  let w := s.wave y.wk
  let ts := (s.tailsOf y.ck y.wave).map (fun k => s.tail (y.ck * 32 + k))
  (w.div.stack ≠ [] → soundStack w.div.stack) ∧
  (∀ t ∈ ts, 1 ≤ t.fs.toNat ∧ t.fs.toNat ≤ 384 ∧ t.fb.toNat + t.fs.toNat ≤ w.n ∧ t.lanes ≠ 0 ∧ (t.stack ≠ [] → soundStack t.stack)) ∧
  ts.Pairwise (fun a b => a.lanes &&& b.lanes = 0 ∨ a.fb.toNat + a.fs.toNat ≤ b.fb.toNat ∨ b.fb.toNat + b.fs.toNat ≤ a.fb.toNat) ∧
  (∀ b ∈ w.binds, bnd b.2 = true → let r := FMap.get {} (s.core y.ck).queues (bRec b.2)
    r.tail = (r.head + r.count) % r.depth ∧ r.count ≤ r.depth) ∧
  (∀ i < (s.groupOf y).nb, ∀ ck k, s.groupBar y i = some (ck, k) → (s.bar ck k).arr ≤ (s.bar ck k).exparr)

/-- The RUN entry a slot on. -/
def slotOn : List DivEntry → List DivEntry
  | [] => []
  | e :: r => { e with pc := (nextPc e.pc).getD e.pc } :: r

/-- Liveness of the latch after a main stack a has settled to l (R94): it ends where the RUN entry changed, and an instruction that has executed
takes one from it. -/
def latchAfter (a l : List DivEntry) (done : Bool) (n : Nat) : Nat :=
  let same := match l, a with
    | e :: l', f :: a' => decide (e.mask = f.mask ∧ e.kind = f.kind ∧ l'.length = a'.length)
    | [], [] => !done
    | _, _ => false
  if same then (if done then n - 1 else n) else 0

/-- CAUSE of a refused resume: that of the stop, or a code of R70 where no trap had stopped the wave (log entry 42). -/
def refusedCause (old new : Nat) : Prop :=
  (old ≠ 0 → new = old) ∧ (old = 0 → (1 ≤ new ∧ new ≤ 0x14) ∨ new = 0x20 ∨ new = 0x21)

/-- The subject runs again: what its wave record holds, and each of its contexts settled, the reporting one a slot on if `adv` says so. An
instruction that the reporting context does not go on with (`left`) leaves no part of it behind. The
instruction itself has performed what its context stored before (u). -/
def Resumed (s u t : State) (x y : Sel) (redo : Option Mask) (adv left : Bool) : Prop :=
  let w0 := s.wave y.wk
  let w : Wave := if left = true ∧ w0.wctx = 63 then
    { w0 with main := { w0.main with sync := none }, div := { w0.div with can := none } } else w0
  let z : Wave → Wave := fun v => { v with div := { v.div with stack := [], live := [] } }
  let before := fun k => if adv = true ∧ k = w.wctx then slotOn (s.stack { y with ctx := k }) else s.stack { y with ctx := k }
  z (t.wave y.wk) = z { w with
    state := (if w.parked.isSome then 3 else 0), cause := 0, number := 0, async := false, posted := false
    redo := match redo with | some m => w.redo.set (~~~0) w.wctx m | none => w.redo } ∧
  (∀ k, k = 63 ∨ k ∈ s.tailsOf y.ck y.wave → t.stack { y with ctx := k } = settle w.div.tmode (before k)) ∧
  (FMap.wf 0 w.div.live = true → ∀ e, FMap.get 0 (t.wave y.wk).div.live e =
    latchAfter (before 63) (settle w.div.tmode (before 63)) (adv && decide (w.wctx = 63)) (FMap.get 0 w.div.live e)) ∧
  (∀ k, ({ t.tail k with stack := [] } : Tail) = { s.tail k with stack := [] }) ∧
  (∀ k, k ≠ y.wk → k ≠ x.wk → t.wave k = s.wave k) ∧ (t.wave x.wk).still = (u.wave x.wk).still ∧
  (∀ k, (t.core k).still = (u.core k).still) ∧ RegsKept x [] [] s t ∧ FlagsKept x s t ∧ t.mem = u.mem ∧ GoesOn x s t

/-- R268 in a management-core wave. The RUN entry of the reporting context has PC = FAULTPC, but where a window write has changed it: the model
then goes on at the RUN entry's PC (log entry 87). -/
def ResumesSubject : Prop :=
  (∀ f s x, ready (.hret f) s x = true → inside s x = true → named x f.b → subjectOf (.hret f) s x f.b = none → OnlyAdvances (.hret f) s x) ∧
  (∀ f s x y, x.mgmt = true → ready (.hret f) s x = true → inside s x = true → subjectOf (.hret f) s x f.b = some y → f.b ≠ .none →
    let u := s.publish x
    let w := s.wave y.wk
    let rep : Sel := { y with ctx := w.wctx }
    let held := w.state = 1 ∨ w.state = 4
    let kept := (s.run rep).pc = w.faultpc
    (¬ held → ∃ t, exec (.hret f) s = .next t ∧ GoesOn x s t ∧ RegsKept x [] [] s t ∧ FlagsKept x s t ∧ AluFrame x u t) ∧
    (held → ¬ soundToResume s y → ∃ t, exec (.hret f) s = .next t ∧ GoesOn x s t ∧ RegsKept x [] [] s t ∧ FlagsKept x s t ∧
      (∃ c, refusedCause w.cause c ∧ t.wave y.wk = { w with state := 4, posted := false, stopTick := s.tick, cause := c }) ∧ AluFrame x u (t.modWave y.wk (fun _ => w))) ∧
    (held → soundToResume s y → kept → w.async = true → ∃ t, exec (.hret f) s = .next t ∧ Resumed s u t x y none false false) ∧
    (held → soundToResume s y → ¬ kept → ∃ t, exec (.hret f) s = .next t ∧ Resumed s u t x y none false true) ∧
    (held → soundToResume s y → kept → w.async = false → f.eng.toNat % 2 = 1 →
      ∃ t, exec (.hret f) s = .next t ∧ Resumed s u t x y (some (w.actmask &&& ~~~w.effmask)) false false) ∧
    (held → soundToResume s y → kept → w.async = false → f.eng.toNat % 2 = 0 → (nextPc (s.run rep).pc).isSome = true →
      (w.wctx = 63 ∨ w.wctx ∈ s.tailsOf y.ck y.wave) → ∃ t, exec (.hret f) s = .next t ∧ Resumed s u t x y none true true) ∧
    (held → soundToResume s y → kept → w.async = false → f.eng.toNat % 2 = 0 → nextPc (s.run rep).pc = none → s.stack rep ≠ [] →
      ∃ t, exec (.hret f) s = .next t ∧ GoesOn x s t ∧
        StoppedAs rep t { cause := 2, pc := w.faultpc, mask := w.actmask, eff := w.effmask }))

/-- R268, R269 in a redirected wave: the parked state becomes live as it was saved, or the wave ends. That a parked state which fails the checks becomes
live, with STATE 4 and a record with REFUSED, is log entry 42. -/
def LeavesHandler : Prop :=
  (∀ f s x d, x.mgmt = false → ready (.hret f) s x = true → f.b = .none → (s.wave x.wk).parked = some d →
    let p := s.publish x
    let u := s.modWave x.wk (fun w => { w with div := d, parked := none })
    let gone := d.stack = [] ∧ s.tailsOf x.ck x.wave = []
    (gone → ∃ t, exec (.hret f) s = .next t ∧ (t.wave x.wk).state = 0 ∧ (t.wave x.wk).parked = none ∧ t.stack x = [] ∧
      RegsKept x [] [] s t ∧ (∀ k, k ≠ x.wk → t.wave k = s.wave k) ∧ (∀ k, (t.core k).flow = (p.core k).flow) ∧ t.mem = p.mem) ∧
    (¬ gone → soundToResume u x → ∃ t, exec (.hret f) s = .next t ∧ (t.wave x.wk).state = 0 ∧ (t.wave x.wk).parked = none ∧
      (t.wave x.wk).redo = d.redo ∧
      (t.wave x.wk).div = { d with stack := settle d.tmode d.stack, redo := [], live := (t.wave x.wk).div.live } ∧
      (FMap.wf 0 d.live = true → ∀ e, FMap.get 0 (t.wave x.wk).div.live e =
        latchAfter d.stack (settle d.tmode d.stack) false (FMap.get 0 d.live e)) ∧
      (∀ k ∈ s.tailsOf x.ck x.wave, t.stack { x with ctx := k } = settle d.tmode (s.stack { x with ctx := k })) ∧ RegsKept x [] [] s t ∧
      (∀ k, k ≠ x.wk → t.wave k = s.wave k) ∧ (∀ k, (t.core k).flow = (p.core k).flow) ∧
      (d.stack ≠ [] → ∀ k, (t.core k).still = (p.core k).still) ∧ t.mem = p.mem) ∧
    (¬ gone → ¬ soundToResume u x → ∃ t, exec (.hret f) s = .next t ∧ (t.wave x.wk).state = 4 ∧
      (t.wave x.wk).div = { d with redo := [] } ∧ (t.wave x.wk).redo = d.redo ∧ (t.wave x.wk).posted = false ∧
      refusedCause (s.wave x.wk).cause (t.wave x.wk).cause ∧ RegsKept x [] [] s t ∧ t.mem = p.mem)) ∧
  (∀ f s x, ready (.halt f) s x = true → inside s x = true →
    let w := s.wave x.wk
    let d := w.parked.getD w.div
    let ts := s.tailsOf x.ck x.wave
    (x.mgmt = true → (s.core x.ck).trapq = [] → Waits (.halt f) s x) ∧
    (x.mgmt = true → (s.core x.ck).trapq ≠ [] → OnlyAdvances (.halt f) s x) ∧
    (x.mgmt = false → s.drained x = false → Waits (.halt f) s x) ∧
    (x.mgmt = false → s.drained x = true → ∃ t, exec (.halt f) s = .next t ∧ t.stack x = [] ∧ (t.wave x.wk).parked = none ∧
      (t.wave x.wk).state = 0 ∧ (t.wave x.wk).heldarr = 0 ∧ (t.wave x.wk).funel = { w.funel with
        halted := true, tails := ts.length, ended := w.funel.ended ||| ~~~(liveMask d.stack), table := w.table, can := d.can
        redo := (t.wave x.wk).funel.redo } ∧
      (FMap.wf (~~~0) d.redo = true → FMap.get (~~~0) (t.wave x.wk).funel.redo 63 = FMap.get (~~~0) d.redo 63 ∧
        ∀ k < ts.length, FMap.get (~~~0) (t.wave x.wk).funel.redo (64 + k) = FMap.get (~~~0) d.redo (ts.getD k 0)) ∧
      (∀ k ∈ ts, t.tail (x.ck * 32 + k) = { s.tail (x.ck * 32 + k) with valid := false, ctx := {}, flags := 0 }) ∧
      (∀ j, (∀ k ∈ ts, j ≠ x.ck * 32 + k) → t.tail j = s.tail j) ∧ RegsKept x [] [] s t ∧
      (∀ k, k ≠ x.wk → t.wave k = s.wave k) ∧
      (∀ k, { (t.core k).flow with held := [] } = { (s.core k).flow with held := [] }) ∧ t.mem = s.mem))

/-- A trap queue record as TRAPQ shows it (R253). -/
def trapWord (r : TrapRec) : Nat :=
  2 ^ 63 + (if r.refused then 2 ^ 62 else 0) + r.cause * 2 ^ 40 + r.ctx * 2 ^ 34 + r.core * 2 ^ 27 + r.wave * 2 ^ 21

/-- R253, R270, R273, R275: system registers. In a redirected shader wave `mcack` and `swr` have no effect (log entry 42). -/
def SystemRegisters : Prop :=
  (∀ f s x, ready (.srd f) s x = true → inside s x = true →
    let n := f.eng.toNat % 2 ^ 16
    let c := s.core x.ck
    let d := s.die x.die
    (x.mgmt = false ∨ n ≠ 0 ∨ c.trapq = [] → Computes (.srd f) s x f.d 2 (fun _ =>
      if n = 1 then 3 else if x.mgmt = false then 0
      else if n = 2 then d.fbgen.toNat + (if d.fbovf then 2 ^ 9 else 0)
      else if n = 3 then d.fbhead.toNat else if n = 4 then d.fbtail.toNat
      else if n = 5 then c.mclog.toNat else if n = 6 then c.rfault.toNat else 0)) ∧
    (∀ r q, x.mgmt = true → n = 0 → c.trapq = r :: q → ∃ t, exec (.srd f) s = .next t ∧
      Gets (cxOf (.srd f) s x) f.d 2 (cxOf (.srd f) s x).act (fun _ => trapWord r) s t ∧ (t.core x.ck).trapq = q ∧
      RegsKept x (destCodes f.d 2) (cxOf (.srd f) s x).act s t ∧ FlagsKept x s t ∧
      AluButCore x s t (fun w v => { v with trapq := w.trapq }) ∧ GoesOn x s t)) ∧
  (∀ f s x, ready (.swr f) s x = true → inside s x = true →
    let n := f.eng.toNat % 2 ^ 16
    let v := src (.swr f) s x .A f.a 2 (cxOf (.swr f) s x).F
    let d := s.die x.die
    let byDie := fun (d' : Die) => ∃ t, exec (.swr f) s = .next t ∧ t.die x.die = d' ∧ (∀ k, k ≠ x.die → t.die k = s.die k) ∧
      AluFrame x s { t with dies := s.dies } ∧ RegsKept x [] [] s t ∧ FlagsKept x s t ∧ GoesOn x s t
    (x.mgmt = false ∨ n ∉ [2, 3, 6] → OnlyAdvances (.swr f) s x) ∧
    (x.mgmt = true → n = 2 → byDie { d with
      fbhead := (if v.testBit 8 then d.fbtail else d.fbhead), fbgen := (if v.testBit 8 then d.fbgen + 1 else d.fbgen)
      fbovf := d.fbovf && !v.testBit 9 }) ∧
    (x.mgmt = true → n = 3 → byDie { d with fbhead := .ofNat 32 v }) ∧
    (x.mgmt = true → n = 6 → ∃ t, exec (.swr f) s = .next t ∧
      (t.core x.ck).rfault = .ofNat 64 ((s.core x.ck).rfault.toNat % (if v.testBit 63 then 2 ^ 63 else 2 ^ 64)) ∧
      AluButCore x s t (fun w v => { v with rfault := w.rfault }) ∧ RegsKept x [] [] s t ∧ FlagsKept x s t ∧ GoesOn x s t)) ∧
  (∀ f s x, ready (.mcack f) s x = true → inside s x = true →
    (x.mgmt = false → OnlyAdvances (.mcack f) s x) ∧
    (x.mgmt = true → ∃ t, exec (.mcack f) s = .next t ∧ (t.core x.ck).mclog = .ofNat 64 ((s.core x.ck).mclog.toNat % 2 ^ 62) ∧
      AluButCore x s t (fun w v => { v with mclog := w.mclog }) ∧ RegsKept x [] [] s t ∧ FlagsKept x s t ∧ GoesOn x s t))

/-- The window instruction's offset is out of order: so it is even where the selector names no core (log entry 90). -/
def OffsetStops (mk : XF → Instr) : Prop :=
  ∀ f s x, ready (mk f) s x = true → named x f.b →
    let o := src (mk f) s x .A f.a 1 (cxOf (mk f) s x).F
    (o % (4 * f.szN) ≠ 0 → WholeStop (mk f) s x 5) ∧ (o % (4 * f.szN) = 0 → 2 ^ 24 ≤ o → WholeStop (mk f) s x 8)

/-- R262, R271: `winrd` and `winwr`, whose 64-bit form writes its high word first (log entry 41). -/
def WindowAccesses : Prop :=
  SelectorStops .winrd ∧ SelectorStops .winwr ∧ OffsetStops .winrd ∧ OffsetStops .winwr ∧
  (∀ f s x, ready (.winrd f) s x = true → inside s x = true → named x f.b →
    let o := src (.winrd f) s x .A f.a 1 (cxOf (.winrd f) s x).F
    o % (4 * f.szN) = 0 → o < 2 ^ 24 → Computes (.winrd f) s x f.d f.szN (fun _ => match coreOf (.winrd f) s x f.b with
      | none => 0
      | some c => s.winGet (coreKey x.die c) o + (if f.szN = 2 then 2 ^ 32 * s.winGet (coreKey x.die c) (o + 4) else 0))) ∧
  (∀ f s x, ready (.winwr f) s x = true → inside s x = true → named x f.b →
    let o := src (.winwr f) s x .A f.a 1 (cxOf (.winwr f) s x).F
    let v := src (.winwr f) s x .D f.d f.szN (cxOf (.winwr f) s x).F
    o % (4 * f.szN) = 0 → o < 2 ^ 24 →
      (coreOf (.winwr f) s x f.b = none → OnlyAdvances (.winwr f) s x) ∧
      (∀ c, coreOf (.winwr f) s x f.b = some c →
        let u := (if f.szN = 2 then s.winPut x.die c (o + 4) (v / 2 ^ 32) else s).winPut x.die c o (v % 2 ^ 32)
        ∃ t, exec (.winwr f) s = .next t ∧ (∀ k, k ≠ x.wk → t.wave k = u.wave k) ∧ (∀ k, t.core k = u.core k) ∧ (∀ k, t.tail k = u.tail k) ∧
          (t.wave x.wk).still = (u.wave x.wk).still ∧ t.mem = s.mem ∧ t.regions = s.regions ∧ t.dies = s.dies))

/-- R255, R256: words of a wave's window. In handler mode it shows the state that the wave runs with, not the parked one (log entry 41). -/
def WaveWindowReads : Prop :=
  ∀ (s : State) (ck k l : Nat), k < 64 → l < 32 →
    let w := s.wave (ck * 64 + k)
    let at_ := fun o => s.winGet ck (0x800000 + 0x20000 * k + o)
    (w.state < 8 → w.wctx < 64 → w.cause < 256 → at_ 0 = w.state ∧
      at_ 4 = w.cause * 2 ^ 24 + w.number.toNat * 2 ^ 8 + w.wctx * 2 ^ 2 + (if w.async then 2 else 0)) ∧
    at_ 8 = w.div.tmode.toNat ∧ at_ 0xC = w.faultmask.toNat ∧ at_ 0x10 = w.effmask.toNat ∧
    at_ 0x18 = w.faultpc.toNat % 2 ^ 32 ∧ at_ 0x1C = w.faultpc.toNat / 2 ^ 32 ∧ at_ 0x20 = w.fpctl.toNat ∧
    at_ 0x28 = w.mx * 2 ^ 18 + w.cp * 2 ^ 12 + w.main.st * 2 ^ 6 + w.main.ld ∧
    at_ 0x30 = w.heldarr.toNat ∧ at_ (0x400 + 8 * l) = (FMap.get 0 w.faddr l).toNat % 2 ^ 32 ∧
    (∀ r < w.n, r < 384 → at_ (0x10000 + 0x80 * r + 4 * l) = (w.reg r l).toNat) ∧
    (∀ j < 8, at_ (0x1C000 + 0x80 * j + 4 * l) = (w.reg (420 + j) l).toNat) ∧
    (∀ e < 3, at_ (0x1C400 + 0x80 * e + 4 * l) = (FMap.get 0 w.div.latch (32 * e + l)).toNat) ∧
    (∀ i < 8, ∀ e < 64, at_ (0x1CE00 + 0x20 * e + 4 * i) =
      (if e < w.div.stack.length then entryWord (w.div.stack.reverse.getD e {}) else entryWord (FMap.get {} w.div.above e)) / 2 ^ (32 * i) % 2 ^ 32)

/-- R257: a write to a wave's window takes effect only while the wave has STATE 1, 2 or 4; a register becomes plain. -/
def WaveWindowWrites : Prop :=
  ∀ (s : State) (die core k o v : Nat), k < 64 → o < 0x20000 →
    let wk := waveKey die core k
    let w := s.wave wk
    let t := s.winPut die core (0x800000 + 0x20000 * k + o) v
    (w.stopped = false → t = s) ∧
    (w.stopped = true → ∀ r l, r < w.n → r < 384 → l < 32 → o = 0x10000 + 0x80 * r + 4 * l →
      (t.wave wk).raw r l = .ofNat 32 v ∧ FMap.get false (t.wave wk).aff32 r = false ∧ FMap.get false (t.wave wk).aff64 (r - r % 2) = false ∧
      ∀ r' l', l' < 32 → (r', l') ≠ (r, l) → (t.wave wk).raw r' l' = w.raw r' l') ∧
    (w.stopped = true → o = 8 → t.wave wk = { w with div := { w.div with tmode := .ofNat 32 v } }) ∧
    (w.stopped = true → o ∈ [0xC, 0x10, 0x18, 0x1C] → t = s) ∧
    (w.stopped = true → ∀ l < 32, o = 0x400 + 8 * l → t = s)

/-- Layouts of R197 without MXP, and of R210, both words. -/
def queueWords (r : QRec) : Nat :=
  r.depth * 2 ^ 35 + r.base / 128 * 2 ^ 22 + r.dir * 2 ^ 20 + r.pcnt * 2 ^ 15 + r.ccnt * 2 ^ 10 + (if r.closed then 2 else 0) +
    (if r.valid then 1 else 0) + 2 ^ 64 * (r.count * 2 ^ 24 + r.tail * 2 ^ 12 + r.head)
def barrierWords (b : Bar) : Nat :=
  b.phase.toNat * 2 ^ 48 + b.bytes.toNat * 2 ^ 16 + b.arr * 2 ^ 4 + b.kind * 2 ^ 2 + (if b.rwait then 2 else 0) + 2 ^ 64 * b.exparr
/-- TSTAT of R183. -/
def tailStat (t : Tail) : Nat :=
  t.lanes.toNat * 2 ^ 32 + t.fs.toNat * 2 ^ 23 + t.fb.toNat * 2 ^ 14 + t.wave * 2 ^ 8 + (if t.valid then 2 ^ 7 else 0) + t.stack.length
/-- Word k of 32 bits, and the number with that word replaced. -/
def wordOf (n k : Nat) : Nat := n / 2 ^ (32 * k) % 2 ^ 32
def withWord (n k v : Nat) : Nat := n / 2 ^ (32 * (k + 1)) * 2 ^ (32 * (k + 1)) + v * 2 ^ (32 * k) + n % 2 ^ (32 * k)

/-- R74, R131, R169, R183, R196, R197, R210, R254, R255: the blocks of the window as they read: owner bits, queue records, barriers, tail slots, and of a
wave the exception flags with those of its tails (log entry 41), bindings, return stacks. -/
def WindowBlockReads : Prop :=
  ∀ (s : State) (ck : Nat),
    (∀ j < 26, ∀ b < 32, (s.winGet ck (0x100 + 4 * j)).testBit b = FMap.get false (s.core ck).owner (32 * j + b)) ∧
    (∀ i < 64, ∀ k < 4, s.winGet ck (0x10000 + 16 * i + 4 * k) =
      wordOf (queueWords (FMap.get {} (s.core ck).queues i) + (if s.mxp ck i then 4 else 0)) k) ∧
    (∀ i < 256, ∀ k < 4, s.winGet ck (0x20000 + 16 * i + 4 * k) = wordOf (barrierWords (s.bar ck i)) k) ∧
    (∀ i < 32, let t := s.tail (ck * 32 + i)
      (∀ k < 2, s.winGet ck (0x40000 + 0x1000 * i + 4 * k) = wordOf (tailStat t) k) ∧
      s.winGet ck (0x40000 + 0x1000 * i + 8) = t.ctx.st * 2 ^ 6 + t.ctx.ld ∧
      ∀ e < 64, ∀ k < 8, s.winGet ck (0x40000 + 0x1000 * i + 0x800 + 0x20 * e + 4 * k) =
        wordOf (if e < t.stack.length then entryWord (t.stack.reverse.getD e {}) else entryWord (FMap.get {} t.above e)) k) ∧
    s.winGet ck 0x18 = (s.core ck).tlFast.toNat ∧ s.winGet ck 0x1C = (s.core ck).tlSlow.toNat ∧
    (∀ i < 64, let w := s.wave (ck * 64 + i)
      let at_ := fun o => s.winGet ck (0x800000 + 0x20000 * i + o)
      at_ 0x24 = (s.allFlags ck i).toNat ∧
      (∀ j < 16, at_ (0x40 + 4 * j) = (w.bind (2 * j)).toNat + 2 ^ 16 * (w.bind (2 * j + 1)).toNat) ∧
      ∀ l < 32, at_ (0x1C580 + 4 * l) = (w.ret l).spcnt * 2 ^ 16 + (w.ret l).oncnt ∧
        ∀ k < 4, ∀ j < 4, at_ (0x1C600 + 0x40 * l + 0x10 * k + 4 * j) = wordOf (retWord (FMap.get {} (w.ret l).ent k)) j)

/-- R15, R183, R197, R210, R257: writes to the blocks: each takes effect only while the waves that it concerns are stopped; a count above its
limit is not stored (log entry 41). -/
def WindowBlockWrites : Prop :=
  ∀ (s : State) (die core v : Nat), v < 2 ^ 32 →
    let ck := coreKey die core
    let put := fun o => s.winPut die core o v
    (∀ j < 26, ((∃ p ∈ s.residents ck, p.2.stopped = false) → put (0x100 + 4 * j) = s) ∧
      ((∀ p ∈ s.residents ck, p.2.stopped = true) → ∀ g, FMap.get false ((put (0x100 + 4 * j)).core ck).owner g =
        if 32 * j ≤ g ∧ g < 32 * j + 32 then v.testBit (g - 32 * j) else FMap.get false (s.core ck).owner g)) ∧
    (∀ i < 64, (s.recStopped ck i = true ↔ ∀ p ∈ s.residents ck, p.2.stopped = true ∨ ∀ b ∈ p.2.binds, bnd b.2 = true → bRec b.2 ≠ i) ∧
      ∀ k < 4, (s.recStopped ck i = false → put (0x10000 + 16 * i + 4 * k) = s) ∧
        (s.recStopped ck i = true → let r := FMap.get {} (s.core ck).queues i
          let n := withWord (queueWords r) k v
          FMap.get {} ((put (0x10000 + 16 * i + 4 * k)).core ck).queues i =
            { r with valid := n.testBit 0, closed := n.testBit 1, ccnt := n / 2 ^ 10 % 2 ^ 5, pcnt := n / 2 ^ 15 % 2 ^ 5, dir := n / 2 ^ 20 % 4
                     base := n / 2 ^ 22 % 2 ^ 13 * 128, depth := n / 2 ^ 35 % 2 ^ 13, head := n / 2 ^ 64 % 2 ^ 12, tail := n / 2 ^ 76 % 2 ^ 12
                     count := n / 2 ^ 88 % 2 ^ 13 })) ∧
    (∀ i < 256, let g := (s.core ck).barGroup i
      ((s.bar ck i).kind ≤ 1 → (s.barStopped ck i = true ↔
        ∀ w ∈ g.waves, (s.wave (ck * 64 + w)).valid = true → (s.wave (ck * 64 + w)).gid = g.id → (s.wave (ck * 64 + w)).stopped = true)) ∧
      ∀ k < 4, (s.barStopped ck i = false → put (0x20000 + 16 * i + 4 * k) = s) ∧
        (s.barStopped ck i = true → let n := withWord (barrierWords (s.bar ck i)) k v
          (put (0x20000 + 16 * i + 4 * k)).bar ck i =
            { s.bar ck i with phase := .ofNat 16 (n / 2 ^ 48), bytes := .ofNat 32 (n / 2 ^ 16), arr := n / 2 ^ 4 % 2 ^ 12, kind := n / 2 ^ 2 % 4
                              rwait := n.testBit 1, exparr := n / 2 ^ 64 % 2 ^ 12 })) ∧
    (∀ i < 32, let t := s.tail (ck * 32 + i)
      let at_ := fun o => (put (0x40000 + 0x1000 * i + o)).tail (ck * 32 + i)
      let shut := t.valid = true ∧ (s.wave (ck * 64 + t.wave)).stopped = false
      (shut → ∀ o, o < 0x1000 → put (0x40000 + 0x1000 * i + o) = s) ∧
      (¬ shut → (∀ k < 2, let n := withWord (tailStat t) k v
          (at_ (4 * k)).lanes = .ofNat 32 (n / 2 ^ 32) ∧ (at_ (4 * k)).fs = .ofNat 9 (n / 2 ^ 23) ∧ (at_ (4 * k)).fb = .ofNat 9 (n / 2 ^ 14) ∧
            (at_ (4 * k)).wave = n / 2 ^ 8 % 2 ^ 6 ∧ (at_ (4 * k)).valid = n.testBit 7 ∧
            (n % 2 ^ 7 ≤ 64 → (at_ (4 * k)).stack.length = n % 2 ^ 7) ∧ (64 < n % 2 ^ 7 → (at_ (4 * k)).stack = t.stack)) ∧
        at_ 8 = { t with ctx := { t.ctx with st := v / 2 ^ 6 % 2 ^ 6, ld := v % 2 ^ 6 } } ∧
        ∀ e < t.stack.length, e < 64 → ∀ k < 8, (at_ (0x800 + 0x20 * e + 4 * k)).stack.length = t.stack.length ∧
          (at_ (0x800 + 0x20 * e + 4 * k)).stack.reverse.getD e {} = entryOf (withWord (entryWord (t.stack.reverse.getD e {})) k v) ∧
          ∀ j, j ≠ e → (at_ (0x800 + 0x20 * e + 4 * k)).stack.reverse.getD j {} = t.stack.reverse.getD j {})) ∧
    (∀ i < 64, let w := s.wave (ck * 64 + i)
      let at_ := fun o => (put (0x800000 + 0x20000 * i + o)).wave (ck * 64 + i)
      core < 99 → w.stopped = true → at_ 0x24 = { w with fpflags := .ofNat 32 (v % 32) } ∧
        (∀ k ∈ s.tailsOf ck i, ((put (0x800000 + 0x20000 * i + 0x24)).tail (ck * 32 + k)).flags = 0) ∧ at_ 0x20 = { w with fpctl := fpctlOf v } ∧
        (at_ 0x30).heldarr = .ofNat 16 v &&& 0x80FF ∧
        (∀ j < 16, ∀ q, (at_ (0x40 + 4 * j)).bind q = if q = 2 * j then .ofNat 16 (v % 2 ^ 16 / 2 ^ 7 * 2 ^ 7)
          else if q = 2 * j + 1 then .ofNat 16 (v / 2 ^ 23 * 2 ^ 7) else w.bind q) ∧
        ∀ l < 32, (at_ (0x1C580 + 4 * l)).ret l = { w.ret l with
            spcnt := v / 2 ^ 16, oncnt := if v % 8 ≤ 4 then v % 8 else (w.ret l).oncnt } ∧
          ∀ k < 4, ∀ j < 4, let n := withWord (retWord (FMap.get {} (w.ret l).ent k)) j v
            FMap.get {} ((at_ (0x1C600 + 0x40 * l + 0x10 * k + 4 * j)).ret l).ent k = ⟨.ofNat 57 n, .ofNat 9 (n / 2 ^ 64), .ofNat 9 (n / 2 ^ 73)⟩)

/-- R272: `tlbinv` discards the executing core's translations of the range, or all; `l1inv` leaves nothing behind to discard in a model
without L1 (log entry 3). -/
def Invalidations : Prop :=
  (∀ f s x, ready (.tlbinv f) s x = true → inside s x = true →
    let a := src (.tlbinv f) s x .A f.a 2 (cxOf (.tlbinv f) s x).F
    let len := src (.tlbinv f) s x .B f.b 1 (cxOf (.tlbinv f) s x).F
    let all := f.eng.toNat % 2 = 1
    (¬ all → a % 4096 ≠ 0 ∨ len % 4096 ≠ 0 → AllStop (.tlbinv f) s x 5 (.ofNat 57 a)) ∧
    (all ∨ (a % 4096 = 0 ∧ len % 4096 = 0) → ∃ t, exec (.tlbinv f) s = .next t ∧
      (∀ e, e ∈ (t.core x.ck).tlb ↔ e ∈ (s.core x.ck).tlb ∧ ¬ all ∧ (a + len ≤ e.va ∨ e.va + e.size ≤ a)) ∧
      RegsKept x [] [] s t ∧ FlagsKept x s t ∧ AluButCore x s t (fun w v => { v with tlb := w.tlb }) ∧ GoesOn x s t)) ∧
  (∀ f s x, ready (.l1inv f) s x = true → inside s x = true →
    let a := src (.l1inv f) s x .A f.a 2 (cxOf (.l1inv f) s x).F
    let len := src (.l1inv f) s x .B f.b 1 (cxOf (.l1inv f) s x).F
    (f.eng.toNat % 2 = 0 → a % 64 ≠ 0 ∨ len % 64 ≠ 0 → AllStop (.l1inv f) s x 5 (.ofNat 57 a)) ∧
    (f.eng.toNat % 2 = 1 ∨ (a % 64 = 0 ∧ len % 64 = 0) → OnlyAdvances (.l1inv f) s x))
end Sys2Proof.Rule

/-- R258, R267 to R269: `kmov`, `hret` and `halt`. The model's reading (DEDUCED): the code of a refused resume, and the refused resume of a redirected wave
(log entry 42); a RUN entry whose PC is no longer FAULTPC (log entry 87). -/
def Obligations.HandlerReturns : Prop :=
  KRegisterMoves ∧ SelectorStops .hret ∧ ResumesSubject ∧ LeavesHandler

/-- R253 to R257, R262, R270 to R273, R275: system registers, the management window block by block, and invalidations. The model's reading (DEDUCED): `mcack`
and `swr` of a redirected shader wave (log entry 42), the window of a wave in handler mode, the order of a 64-bit write and the limits of blocks (log entry 41),
a selector that names no core (log entry 90), and a core without an L1 (log entry 3). -/
def Obligations.SystemRegistersAndWindow : Prop :=
  SystemRegisters ∧ WindowAccesses ∧ WaveWindowReads ∧ WaveWindowWrites ∧ WindowBlockReads ∧ WindowBlockWrites ∧ Invalidations

/-- R55, R67, R68: outside handler mode a form of group 111, or with SCOPE 7, raises `PRIV` for the whole wave, and has no effect. -/
def Obligations.PrivilegedForms : Prop :=
  ∀ (i : Instr) (s : State) (x : Sel), s.cur = some x → s.running x = true → i.hdr?.isSome = true → i.wf = true →
    (s.tailish x = true → (hdrOf i).sel = .none) → privForm i = true → s.handler x = false →
    (hdrOf i).g = .none ∨ (∀ u ∈ i.uses, u.fld = .G → accepts (s.handler x) (s.tailish x) (s.wave x.wk) u = true) →
    s.regsBlocked x (i.uses.filter (fun u => u.fld == .G)) = false →
    ∃ t, exec i s = .next t ∧ StoppedAs x t { cause := 4, pc := (s.run x).pc, mask := maskOf (s.active x (hdrOf i)) } ∧
      t.stack x = s.stack x ∧ RegsKept x [] [] s t ∧ FlagsKept x s t ∧ t.cores = s.cores ∧ t.mem = s.mem ∧
      ((s.ctx x).fut = none → ∀ c, t.count x c = s.count x c)

/-! ## Events of waves and cores (files 01 to 08 and 10) -/

namespace Sys2Proof.Rule
/-- An event whose condition does not hold does nothing. -/
def Idle (i : Instr) (s : State) : Prop := exec i s = .next s

/-- Nothing changes but waves, here only wave k; nothing changes but cores, here only core k. -/
def OnlyWave (k : Nat) (s t : State) : Prop := t = { s with waves := t.waves } ∧ ∀ j, j ≠ k → t.wave j = s.wave j
def OnlyCore (k : Nat) (s t : State) : Prop := t = { s with cores := t.cores } ∧ ∀ j, j ≠ k → t.core j = s.core j

/-- R364, R79: a tick of a die's watch counter, with FRAGIDLE of each core on which a waiting group is kept out by fragmented rows alone. -/
def WatchTicks : Prop :=
  ∀ (die : Nat) (s : State), ∃ t, exec (.watchCounterTick die) s = .next t ∧ (t.die die).watch = (s.die die).watch + 1 ∧
    { t.die die with watch := 0 } = { s.die die with watch := 0 } ∧ (∀ k, k ≠ die → t.die k = s.die k) ∧
    (∀ c < 96, (t.core (coreKey die c)).fragidle = (s.core (coreKey die c)).fragidle + (if s.fragmented die c then 1 else 0)) ∧
    (∀ k, (∀ c < 96, k ≠ coreKey die c) → (t.core k).fragidle = (s.core k).fragidle) ∧
    (∀ k, { t.core k with fragidle := 0, placed := false } = { s.core k with fragidle := 0, placed := false }) ∧
    t = { s with dies := t.dies, cores := t.cores }

/-- Wave w goes before wave v in a turn of their quadrant. -/
def goesFirst (s : State) (die core w v : Nat) : Prop :=
  let a := s.wave (waveKey die core w)
  let b := s.wave (waveKey die core v)
  s.effClass core a < s.effClass core b ∨ (s.effClass core a = s.effClass core b ∧
    (a.lastIssue < b.lastIssue ∨ (a.lastIssue = b.lastIssue ∧ w < v)))

/-- R82, R83, R187: among the waves that may issue, those of the lowest effective class, then the one that issued least recently (a promoted one comes
before them, the later promoted first), then the lowest slot; of its ready contexts the one that issued least recently. In a turn that is used the other
waves that would have issued have waited one turn more. A wave that has waited 1,024 turns since its last promotion is promoted one class. -/
def IssueTurns : Prop :=
  (∀ (die core quad : Nat) (s : State), s.chosen die core quad = none → Idle (.issueTurn die core quad) s) ∧
  (∀ (die core quad w : Nat) (s : State), s.chosen die core quad = some w →
    w ∈ s.readyWaves die core quad ∧ (∀ v ∈ s.readyWaves die core quad, v ≠ w → goesFirst s die core w v) ∧
    ∃ x ∈ s.readyCtx die core w, (∀ y ∈ s.readyCtx die core w, (s.ctx x).issued ≤ (s.ctx y).issued) ∧
      exec (.issueTurn die core quad) s = .next { s with cur := some x }) ∧
  (∀ (die core quad : Nat) (s : State) x, s.cur = some x → s.wouldIssue x = true →
    let passed := fun v => v ∈ s.readyWaves die core quad ∧ v ≠ x.wave ∧ ∃ y ∈ s.readyCtx die core v, s.wouldIssue y = true
    let t := s.turnUsed die core quad
    (∀ v, passed v → t.wave (waveKey die core v) = { s.wave (waveKey die core v) with waited := (s.wave (waveKey die core v)).waited + 1 }) ∧
      (∀ k, (∀ v, passed v → k ≠ waveKey die core v) → t.wave k = s.wave k) ∧ t = { s with waves := t.waves }) ∧
  (∀ (die core wave : Nat) (s : State),
    let w := s.wave (waveKey die core wave)
    let due := w.valid = true ∧ s.readyCtx die core wave ≠ [] ∧ 1024 * (w.promo + 1) ≤ w.waited ∧ 3 < s.effClass core w
    (¬ due → Idle (.wavePromote die core wave) s) ∧
    (due → ∃ t, exec (.wavePromote die core wave) s = .next t ∧ t.wave (waveKey die core wave) =
        { w with promo := w.promo + 1, lastIssue := -(s.tick + 1 : Int) } ∧
      t.effClass core (t.wave (waveKey die core wave)) + 1 = s.effClass core w ∧ OnlyWave (waveKey die core wave) s t)) ∧
  (∀ (die core wave : Nat) (s : State) b, let x := mainSel die core wave
    (s.ctx x).blk = some b → b.pops ≠ [] ∨ b.push ≠ [] → s.mayTry x = true → (s.wave x.wk).mustStop = false →
      exec (.queueEligible die core wave) s = .next { s with cur := some x }) ∧
  (∀ (die core wave : Nat) (s : State), (s.ctx (mainSel die core wave)).blk = none → Idle (.queueEligible die core wave) s)

/-- R33, R356: a line with a right LWP enters the fetch buffer of the quadrant; a wrong one does not. -/
def LineFetches : Prop :=
  ∀ (die core wave : Nat) (s : State), let x := mainSel die core wave
    let a := lineAddr (s.run x).pc
    ((s.wave x.wk).valid = false ∨ s.stack x = [] → Idle (.lineFetch die core wave) s) ∧
    (∀ d, s.line x a = .ok d → lwpOk d = false → Idle (.lineFetch die core wave) s) ∧
    (∀ d, (s.wave x.wk).valid = true → s.stack x ≠ [] → s.line x a = .ok d → lwpOk d = true →
      (∀ q, (s.agent x).launch = some q → q < s.nextSeq) →
      ∃ t b, exec (.lineFetch die core wave) s = .next t ∧ b ∈ (t.core x.ck).fbuf ∧ b.data = d ∧ b.serves (s.agent x) (wave / 16) a = true ∧
        t = { s with cores := t.cores, absent := t.absent, empties := t.empties, defer := t.defer } ∧
        (s.absent = [] → t.empties = s.empties ∧ t.defer = s.defer) ∧
        ∀ k, { t.core k with fbuf := [], tlb := [] } = { s.core k with fbuf := [], tlb := [] })

/-- An access completes (R95, R224): its counter falls, and its words stand in their registers; `u` is the state in which what it and the accesses
before it left outstanding is performed, as far as its completion says so. What a register reads as while the wave runs does not change with the
completion of a load (R97, R284), and an older interlocked result does not follow a load to its register (R97; log entry 4). -/
def Completes (ev : Nat → Nat → Nat → Nat → Instr) (load : Bool) (keep : State → Bool) : Prop :=
  (∀ (die core wave id : Nat) (s : State), (s.wave (waveKey die core wave)).access? id load = none →
    (load = false → ∀ e ∈ (s.wave (waveKey die core wave)).late, e.acc ≠ id) → Idle (ev die core wave id) s) ∧
  (∀ (die core wave id : Nat) (s : State) (a : Access), (s.wave (waveKey die core wave)).access? id load = some a →
    let x : Sel := ⟨die, core, wave, a.ctx⟩
    let c := if load then Cnt.ld else .st
    let u := s.settleLate x id (keep s)
    ∃ t a', exec (ev die core wave id) s = .next t ∧ (u.wave x.wk).access? id load = some a' ∧ a'.ctx = a.ctx ∧
      t.count x c = s.count x c - 1 ∧ (∀ c', c' ≠ c → t.count x c' = s.count x c') ∧
      (∀ r l, (t.wave x.wk).raw r l = ((a'.writes.reverse.find? (fun p => p.1 == regKey r l)).map Prod.snd).getD ((s.wave x.wk).raw r l)) ∧
      (t.wave x.wk).accs = ((u.wave x.wk).accs.filter (fun b => b.id ≠ id)).map (fun b =>
        if load = true ∧ b.load = false ∧ b.id < id then { b with writes := a'.writes.foldl (fun m p => m.erase p.1) b.writes } else b) ∧
      (load = true → a' = a → (s.wave x.wk).state = 0 ∨ (s.wave x.wk).state = 3 → (s.wave x.wk).heldtok = none → (a.writes.map Prod.fst).Nodup →
        ∀ r l, (∀ b ∈ (s.wave x.wk).accs, b ≠ a → b.writes.find? (regKey r l) = none ∧ regKey r l ∉ b.due) → (t.wave x.wk).reg r l = (s.wave x.wk).reg r l) ∧
      (t.wave x.wk).accs.map Access.id = ((s.wave x.wk).accs.map Access.id).filter (fun i => i ≠ id) ∧
      (∀ k, k ≠ x.wk → t.wave k = s.wave k) ∧
      { (t.wave x.wk).still with main := {} } = { (u.wave x.wk).still with main := {} } ∧ t.stack x = s.stack x ∧
      t = { u with waves := t.waves, tails := t.tails } ∧
      (∀ e ∈ (t.wave x.wk).late, e.ctx = a.ctx → e.acc ≤ id → load = false ∧ e.op = none ∧ ∃ pa, e.place = .phys pa) ∧
      ((∀ e ∈ (s.wave x.wk).late, e.ctx = a.ctx → id < e.acc) → a' = a ∧ u.mem = s.mem ∧ u.cores = s.cores))

/-- What a completed store left on its way from L1 is performed (R224). -/
def LateStores : Prop :=
  ∀ (die core wave id : Nat) (s : State) e, let w := s.wave (waveKey die core wave)
    w.late.find? (fun e => decide (e.acc = id)) = some e → (∀ a ∈ w.accs, a.id ≠ id) →
      ∃ t, exec (.storeComplete die core wave id) s = .next t ∧ t = s.settleLate ⟨die, core, wave, e.ctx⟩ id false ∧
        (t.wave (waveKey die core wave)).late = w.late.filter (fun d => !(decide (d.ctx = e.ctx) && decide (d.acc ≤ id)))

/-- R98, R202: results are produced in order; the result that is produced first stands in its ring first. -/
def ResultsAndPushes : Prop :=
  (∀ (die core wave : Nat) (s : State), ∃ t, exec (.resultProduce die core wave) s = .next t ∧ OnlyWave (waveKey die core wave) s t ∧
    t.wave (waveKey die core wave) = { s.wave (waveKey die core wave) with sb := (s.wave (waveKey die core wave)).sb.tail }) ∧
  (∀ (die core : Nat) (s : State) (p : Push) r0 r, let c := s.core (coreKey die core)
    let q := FMap.get {} c.queues p.qr
    c.pushes = r0 ++ p :: r → (∀ o ∈ r0, p.due < o.due) → (∀ o ∈ r, p.due ≤ o.due) → q.tail < q.depth → p.elems.length ≤ q.depth →
    ∃ t, exec (.queuePush die core) s = .next t ∧ OnlyCore (coreKey die core) s t ∧ (t.core (coreKey die core)).pushes = r0 ++ r ∧
      FMap.get {} (t.core (coreKey die core)).queues p.qr = { q with
        tail := (q.tail + p.elems.length) % q.depth, count := q.count + p.elems.length, resv := q.resv - p.elems.length } ∧
      (∀ k, k ≠ p.qr → FMap.get {} (t.core (coreKey die core)).queues k = FMap.get {} c.queues k) ∧
      (∀ i < p.elems.length, (t.core (coreKey die core)).scratchWord (c.ringAt q ((q.tail + i) % q.depth)) = p.elems.getD i 0) ∧
      (∀ a, a < c.ringAt q 0 ∨ c.ringAt q 0 + 4 * q.depth ≤ a →
        FMap.get 0 (t.core (coreKey die core)).scratch a = FMap.get 0 c.scratch a))

/-- R216, R176, R236: messages of straddling barriers, sleeps, and answers to deferred future requests. -/
def Messages : Prop :=
  (∀ (die core bar : Nat) (s : State) ck i, let b := s.bar (coreKey die core) bar
    s.otherHome (coreKey die core) bar = some (ck, i) → b.sent ≠ [] → (ck, i) ≠ (coreKey die core, bar) →
    let o := s.bar ck i
    (o.rwait = false → ∃ t, exec (.barrierDoneMsg die core bar) s = .next t ∧ t.bar ck i = { o with dones := o.dones + 1 } ∧
      t.bar (coreKey die core) bar = { b with sent := b.sent.tail } ∧
      (∀ k j, (k, j) ≠ (ck, i) → (k, j) ≠ (coreKey die core, bar) → t.bar k j = s.bar k j) ∧ t = { s with cores := t.cores }) ∧
    (o.rwait = true → o.exparr ≠ 0 → (∀ h ∈ (s.core ck).held, h.bar ≠ i) → ∃ t, exec (.barrierDoneMsg die core bar) s = .next t ∧
      t.bar ck i = advanced o ∧ t.bar (coreKey die core) bar = { b with sent := b.sent.tail } ∧
      (∀ k j, (k, j) ≠ (ck, i) → (k, j) ≠ (coreKey die core, bar) → t.bar k j = s.bar k j) ∧
      (∀ k, offBar (t.wave k) = offBar (s.wave k)) ∧ t = { s with cores := t.cores, waves := t.waves })) ∧
  (∀ (die core bar : Nat) (s : State), s.otherHome (coreKey die core) bar = none ∨ (s.bar (coreKey die core) bar).sent = [] →
    Idle (.barrierDoneMsg die core bar) s) ∧
  (∀ (die core wave ctx : Nat) (s : State) n, let x : Sel := ⟨die, core, wave, ctx⟩
    (s.ctx x).sleep = some n →
    ((s.die die).watch.toNat + 2 ^ 64 - n) % 2 ^ 64 < 2 ^ 63 → ∃ t, exec (.sleepExpire die core wave ctx) s = .next t ∧
      t.ctx x = { s.ctx x with sleep := none } ∧ t = { s with waves := t.waves, tails := t.tails } ∧ t.stack x = s.stack x ∧
      (∀ k, k ≠ x.wk → t.wave k = s.wave k) ∧ ∀ k, k ≠ x.tk → t.tail k = s.tail k) ∧
  (∀ (die core wave ctx : Nat) (s : State) n, (s.ctx ⟨die, core, wave, ctx⟩).sleep = some n →
    2 ^ 63 ≤ ((s.die die).watch.toNat + 2 ^ 64 - n) % 2 ^ 64 → Idle (.sleepExpire die core wave ctx) s) ∧
  (∀ (die slice : Nat) (s : State) d, s.defer.find? (fun d => decide (d.slice = 32 * die + slice) && d.got.isSome) = some d →
    ∃ t, exec (.futureAnswer die slice) s = .next t ∧ t.defer = s.defer.erase d ∧
      (t.ctx d.who).fut = (s.ctx d.who).fut.map (fun as => as ++ [(d.lane, (d.got.getD 0).toNat, 0)]) ∧
      t = { s with waves := t.waves, tails := t.tails, defer := t.defer } ∧ (∀ k, k ≠ d.who.wk → t.wave k = s.wave k) ∧
      ∀ k, k ≠ d.who.tk → t.tail k = s.tail k) ∧
  (∀ (die slice : Nat) (s : State), (∀ d ∈ s.defer, d.slice = 32 * die + slice → d.got = none) → Idle (.futureAnswer die slice) s)
end Sys2Proof.Rule

/-- R33, R79, R82, R83, R98, R176, R202, R216, R224, R236, R364: the watch counter, the issue turns, fetches, completions and messages. The model's choices
(DESIGN CHOICE): which turns count for R83, that the count is kept over turns in which the wave is not ready, and that the later of two promoted waves goes
first (log entry 68); what a load gives and when a late result lands (log entry 4). -/
def Obligations.CoreEvents : Prop :=
  WatchTicks ∧ IssueTurns ∧ LineFetches ∧ Completes .loadComplete true (fun _ => false) ∧
    Completes .storeComplete false (fun s => Config.choice s.tick 8192) ∧ LateStores ∧ ResultsAndPushes ∧ Messages

namespace Sys2Proof.Rule
/-- A group is over (R174, R186): it stands on its core, none of its waves does, and no engine has an item or a command of it; one without waves
holds its share for the members of its cluster, and is over with the last of them. -/
def groupIsOver (s : State) (die core gid : Nat) : Prop :=
  let ck := coreKey die core
  let c := s.core ck
  let g := c.group gid
  (∃ h ∈ c.groups, h.id = gid) ∧ (∀ w < 64, (s.wave (ck * 64 + w)).valid = true → (s.wave (ck * 64 + w)).gid ≠ gid) ∧
    (∀ i ∈ c.mx.queue ++ c.mx.entering, i.gid ≠ gid) ∧ (∀ p ∈ c.chans, ∀ k ∈ p.2.queue ++ p.2.entering, k.gid ≠ gid) ∧
    (g.waves = [] → ∀ m < 8, ∀ h ∈ (s.core (coreKey die (g.cbase + m))).groups, h.clu = true → h.cid = g.cid → h.waves = [])

/-- R174, R186: a tail ends when everything that it issued has completed, and gives its slot and flags back; a wave's end frees its slot and releases its bindings; a group's end frees
its scratchpad, owner bits and barriers. -/
def Ends : Prop :=
  (∀ (die core slot : Nat) (s : State), let k := tailKey die core slot
    let tl := s.tail k
    let w := s.wave (waveKey die core tl.wave)
    let ended := tl.valid = true ∧ (∀ e ∈ tl.stack, e.mask = 0) ∧ tl.ctx.ld = 0 ∧ tl.ctx.st = 0 ∧ ∀ r ∈ w.sb, r.1 ≠ slot
    (¬ ended → Idle (.tailEnd die core slot) s) ∧
    (ended → ∃ t, exec (.tailEnd die core slot) s = .next t ∧ t.tail k = { tl with valid := false, ctx := {}, flags := 0 } ∧
      (∀ j, j ≠ k → t.tail j = s.tail j) ∧ t.wave (waveKey die core tl.wave) = { w with
        stale := w.stale.filter (fun p => p.2.1 ≠ slot), fpflags := w.fpflags ||| tl.flags, late := w.late.map (fun e => if e.ctx = slot then { e with ctx := 64 } else e) } ∧
      (∀ j, j ≠ waveKey die core tl.wave → t.wave j = s.wave j) ∧ t = { s with waves := t.waves, tails := t.tails })) ∧
  (∀ (die core wave : Nat) (s : State), let k := waveKey die core wave
    let w := s.wave k
    let ck := coreKey die core
    (s.waveOver ck wave = false → Idle (.waveEnd die core wave) s) ∧
    (s.waveOver ck wave = true → ∃ t, exec (.waveEnd die core wave) s = .next t ∧ t.wave k = {} ∧ (∀ j, j ≠ k → t.wave j = s.wave j) ∧
      (∀ qi, (∀ b ∈ w.binds, bnd b.2 = true → bRec b.2 ≠ qi) → FMap.get {} (t.core ck).queues qi = FMap.get {} (s.core ck).queues qi) ∧
      t.mem = (s.publishWave (mainSel die core wave)).mem ∧ t.launches = s.launches ∧ t.dies = s.dies ∧
      t.saved.length = s.saved.length + (if w.funel.launch.isSome ∧ w.funel.halted = true ∧ s.preempted w.ctxid = true then 1 else 0))) ∧
  (∀ (s : State) (ck w : Nat), s.waveOver ck w = true → let v := s.wave (ck * 64 + w)
    v.valid = true ∧ v.state = 0 ∧ (∀ e ∈ v.div.stack, e.mask = 0) ∧ s.tailsOf ck w = [] ∧ v.main.ld = 0 ∧ v.main.st = 0 ∧ v.cp = 0 ∧
      v.mx = 0 ∧ v.accs = [] ∧ v.sb = []) ∧
  (∀ (die core gid : Nat) (s : State), let ck := coreKey die core
    let c := s.core ck
    let g := c.group gid
    (s.groupOver die core gid = true ↔ groupIsOver s die core gid) ∧
    (s.groupOver die core gid = false → Idle (.groupRelease die core gid) s) ∧
    (s.groupOver die core gid = true → ∃ t, exec (.groupRelease die core gid) s = .next t ∧ OnlyCore ck s t ∧
      (∀ h, h ∈ (t.core ck).groups ↔ h ∈ c.groups ∧ h.id ≠ gid) ∧
      (∀ k, FMap.get false (t.core ck).owner k =
        if g.sbase ≤ k ∧ k < g.sbase + g.skib then false else FMap.get false c.owner k) ∧
      (∀ i, t.bar ck i = if g.bbase ≤ i ∧ i < g.bbase + g.nb then {} else s.bar ck i) ∧
      { t.core ck with groups := c.groups, owner := c.owner, bars := c.bars, held := c.held } = c))

/-- R250, R277: a wave with a stop to take stops at its instruction boundary: for the oldest cause, or for pre-emption with STATE 2. A machine
check (0x20 or 0x21) that no instruction absorbs is logged (R273) and reported by the context whose instruction raised it, and one of the stack cache counts in UE of its slice (R475). -/
def BoundaryStops : Prop :=
  (∀ (die core wave : Nat) (s : State), (s.wave (waveKey die core wave)).mustStop = false → Idle (.asyncStop die core wave none) s) ∧
  (∀ (die core wave : Nat) (s : State) (p : PendCause) r, let w := s.wave (waveKey die core wave)
    let x : Sel := ⟨die, core, wave, p.ctx⟩
    let m := p.lanes.getD (liveMask (s.stack x))
    w.mustStop = true → w.pend = p :: r → ∃ t, exec (.asyncStop die core wave none) s = .next t ∧
      StoppedAs x t { cause := p.cause, pc := (s.run x).pc, mask := m, async := true
                      faddr := (if p.addr = 0 then [] else (lanesOf m).map (fun l => (l, .ofNat 57 p.addr))) } ∧
      (t.wave x.wk).pend = r ∧ (t.wave x.wk).div = w.div ∧ (∀ k, k ≠ x.wk → t.wave k = s.wave k) ∧ RegsKept x [] [] s t ∧ t.cores = s.cores ∧
      t.mem = s.mem) ∧
  (∀ (die core wave : Nat) (s : State), let w := s.wave (waveKey die core wave)
    let x := mainSel die core wave
    w.mustStop = true → w.pend = [] → w.main.sync = none → ∃ t, exec (.asyncStop die core wave none) s = .next t ∧
      (t.wave x.wk).state = 2 ∧ (t.wave x.wk).cause = 0 ∧ (t.wave x.wk).div = w.div ∧ (t.ctx x).blk = none ∧
      (t.wave x.wk).heldarr = w.heldarr ∧ (∀ d ∈ t.defer, ¬ (d.who.ck = x.ck ∧ d.who.wave = wave)) ∧ RegsKept x [] [] s t ∧ t.cores = s.cores ∧
      t.mem = s.mem) ∧
  (∀ (die core wave : Nat) (r : McRec) (s : State), let w := s.wave (waveKey die core wave)
    let x : Sel := ⟨die, core, wave, if r.ctx.toNat ∈ s.tailsOf (coreKey die core) wave then r.ctx.toNat else 63⟩
    let mc := mgmtOf die core
    let unit := 32 * (if s.cdie.stage = 2 then s.cdie.half.toNat else s.homeDie r.loc.toNat) + homeSlice r.loc.toNat
    let known := r.cause = 0x20 ∨ r.cause = 0x21
    (w.valid = false ∨ ¬ known → Idle (.asyncStop die core wave (some r)) s) ∧
    (known → w.valid = true → w.state = 0 → w.pend = [] → ∃ t, exec (.asyncStop die core wave (some r)) s = .next t ∧
      (∀ k, (FMap.get {} t.cdie.ecc k).ue = (FMap.get {} s.cdie.ecc k).ue + (if r.src = 4 ∧ r.cause = 0x21 ∧ k = unit then 1 else 0)) ∧
      (∀ k, { FMap.get {} t.cdie.ecc k with ue := 0 } = { FMap.get {} s.cdie.ecc k with ue := 0 }) ∧
      (t.core mc).mclog = (if (s.core mc).mclog.getLsbD 63 then (s.core mc).mclog ||| .ofNat 64 (2 ^ 62) else
        .ofNat 64 (2 ^ 63 + r.src.toNat * 2 ^ 58 + r.cause.toNat * 2 ^ 50 + r.loc.toNat)) ∧
      StoppedAs x t { cause := r.cause.toNat, pc := (s.run x).pc, mask := liveMask (s.stack x), async := true } ∧ t.mem = s.mem))

/-- R251 to R253: a stopped wave posts its record when its stores have drained and are performed (u), in the order of the stops, while the trap queue has room. -/
def TrapPosts : Prop :=
  ∀ (die core wave : Nat) (s : State), let k := waveKey die core wave
    let w := s.wave k
    let mc := mgmtOf die core
    let may := w.valid = true ∧ (w.state = 1 ∨ w.state = 4) ∧ w.posted = false ∧ s.storesDrained (coreKey die core) wave = true
    let r : TrapRec := ⟨decide (w.state = 4), w.cause, w.wctx, core, wave⟩
    let u := s.publishWave (mainSel die core wave)
    (¬ may → Idle (.trapPost die core wave) s) ∧
    (core < 96 → 256 ≤ (s.core mc).trapq.length → Idle (.trapPost die core wave) s) ∧
    (may → core < 96 → (s.core mc).trapq.length < 256 → s.postsFirst die core wave = true → ∃ t, exec (.trapPost die core wave) s = .next t ∧
      (t.core mc).trapq = (s.core mc).trapq ++ [r] ∧ t.wave k = { u.wave k with posted := true } ∧ (t.wave k).late = [] ∧
      (∀ j, j ≠ k → t.wave j = s.wave j) ∧
      (∀ j, { t.core j with trapq := [] } = { u.core j with trapq := [] }) ∧ (∀ j, j ≠ mc → t.core j = u.core j) ∧
      t = { u with waves := t.waves, cores := t.cores }) ∧
    (may → 96 ≤ core → ∃ t, exec (.trapPost die core wave) s = .next t ∧ t.cdie.reports = s.cdie.reports ++ [r] ∧
      t.wave k = { u.wave k with posted := true } ∧ (t.wave k).late = [] ∧
      t = { u with waves := t.waves, cdie := { s.cdie with reports := t.cdie.reports } })

/-- R72, R73, R289: the split of an empty core changes; its storage and owner bits are zero, and the pointers of its copy channels. -/
def SplitChanges : Prop :=
  ∀ (die core regg l1g : Nat) (s : State), let ck := coreKey die core
    let may := s.coreEmpty die core = true ∧ core < 96 ∧ regg % 4 = 0 ∧ 4 ≤ regg ∧ regg ≤ 28 ∧ 2 ≤ l1g ∧ l1g ≤ 24 ∧ regg + l1g ≤ 32 ∧
      32 - regg - l1g ≤ 26
    (¬ may → Idle (.splitChange die core regg l1g) s) ∧
    (may → ∃ t, exec (.splitChange die core regg l1g) s = .next t ∧ OnlyCore ck s t ∧ (t.core ck).regg = regg ∧ (t.core ck).l1g = l1g ∧
      (t.core ck).scrg = 32 - regg - l1g ∧ (t.core ck).scratch = [] ∧ (t.core ck).owner = [] ∧ (t.core ck).mx.live = [] ∧
      (t.core ck).mx.shad = [] ∧ (t.core ck).chans = [] ∧
      { t.core ck with regg := 0, l1g := 0, scrg := 0, scratch := [], prior := [], owner := [], chans := [], mx := {} } =
        { s.core ck with regg := 0, l1g := 0, scrg := 0, scratch := [], prior := [], owner := [], chans := [], mx := {} })
end Sys2Proof.Rule

/-- R72, R73, R174, R186, R250 to R253, R273, R277: ends, stops at a boundary, trap records, and splits. -/
def Obligations.StopsAndEnds : Prop := Ends ∧ BoundaryStops ∧ TrapPosts ∧ SplitChanges

/-! ## Events of launches and record queues (files 20 and 25) -/

namespace Sys2Proof.Rule
/-- The wave numbers of the state are distinct. -/
def soundWaves (s : State) : Prop := (s.waves.map Prod.fst).Nodup

/-- Only launch q changes. -/
def OnlyLaunch (q : Nat) (s t : State) : Prop := t = { s with launches := t.launches } ∧ ∀ p, p ≠ q → t.launch? p = s.launch? p

/-- Batch i of b records of a queue, its last one smaller where fewer remain (R390, R391). -/
def recordsBatch (b : Nat) (q : List Rcd) (i : Nat) : Batch :=
  let rs := (q.drop (i * b)).take b
  { lanes := rs.length, recs := rs.map (fun r => r.words), depths := rs.map (fun r => r.self), range := none }

/-- The batches that the range records of a queue still hold (R393): ⌈N / B⌉ of a record that counts N. -/
def untakenBatches (b : Nat) (q : List Rcd) : List Batch :=
  q.flatMap (fun r =>
    let c := (r.words.headD 0).toNat
    (List.range' r.taken ((c + b - 1) / b - r.taken)).map (fun w =>
      { lanes := min b (c - w * b), recs := [r.words], depths := [r.self], range := some (c, w) }))

/-- A group, or the groups of a cluster, of these batches has been formed for a die from the sub-queue on die src, which keeps
what `left` says; `count` adds to a counter of the launch. -/
def FormsGroup (s t : State) (l : Launch) (node die src groups : Nat) (bs : List Batch) (left : List Rcd → Prop)
    (count : Launch → Launch) : Prop :=
  OnlyLaunch l.seq s t ∧ left ((t.launch l.seq).queue node src) ∧
  (∀ m d, d < 2 → (m, d) ≠ (node, src) → (t.launch l.seq).queue m d = l.queue m d) ∧
  { t.launch l.seq with queues := l.queues } =
    count { l with formed := l.formed ++ [⟨die, node, l.nextGno, bs⟩], nextGno := l.nextGno + groups }

/-- R389: a die takes the records of an ordered node only while the record at the head of its sub-queue precedes that of the other die's in stamp
order. -/
def StampOrder : Prop :=
  ∀ (l : Launch) (node die : Nat) (r : Rcd) q, die < 2 → l.queue node die = r :: q →
    ((l.node node).ord = false → l.inTurn node die = true) ∧
    ((l.node node).ord = true → (l.inTurn node die = true ↔
      ∀ r', (l.queue node (1 - die)).head? = some r' → if die = 0 then r.stamp ≤ r'.stamp else r.stamp < r'.stamp))

/-- A batch is taken from the head of a die's sub-queue, which keeps `left`, into the group that the die is forming (R391): the group is complete with
its last wave, where the sub-queue is empty, or `now`; `count` adds to a counter of the launch. -/
def TakesBatch (s t : State) (l : Launch) (node die : Nat) (b : Batch) (left : List Rcd) (now : Prop) (count : Launch → Launch) : Prop :=
  let u := t.launch l.seq
  let bs := l.openOf node die ++ [b]
  let whole := now ∨ l.maxWaves node ≤ bs.length ∨ left = []
  OnlyLaunch l.seq s t ∧ u.queue node die = left ∧
  (∀ m d, d < 2 → (m, d) ≠ (node, die) → u.queue m d = l.queue m d ∧ u.openOf m d = l.openOf m d) ∧
  (whole → u.openOf node die = [] ∧ { u with queues := l.queues, opened := l.opened } =
    count { l with formed := l.formed ++ [⟨die, node, l.nextGno, bs⟩], nextGno := l.nextGno + 1 }) ∧
  (¬ whole → u.openOf node die = bs ∧ { u with queues := l.queues, opened := l.opened } = count l)

/-- The Gather of a die may take a batch of a node (R389, R391): in stamp order, and for a new group while free wave slots outnumber the waves of the
groups that wait on the die. -/
def mayTakeBatch (s : State) (l : Launch) (node die : Nat) : Prop :=
  s.forms l = true ∧ l.inTurn node die = true ∧ (s.waiting die < s.dieSlots die ∨ l.openOf node die ≠ [])

/-- How many waves a group has (R391, R398): GWAVES where R396 can ever admit so many, else the most that it can (log entry 30). -/
def GroupWaves : Prop :=
  ∀ (l : Launch) (node : Nat), let g := (l.node node).gwaves
    1 ≤ l.maxWaves node ∧ l.maxWaves node ≤ max 1 g ∧ (∀ k, 1 ≤ k → k ≤ g → l.reservable node k = true → k ≤ l.maxWaves node) ∧
    (1 < l.maxWaves node → l.reservable node (l.maxWaves node) = true) ∧
    (1 ≤ g → (∀ e < 8, (l.node node).edge e = none) → l.maxWaves node = g)

/-- R390, R391, R393, R394: full batches of a shader node, batches of a range node, and a cluster's one record. -/
def FullBatches : Prop :=
  (∀ (die launch node : Nat) (s : State), s.launch? launch = none → Idle (.gatherFull die launch node) s) ∧
  (∀ (die node : Nat) (s : State) (l : Launch), s.launch? l.seq = some l → die < 2 →
    let n := l.node node
    let q := l.queue node die
    let may := mayTakeBatch s l node die
    (s.forms l = false ∨ 1 < n.kind → Idle (.gatherFull die l.seq node) s) ∧
    (n.kind = 0 → ¬ may → Idle (.gatherFull die l.seq node) s) ∧
    (n.kind = 0 → n.clu = 0 → q.length < n.b → Idle (.gatherFull die l.seq node) s) ∧
    (n.kind = 0 → n.clu = 0 → 0 < n.b → may → n.b ≤ q.length → ∃ t, exec (.gatherFull die l.seq node) s = .next t ∧
      TakesBatch s t l node die (recordsBatch n.b q 0) (q.drop n.b) False id) ∧
    (n.kind = 1 → n.clu = 0 → s.forms l = true → (∃ r q', q = r :: q' ∧ r.words.headD 0 = 0) → ∃ t, exec (.gatherFull die l.seq node) s = .next t ∧
      OnlyLaunch l.seq s t ∧
      let u := t.launch l.seq
      let left := q.dropWhile (fun r => r.words.headD 0 == 0)
      u.queue node die = left ∧ (∀ m d, d < 2 → (m, d) ≠ (node, die) → u.queue m d = l.queue m d ∧ u.openOf m d = l.openOf m d) ∧
      (left ≠ [] ∨ l.openOf node die = [] → { u with queues := l.queues } = l) ∧
      (left = [] → l.openOf node die ≠ [] → u.openOf node die = [] ∧ { u with queues := l.queues, opened := l.opened } =
        { l with formed := l.formed ++ [⟨die, node, l.nextGno, l.openOf node die⟩], nextGno := l.nextGno + 1 })) ∧
    (∀ b bs, n.kind = 1 → n.clu = 0 → 0 < n.b → may → untakenBatches n.b q = b :: bs → (∃ r q', q = r :: q' ∧ r.words.headD 0 ≠ 0) →
      (∀ r ∈ q, r.taken * n.b ≤ (r.words.headD 0).toNat - 1) → ∃ t left, exec (.gatherFull die l.seq node) s = .next t ∧
      untakenBatches n.b left = bs ∧ (bs = [] → left = []) ∧ TakesBatch s t l node die b left False id) ∧
    (∀ r q', n.kind = 0 → n.clu ≠ 0 → may → q = r :: q' → ∃ t, exec (.gatherFull die l.seq node) s = .next t ∧
      FormsGroup s t l node die die (n.clun * n.clu) [⟨n.b, [r.words], [r.self], none⟩] (fun u => u = q') id))

/-- R390: a batch of fewer than B records, by a closed inflow or by LINGER, the last of its group; `takes` says how many of the sub-queue's records. -/
def PartBatch (ev : Nat → Nat → Nat → Instr) (cond : State → Launch → Nat → Nat → Prop) (takes : Launch → Nat → Nat → Nat → Prop)
    (count : Launch → Launch) : Prop :=
  (∀ (die launch node : Nat) (s : State), s.launch? launch = none → Idle (ev die launch node) s) ∧
  (∀ (die node : Nat) (s : State) (l : Launch), s.launch? l.seq = some l → die < 2 →
    let n := l.node node
    let q := l.queue node die
    let may := n.kind = 0 ∧ n.clu = 0 ∧ mayTakeBatch s l node die ∧ q ≠ [] ∧ q.length < n.b ∧ cond s l node die
    (¬ may → Idle (ev die l.seq node) s) ∧
    (may → ∃ t k, exec (ev die l.seq node) s = .next t ∧ takes l node die k ∧
      TakesBatch s t l node die (recordsBatch k q 0) (q.drop k) True count))

/-- The oldest record was appended more than LINGER ns ago, at 10 ns a tick. -/
def Lingered (s : State) (l : Launch) (node die : Nat) : Prop :=
  let n := l.node node
  n.linger ≠ 0 ∧ ∃ r, (l.queue node die).head? = some r ∧ n.linger < 10 * (((s.die die).watch.toNat + 2 ^ 64 - r.born) % 2 ^ 64)

/-- A closed inflow gives all the records; a linger those that had come when its oldest one had waited for LINGER ns (R421; log entry 30). -/
def takesAll (l : Launch) (node die k : Nat) : Prop := k = (l.queue node die).length
def takesLingered (l : Launch) (node die k : Nat) : Prop :=
  let q := l.queue node die
  let early := fun (r : Rcd) => 10 * ((r.born + 2 ^ 64 - (q.headD r).born) % 2 ^ 64) ≤ (l.node node).linger
  k ≤ q.length ∧ (∀ r ∈ q.take k, early r) ∧ ∀ r, q[k]? = some r → ¬ early r

/-- R397: (l, n) is served before (m, k). -/
def servedBefore (l : Launch) (n : Nat) (m : Launch) (k : Nat) : Prop :=
  let a := l.node n
  let b := m.node k
  a.rcb.cls < b.rcb.cls ∨ (a.rcb.cls = b.rcb.cls ∧ (b.depth < a.depth ∨ (a.depth = b.depth ∧ (l.seq < m.seq ∨ (l.seq = m.seq ∧ n < k)))))

/-- Sequence numbers are distinct, and no node lies deeper than a graph of 1,024 nodes allows. -/
def soundLaunches (s : State) : Prop :=
  (s.launches.map (fun l => l.seq)).Nodup ∧ ∀ l ∈ s.launches, l.nodes.length ≤ 1024 ∧ ∀ n, (l.node n).depth ≤ 1024

/-- R395, R391: the Gather of a die with a free slot beyond the waves of its waiting groups, and nothing to form, takes records of the other die's sub-queue, of the first node in service
order that has enough; where it takes the last of them, the group that the other die was forming is complete. -/
def Steals : Prop :=
  (∀ (die launch node : Nat) (s : State), s.mayForm die = false ∨ (∃ l ∈ s.launches, ∃ n < l.nodes.length, s.formable l n die = true) →
    Idle (.gatherSteal die launch node) s) ∧
  (∀ (die node : Nat) (s : State) (l : Launch), soundLaunches s → l ∈ s.launches → node < l.nodes.length → die < 2 →
    s.mayForm die = true → (∀ m ∈ s.launches, ∀ k < m.nodes.length, s.formable m k die = false) →
    let n := l.node node
    let q := l.queue node (1 - die)
    s.stealable l node die = true →
    (∀ m ∈ s.launches, ∀ k < m.nodes.length, s.stealable m k die = true → (m.seq, k) ≠ (l.seq, node) → servedBefore l node m k) →
    (n.kind = 0 → 0 < n.b → ∃ t, exec (.gatherSteal die l.seq node) s = .next t ∧
      FormsGroup s t l node die (1 - die) 1 [recordsBatch n.b q 0] (fun q' => q' = q.drop n.b) (fun l => { l with steals := l.steals + 1 })) ∧
    (n.kind = 1 → 0 < n.b → (∀ r ∈ q, r.words.headD 0 ≠ 0 ∧ r.taken * n.b ≤ (r.words.headD 0).toNat - 1) →
      let bs := (untakenBatches n.b q).take (l.maxWaves node)
      let rest := (untakenBatches n.b q).drop (l.maxWaves node)
      (rest ≠ [] ∨ l.openOf node (1 - die) = [] → ∃ t, exec (.gatherSteal die l.seq node) s = .next t ∧
        FormsGroup s t l node die (1 - die) 1 bs (fun q' => untakenBatches n.b q' = rest) (fun l => { l with steals := l.steals + 1 })) ∧
      (rest = [] → l.openOf node (1 - die) ≠ [] → ∃ t, exec (.gatherSteal die l.seq node) s = .next t ∧ OnlyLaunch l.seq s t ∧
        let u := t.launch l.seq
        u.queue node (1 - die) = [] ∧ u.openOf node (1 - die) = [] ∧ { u with queues := l.queues, opened := l.opened } =
          { l with
            formed := l.formed ++ [⟨die, node, l.nextGno, bs⟩, ⟨1 - die, node, l.nextGno + 1, l.openOf node (1 - die)⟩]
            nextGno := l.nextGno + 2, steals := l.steals + 1 }))) ∧
  (∀ (s : State) (l : Launch) (node die : Nat), s.stealable l node die = true → let n := l.node node
    n.kind ≤ 1 ∧ n.clu = 0 ∧ n.ord = false ∧ 2 * n.b ≤ (l.queue node (1 - die)).length ∧ ∃ c < 96, l.cmask.testBit (96 * die + c) = true) ∧
  (∀ (s : State), s.cdie.stage = 2 → s.mayForm 1 = false)
end Sys2Proof.Rule

/-- R390, R391, R393 to R395, R397: the Gather forms full, closed and lingering batches, range batches and clusters, and steals. -/
def Sys2Proof.Rule.GatherEvents : Prop :=
  StampOrder ∧ GroupWaves ∧ FullBatches ∧
  PartBatch .inflowClose (fun s l n _ => s.closed l n = true) takesAll (fun l => { l with underc := l.underc + 1 }) ∧
  PartBatch .gatherLinger Lingered takesLingered (fun l => { l with underl := l.underl + 1 }) ∧ Steals

namespace Sys2Proof.Rule
/-- Of a quadrant of a core on which these waves hold slots and rows (R76): a slot is held, a block of 8 rows is, a run for a wave of `rows` registers
starts at a block, and the quadrant can take such a wave. -/
def heldSlot (ws : List (Nat × Wave)) (v : Nat) : Prop := ∃ p ∈ ws, p.1 = v
def heldBlock (ws : List (Nat × Wave)) (quad b : Nat) : Prop := ∃ p ∈ ws, p.1 / 16 = quad ∧ p.2.row / 8 ≤ b ∧ b < (p.2.row + p.2.n) / 8
def freeRun (blocks rows : Nat) (ws : List (Nat × Wave)) (quad b : Nat) : Prop :=
  b + rows / 8 ≤ blocks ∧ ∀ j < rows / 8, ¬ heldBlock ws quad (b + j)
def canTake (blocks rows : Nat) (ws : List (Nat × Wave)) (quad : Nat) : Prop :=
  (∃ i < 16, ¬ heldSlot ws (16 * quad + i)) ∧ ∃ b, freeRun blocks rows ws quad b
def slotsFree (ws : List (Nat × Wave)) (quad : Nat) : Nat := (List.range 16).countP (fun i => !ws.any (fun p => p.1 == 16 * quad + i))

/-- The place of the next wave (R76): the quadrant with the most free slots of those that can take it, the lowest of equals; in it the lowest run and
the lowest free slot. -/
def NextPlace (blocks rows : Nat) (ws : List (Nat × Wave)) (a : Nat × Nat) : Prop :=
  let q := a.1 / 16
  a.1 < 64 ∧ canTake blocks rows ws q ∧
  (∀ r < 4, canTake blocks rows ws r → slotsFree ws r < slotsFree ws q ∨ (slotsFree ws r = slotsFree ws q ∧ q ≤ r)) ∧
  a.2 % 8 = 0 ∧ freeRun blocks rows ws q (a.2 / 8) ∧ (∀ b < a.2 / 8, ¬ freeRun blocks rows ws q b) ∧
  ¬ heldSlot ws a.1 ∧ ∀ v, 16 * q ≤ v → v < a.1 → heldSlot ws v

/-- Waves placed one at a time on a core, and the waves that then hold slots. -/
def withPlaced (rows : Nat) (ws : List (Nat × Wave)) (ps : List (Nat × Nat)) : List (Nat × Wave) :=
  ps.map (fun a => (a.1, { valid := true, n := rows, row := a.2 })) ++ ws
def PlacedInTurn (blocks rows : Nat) (ws : List (Nat × Wave)) (ps : List (Nat × Nat)) : Prop :=
  ∀ i a, ps[i]? = some a → NextPlace blocks rows (withPlaced rows ws (ps.take i)) a

/-- A run of `len` free places of a share of n, at k. -/
def shareRun (n len : Nat) (held : Nat → Prop) (k : Nat) : Prop := k + len ≤ n ∧ ∀ j < len, ¬ held (k + j)

/-- R76: a group fits a core where its split is right or the core is empty, its waves can be placed one at a time, and scratchpad and barriers have a
run for it, each taken at its lowest; and where it has no place one of these fails. -/
def PlacesFit : Prop :=
  ∀ (s : State) (n : Node) (w nb die core : Nat), let c := s.core (coreKey die core)
    let ws := s.residents (coreKey die core)
    let split := (c.regg = n.regg ∧ c.l1g = n.l1g) ∨ s.coreEmpty die core = true
    let kib := shareRun (32 * (32 - n.regg - n.l1g)) n.scrb (fun k => ∃ g ∈ c.groups, g.sbase ≤ k ∧ k < g.sbase + g.skib)
    let bars := shareRun 256 nb (fun k => ∃ g ∈ c.groups, g.bbase ≤ k ∧ k < g.bbase + g.nb)
    (∀ p, s.spot n w nb die core = some p → p.die = die ∧ p.core = core ∧ split ∧ p.waves.length = w ∧
      PlacedInTurn (8 * n.regg) n.rows ws p.waves ∧ kib p.sbase ∧ (∀ k < p.sbase, ¬ kib k) ∧ bars p.bbase ∧ ∀ k < p.bbase, ¬ bars k) ∧
    (s.spot n w nb die core = none → ¬ split ∨ (∀ k, ¬ kib k) ∨ (∀ k, ¬ bars k) ∨
      ∃ ps, ps.length < w ∧ PlacedInTurn (8 * n.regg) n.rows ws ps ∧ ∀ q < 4, ¬ canTake (8 * n.regg) n.rows (withPlaced n.rows ws ps) q) ∧
    (∀ v, heldSlot ws v ↔ v < 64 ∧ (s.wave (waveKey die core v)).valid = true)

/-- R77: of the cores that the group fits the one with the fewest occupied slots, and of equals the lowest; none only where it fits none. -/
def CoreChoice : Prop :=
  ∀ (s : State) (l : Launch) (nd w die : Nat) (ok : Nat → Bool), let n := l.node nd
    let fits := fun (c : Nat) => ∃ q, s.coreAllowed l n die c = true ∧ ok c = true ∧ s.spot n w n.nbar die c = some q ∧
      s.budgetOk l nd [q] = true
    (∀ p, s.pickCore l nd w die ok = some p → p.core < 96 ∧ fits p.core ∧ s.spot n w n.nbar die p.core = some p ∧
      ∀ c < 96, fits c → s.occupied die p.core < s.occupied die c ∨ (s.occupied die p.core = s.occupied die c ∧ p.core ≤ c)) ∧
    (s.pickCore l nd w die ok = none → ∀ c < 96, ¬ fits c)

/-- R78: of the clusters on whose 8 cores every reservation and placement fits, the one with the fewest occupied slots, and of equals the lowest. -/
def ClusterChoice : Prop :=
  ∀ (s : State) (l : Launch) (nd die : Nat) (other : List Spot) (ok : Nat → Bool), let n := l.node nd
    let fits := fun (k : Nat) (ps : List Spot) => ps.length = 8 ∧ s.budgetOk l nd (other ++ ps) = true ∧
      ∀ m < 8, s.coreAllowed l n die (8 * k + m) = true ∧ ok (8 * k + m) = true ∧
        ps[m]? = s.spot n (if m < n.clun then n.gwaves else 0) (if m < n.clun then n.nbar else 0) die (8 * k + m)
    let load := fun (k : Nat) => ((List.range 8).map (fun m => s.occupied die (8 * k + m))).sum
    (∀ ps, s.pickCluster l nd die other ok = some ps → ∃ k < 12, fits k ps ∧ (∀ m p, ps[m]? = some p → p.die = die ∧ p.core = 8 * k + m) ∧
      ∀ j < 12, ∀ qs, fits j qs → load k < load j ∨ (load k = load j ∧ k ≤ j)) ∧
    (s.pickCluster l nd die other ok = none → ∀ k < 12, ∀ ps, ¬ fits k ps)

/-- R80, R84, R392: wave i of a group of batches, at its start. -/
def StartsWave (l : Launch) (nd gid gno i : Nat) (b : Batch) (pl : Nat × Nat) (w : Wave) : Prop :=
  let n := l.node nd
  w.valid = true ∧ w.n = n.rows ∧ w.row = pl.2 ∧ w.gid = gid ∧ w.gi = i ∧ w.ctxid = l.ctxid ∧ w.root = some l.root ∧
  w.div = { stack := [runE (.ofNat 57 n.code) 0 (.ofNat 32 (2 ^ b.lanes - 1))] } ∧ w.fpctl = .ofNat 32 n.fpctl ∧
  w.recbase = (if n.recsp then n.scrb * 1024 - n.gwaves * n.cspill - (n.gwaves - i) * n.b * n.rsz else 0xFFFFFFFF) ∧
  (∀ r lane, lane < 32 → let rec_ := b.recs.getD (if b.range.isSome ∨ n.clu ≠ 0 then 0 else lane) []
    w.raw r lane = if r < min n.pre rec_.length ∧ lane < b.lanes then
      (match b.range with
        | some (_, k) => if r = 0 then .ofNat 32 (k * n.b + lane) else rec_.getD r 0
        | none => rec_.getD r 0)
    else 0) ∧
  w.funel.launch = some l.seq ∧ w.funel.node = nd ∧ w.funel.gno = gno ∧ w.funel.batchn = (if n.clu = 0 then b.lanes else 1) ∧ w.funel.recs = b.recs ∧
  w.funel.depths = b.depths ∧ w.funel.shared = decide (n.kind = 1 ∨ n.clu ≠ 0) ∧ w.funel.range = b.range ∧ w.funel.ended = 0 ∧ w.funel.used = [] ∧
  w.main = {} ∧ w.cp = 0 ∧ w.mx = 0 ∧ w.accs = [] ∧ w.binds = [] ∧ w.bwphase = 0 ∧ w.state = 0

/-- R77, R80, R396, R397: the die's distributor places the candidate it serves next: its waves start, its scratchpad reads 0 but for the call spill areas,
which hold what they held (R282), and its owner bits are 0. -/
def Placements : Prop :=
  (∀ (die launch gno : Nat) (s : State), (∀ l f, s.nextPlaced die = some (l, f) → (l.seq, f.gno) ≠ (launch, gno)) →
    Idle (.groupPlace die launch gno) s) ∧
  (∀ (die : Nat) (s : State) (l : Launch) (f : Formed), soundLaunches s → s.nextPlaced die = some (l, f) →
    l ∈ s.launches ∧ f ∈ l.formed ∧ f.die = die ∧ s.forms l = true ∧ s.predAllows l = true ∧ (s.placeable l f).isSome = true ∧
    (∀ g ∈ l.formed, g.node = f.node → f.gno ≤ g.gno) ∧
    (∀ m g, (m, g) ∈ s.candidates die → (s.placeable m g).isSome = true → ¬ servedBefore m g.node l f.node)) ∧
  (∀ (die : Nat) (s : State), s.nextPlaced die = none → ∀ p ∈ s.candidates die, s.placeable p.1 p.2 = none) ∧
  (∀ (die : Nat) (s : State) (l : Launch) (f : Formed), (l, f) ∈ s.candidates die ↔ l ∈ s.launches ∧ s.forms l = true ∧ s.predAllows l = true ∧
    f ∈ l.formed ∧ f.die = die ∧ ∀ g ∈ l.formed, g.node = f.node → f.gno ≤ g.gno) ∧
  (∀ (s : State) (l : Launch) (f : Formed), let n := l.node f.node
    let ok := fun die c => !s.coreHeld n die c
    ((s.placeable l f).isSome = true ↔ (s.admission l f).isSome = true ∧
      (match n.clu with
        | 0 => (s.pickCore l f.node f.batches.length f.die (ok f.die)).isSome = true
        | 1 => (s.pickCluster l f.node f.die [] (ok f.die)).isSome = true
        | _ => ∃ a, s.pickCluster l f.node 0 [] (ok 0) = some a ∧ (s.pickCluster l f.node 1 a (ok 1)).isSome = true))) ∧
  (∀ (die : Nat) (s : State) (l : Launch) (f : Formed) (p : Spot) (r : List (List (Nat × Nat))), soundLaunches s →
    s.nextPlaced die = some (l, f) → s.placeable l f = some ([p], r) → (l.node f.node).clu = 0 →
    (∀ b ∈ f.batches, b.lanes ≤ 32 ∧ b.recs.length = if b.range.isSome then 1 else b.lanes) → die < 2 →
    let n := l.node f.node
    let ck := coreKey die p.core
    let c := s.core ck
    let keep := c.regg = n.regg ∧ c.l1g = n.l1g
    ∃ t, exec (.groupPlace die l.seq f.gno) s = .next t ∧ t = { s with waves := t.waves, cores := t.cores, launches := t.launches } ∧
      t.launch l.seq = { l with formed := l.formed.filter (fun g => g.gno ≠ f.gno), nwaves := l.nwaves + f.batches.length } ∧
      (∀ q, q ≠ l.seq → t.launch? q = s.launch? q) ∧
      (∀ i b a, f.batches[i]? = some b → p.waves[i]? = some a → StartsWave l f.node c.nextGid f.gno i b a (t.wave (ck * 64 + a.1))) ∧
      (∀ e < 8, ((f.batches.zip p.waves).map (fun a => reservedOn (t.wave (ck * 64 + a.2.1)).funel e)).sum =
        (match n.edge e with | some d => d.e * (f.batches.map (fun b => b.lanes)).sum | none => 0)) ∧
      (∀ k, (∀ a ∈ p.waves, k ≠ ck * 64 + a.1) → t.wave k = s.wave k) ∧ (∀ k, k ≠ ck → t.core k = s.core k) ∧
      (t.core ck).regg = n.regg ∧ (t.core ck).l1g = n.l1g ∧
      (t.core ck).groups = c.groups ++ [{ id := c.nextGid, launch := some l.seq, node := f.node, gno := f.gno, waves := p.waves.map Prod.fst
                                          gwaves := n.gwaves, cspill := n.cspill, sbase := p.sbase, skib := n.scrb, bbase := p.bbase
                                          nb := if p.waves = [] then 0 else n.nbar }] ∧
      (∀ i < (if p.waves = [] then 0 else n.nbar), t.bar ck (p.bbase + i) = { kind := 1, exparr := p.waves.length, arr := p.waves.length }) ∧
      (∀ k, FMap.get false (t.core ck).owner k =
        if ¬ keep ∨ (p.sbase ≤ k ∧ k < p.sbase + n.scrb) then false else FMap.get false c.owner k) ∧
      (n.recsp = false → ∀ k, FMap.get 0 (t.core ck).scratch k =
        if ¬ keep ∨ (1024 * p.sbase ≤ k ∧ k < 1024 * p.sbase + (n.scrb * 1024 - n.gwaves * n.cspill)) then 0 else FMap.get 0 c.scratch k))

/-- R78, R20, R394: a cluster, or the two parts of a straddling one, starts whole: member m of each die on core m of its cluster with all waves of
the group, and a member beyond the groups only reserves the share. -/
def ClusterStarts : Prop :=
  ∀ (die : Nat) (s : State) (l : Launch) (f : Formed) (ps : List Spot) (r : List (List (Nat × Nat))) (b : Batch), soundLaunches s →
    s.nextPlaced die = some (l, f) → s.placeable l f = some (ps, r) → f.batches = [b] → b.range = none → b.recs.length = 1 → b.lanes ≤ 32 →
    let n := l.node f.node
    n.clu = 1 ∨ n.clu = 2 → n.clun ≤ 8 → die < 2 →
    let on := fun (d : Nat) => ps.filter (fun p => p.die == d)
    let base := fun (d : Nat) => ((on d).map (fun p => p.core)).headD 0
    ∃ t, exec (.groupPlace die l.seq f.gno) s = .next t ∧ t = { s with waves := t.waves, cores := t.cores, launches := t.launches } ∧
      t.launch l.seq = { l with formed := l.formed.filter (fun g => g.gno ≠ f.gno), nwaves := l.nwaves + (ps.map (fun p => p.waves.length)).sum } ∧
      (∀ q, q ≠ l.seq → t.launch? q = s.launch? q) ∧
      (∀ d < 2, ∀ m p, (on d)[m]? = some p → let ck := coreKey d p.core
        let c := s.core ck
        let gno := f.gno + (if n.clu = 2 ∧ d = 1 then n.clun else 0) + m
        let nb := if p.waves = [] then 0 else n.nbar
        (t.core ck).regg = n.regg ∧ (t.core ck).l1g = n.l1g ∧
        (t.core ck).groups = c.groups ++ [{ id := c.nextGid, launch := some l.seq, node := f.node, gno := gno, waves := p.waves.map Prod.fst
                                            gwaves := n.gwaves, cspill := n.cspill, sbase := p.sbase, skib := n.scrb, bbase := p.bbase
                                            nb := nb, nc := n.ncbar, clu := true, cid := l.seq * 2 ^ 32 + f.gno, cbase := base d
                                            straddle := n.clu == 2, obase := base (1 - d) }] ∧
        (∀ i < nb, t.bar ck (p.bbase + i) =
          if i < n.ncbar then (if m = 0 then { kind := 2, exparr := n.clun * n.gwaves, arr := n.clun * n.gwaves } else { kind := 3 })
          else { kind := 1, exparr := p.waves.length, arr := p.waves.length }) ∧
        (∀ i a, p.waves[i]? = some a → StartsWave l f.node c.nextGid gno i b a (t.wave (ck * 64 + a.1)))) ∧
      (∀ k, (∀ p ∈ ps, ∀ a ∈ p.waves, k ≠ coreKey p.die p.core * 64 + a.1) → t.wave k = s.wave k) ∧
      ∀ k, (∀ p ∈ ps, k ≠ coreKey p.die p.core) → t.core k = s.core k

/-- R396: a reservation takes queue room first and the spill area for the rest; it is refused only where the two together do not
cover it. -/
def Reservations : Prop :=
  ∀ (s : State) (l : Launch) (n die lanes e : Nat) (d : Edge), (l.node n).edge e = some d →
    let t := l.node d.tgt
    let room := s.roomOf l d.tgt die
    (∀ q p, s.reserve1 l n die lanes e = some (q, p) → q + p = lanes * d.e ∧ q ≤ room ∧ (p ≠ 0 → q = room) ∧
      p * t.rsz ≤ s.spillFree l (d.tgt == n)) ∧
    (s.reserve1 l n die lanes e = none → s.spillFree l (d.tgt == n) < (lanes * d.e - room) * t.rsz) ∧
    ((∀ r ∈ s.raysOf l.seq, r.2.node ≠ d.tgt) → (∀ r ∈ s.reserved l.seq, r.1 = die → l.target r.2.1 r.2.2.1 ≠ some d.tgt) →
      room = t.qcap - (l.queue d.tgt die).length)

/-- R402: a dependent launch places groups once its predecessor is over, or has no record and no group waiting and every live wave of it has
executed `xzopen`. -/
def DependentsWait : Prop :=
  (∀ (s : State) (l : Launch), l.pred.bind s.launch? = none → s.predAllows l = true) ∧
  (∀ (s : State) (l p : Launch), l.pred = some p.seq → s.launch? p.seq = some p → (s.predAllows l = true ↔
    s.hasRecords p = false ∧ p.formed = [] ∧ p.opened = [] ∧ (∀ v ∈ s.saved, v.launch ≠ p.seq) ∧
    ∀ w ∈ s.wavesOf p.seq, w.2.funel.xz = true ∨ w.2.liveLanes = 0))
end Sys2Proof.Rule

/-- R76 to R78, R80, R84, R392, R396, R397, R402: where a group or a cluster fits, which core takes it, and how its waves start. -/
def Sys2Proof.Rule.GroupPlacement : Prop :=
  PlacesFit ∧ CoreChoice ∧ ClusterChoice ∧ Placements ∧ ClusterStarts ∧ Reservations ∧ DependentsWait

/-- The Funel's gathering, stealing and placement of groups. -/
def Obligations.GatherAndPlace : Prop := Sys2Proof.Rule.GatherEvents ∧ Sys2Proof.Rule.GroupPlacement

namespace Sys2Proof.Rule
/-- Physical writes (address, bytes, value): with no reduction cell and no migration about, each byte reads as the last write left it. -/
def PhysWrites (s t : State) (ws : List (Nat × Nat × Nat)) : Prop :=
  s.cells = [] → s.migs = [] → ∀ a, t.byte a =
    ((ws.reverse.find? (fun w => decide (w.1 ≤ a) && decide (a < w.1 + w.2.1))).map (fun w => BitVec.ofNat 8 (w.2.2 / 2 ^ (8 * (a - w.1))))).getD (s.byte a)

/-- STATUS of R401. -/
def statusAt (lrcb state code node : Nat) : Nat × Nat × Nat := (lrcb + 80, 4, node * 2 ^ 16 + code * 2 ^ 8 + state)

/-- MSI-X vector 0 is signalled, if IRQ is set. -/
def signals (irq : Bool) (l : List Nat) : List Nat := if irq then 0 :: l else l

/-- R456, R457: the command die consumes the ring's next entry, one at a time: LRHEAD passes a well-formed one when its launch has been checked. That no entry is consumed before stage 2 is the model's reading of R399 and R464. -/
def RingEntries : Prop :=
  (∀ (s : State), s.cdie.stage < 2 ∨ s.cdie.lrhead = s.cdie.lrtail ∨ s.cdie.arrived ≠ [] → Idle .launchEntryConsume s) ∧
  (∀ (s : State), 2 ≤ s.cdie.stage → s.cdie.lrhead ≠ s.cdie.lrtail → s.cdie.arrived = [] →
    let c := s.cdie
    let n := c.lrhead.toNat
    let a := c.lrbase.toNat / 2 ^ 12 * 2 ^ 12 + 16 * (n % 2 ^ (c.lrbase.toNat % 16 + 4))
    let e := s.readPhys a 16
    let lrcb := e % 2 ^ 64
    let irq := (e / 2 ^ 64).testBit 0
    let bad := e / 2 ^ 65 ≠ 0 ∨ lrcb % 128 ≠ 0
    let gives := fun (c' : Cdie) => exec .launchEntryConsume s = .next { s with cdie := c' }
    let next := { c with lrhead := c.lrhead + 1 }
    let err := fun (bit reason : Nat) => { next with lrstat := Nat.lor c.lrstat bit, lrentry := c.lrhead, lrreason := reason }
    (s.memOk a 16 = false → gives (err 2 2)) ∧
    (s.memOk a 16 = true → bad → lrcb % 128 ≠ 0 ∨ s.memOk lrcb 128 = false → gives { err 2 1 with msix := signals irq c.msix }) ∧
    (s.memOk a 16 = true → bad → lrcb % 128 = 0 → s.memOk lrcb 128 = true → ∃ t, exec .launchEntryConsume s = .next t ∧
      t.cdie = { err 2 1 with msix := signals irq c.msix } ∧ PhysWrites s t [statusAt lrcb 3 1 0] ∧ t.launches = s.launches) ∧
    (s.memOk a 16 = true → ¬ bad → s.memOk lrcb 128 = false → gives { err 4 3 with msix := signals irq c.msix }) ∧
    (s.memOk a 16 = true → ¬ bad → s.memOk lrcb 128 = true → gives { c with arrived := [⟨lrcb, irq, n⟩] })) ∧
  (∀ (v : Word) (s : State), let c := s.cdie
    ∃ t, exec (.lrtailWrite v) s = .next t ∧ t = { s with cdie := t.cdie } ∧
      (c.tripped = false → t.cdie = if 2 ^ (c.lrbase.toNat % 16 + 4) < (v - c.lrhead).toNat then { c with lrstat := Nat.lor c.lrstat 1 }
        else { c with lrtail := v })) ∧
  (∀ (v : Dword) (s : State), let c := s.cdie
    (c.lrhead ≠ c.lrtail ∨ 8 < v.toNat % 16 → Idle (.lrbaseWrite v) s) ∧
    (c.lrhead = c.lrtail → v.toNat % 16 ≤ 8 → exec (.lrbaseWrite v) s = .next { s with cdie := { c with
      lrbase := v &&& ~~~0xFF0#64 } }))

/-- The lowest counter set of a die that no launch holds, or 0 (R363). -/
def isFreeSet (s : State) (die c : Nat) : Prop :=
  let held := fun (c : Nat) => ∃ l ∈ s.launches, l.lset.getD die 0 = c
  (c = 0 ∧ ∀ k, 1 ≤ k → k < 64 → held k) ∨ (1 ≤ c ∧ c < 64 ∧ ¬ held c ∧ ∀ k, 1 ≤ k → k < c → held k)

/-- R349, R363, R388, R389, R399, R402: a launch that waits for banks takes them, or the next launch arrives: it is rejected (its launch record, which no check needs, is read last) or killed, or accepted, and where its banks are found
its record stands in the entry node's sub-queue on die 0. -/
def Arrivals : Prop :=
  (∀ (s : State), (∀ l ∈ s.launches, l.banked = true) → s.cdie.arrived = [] → Idle .launchArrive s) ∧
  (∀ (s : State), (∃ l ∈ s.launches, l.banked = false ∧ (s.bankLaunch l).isSome = true) →
    ∃ l u, l ∈ s.launches ∧ l.banked = false ∧ s.bankLaunch l = some u ∧ exec .launchArrive s = .next u) ∧
  (∀ (s u : State) (l : Launch), s.launch? l.seq = some l → s.bankLaunch l = some u →
    (u.launch l.seq).banked = true ∧ (∀ q, q ≠ l.seq → u.launch? q = s.launch? q) ∧
    (u.launch l.seq).queue l.entry 0 = l.queue l.entry 0 ++ [
      { words := l.first, self := 0, stamp := if (l.node l.entry).ord then FMap.get 0 l.stamps l.entry else 0
        born := (s.die 0).watch.toNat, spilled := false, taken := 0 }] ∧
    u = { s with launches := u.launches, regions := u.regions, lehrs := u.lehrs } ∧
    u.regions = s.regions ++ [0, 1].flatMap (fun die => (l.carves.filter (fun c => c.dies.testBit die)).map (fun c =>
      { die := die, launch := l.seq, vbase := c.vbase, size := c.size, rd := c.rd, wr := c.wr, fill := c.fill, wbend := c.wbend, lines := [] }))) ∧
  (∀ (s : State) (a : Arrival) as, (∀ l ∈ s.launches, l.banked = false → s.bankLaunch l = none) → s.cdie.arrived = a :: as →
    let u : State := { s with cdie := { s.cdie with arrived := as } }
    let ended := fun (state code node : Nat) (entry : Word) => ∃ t, exec .launchArrive s = .next t ∧
      PhysWrites s t [statusAt a.lrcb state code node] ∧ t.launches = s.launches ∧ t.waves = s.waves ∧ t.nextSeq = s.nextSeq ∧
      t.cdie = { s.cdie with arrived := as, lrhead := s.cdie.lrhead + 1, lrentry := entry, msix := signals a.irq s.cdie.msix }
    (∀ r, u.checkLaunch a.lrcb = .error r → ended 3 r.code r.node (if r.code = 11 then .ofNat 32 a.entry else s.cdie.lrentry)) ∧
    (∀ l, u.checkLaunch a.lrcb = .ok l →
      let dep := (s.byte (a.lrcb + 57)).getLsbD 0
      let before := FMap.get none s.preds l.ctxid
      (dep = true → before = some .rejected → ended 3 10 0 s.cdie.lrentry) ∧
      (∀ c, dep = true → before = some (.killed c) → ended 4 c 0 s.cdie.lrentry) ∧
      let goes := dep = false ∨ before = none ∨ ∃ p, before = some (.accepted p)
      (goes → u.firstRecord l = none → ended 3 11 0 (.ofNat 32 a.entry)) ∧
      (∀ ws, goes → u.firstRecord l = some ws → (∀ m ∈ s.launches, m.seq ≠ s.nextSeq) →
        ∃ t c0 c1, exec .launchArrive s = .next t ∧ isFreeSet s 0 c0 ∧ isFreeSet s 1 c1 ∧ t.nextSeq = s.nextSeq + 1 ∧
          (l.lrcb = a.lrcb → PhysWrites s t [(a.lrcb + 72, 8, s.nextSeq), (a.lrcb + 84, 2, c0 + 256 * c1), statusAt a.lrcb 1 0 0]) ∧
          (c0 ≠ 0 → (t.lehr 0).cntSet c0 = {}) ∧ (c1 ≠ 0 → (t.lehr 1).cntSet c1 = {}) ∧
          FMap.get none t.preds l.ctxid = some (.accepted s.nextSeq) ∧
          (∀ q, q ≠ s.nextSeq → t.launch? q = s.launch? q) ∧ t.waves = s.waves ∧ t.cores = s.cores ∧
          t.cdie = { s.cdie with arrived := as, lrhead := s.cdie.lrhead + 1 } ∧
          let n := t.launch s.nextSeq
          { n with queues := [], stamps := [], banked := false } =
            { l with first := ws, seq := s.nextSeq, irq := a.irq, lset := [c0, c1], queues := [], stamps := [], banked := false
                     pred := (if dep then (match before with | some (.accepted p) => some p | _ => none) else none) } ∧
          (n.banked = false → n.queues = l.queues) ∧
          (n.banked = true → n.queue l.entry 0 = l.queue l.entry 0 ++ [
            { words := ws, self := 0, stamp := if (l.node l.entry).ord then FMap.get 0 l.stamps l.entry else 0
              born := (s.die 0).watch.toNat, spilled := false, taken := 0 }]))))
/-- R400: with FRESH a launch reads each structure as it stands, and without it either so or as the Funel keeps it. 64 RCBs and 64 images are kept, the last used first. That a structure is kept once
its launch has passed every check is the model's choice (DESIGN CHOICE, log entry 16). -/
def KeptStructures : Prop :=
  (∀ (s : State) (a : Nat), s.rcbBytes true a = (if s.memOk a 128 then some (s.readPhys a 128) else none) ∧
    (s.rcbBytes false a = s.rcbBytes true a ∨ ∃ b, (a, b) ∈ s.kept.rcbs ∧ s.rcbBytes false a = some b)) ∧
  (∀ (s : State) (root graph n : Nat), s.imageHead true root graph = s.readV root graph 64 ∧ s.imageNodes true root graph n = s.readNodes root graph n ∧
    (s.imageHead false root graph = s.readV root graph 64 ∧ s.imageNodes false root graph n = s.readNodes root graph n ∨
      ∃ i ∈ s.kept.images, i.root = root ∧ i.addr = graph ∧ s.imageHead false root graph = i.head ∧ s.imageNodes false root graph n = some i.descs)) ∧
  (∀ (s t : State), s.kept.rcbs.length ≤ 64 → s.kept.images.length ≤ 64 → exec .launchArrive s = .next t →
    t.kept.rcbs.length ≤ 64 ∧ t.kept.images.length ≤ 64) ∧
  (∀ (s : State) (a : Arrival) as (l : Launch), (∀ l ∈ s.launches, l.banked = false → s.bankLaunch l = none) → s.cdie.arrived = a :: as →
    ({ s with cdie := { s.cdie with arrived := as } } : State).checkLaunch a.lrcb = .ok l → ∃ t, exec .launchArrive s = .next t ∧
      t.kept.images.head?.map (fun i => (i.root, i.addr)) = some (l.root, s.readPhys a.lrcb 128 / 2 ^ 256 % 2 ^ 64))

/-- An edge of a launch's graph from a node to another one, and a self-edge (R387). -/
def stepTo (l : Launch) (i t : Nat) : Prop := i ≠ t ∧ t < l.nodes.length ∧ ∃ e d, (l.node i).edge e = some d ∧ d.tgt = t
def selfEdged (l : Launch) (i : Nat) : Prop := ∃ e d, (l.node i).edge e = some d ∧ d.tgt = i

/-- Code 4 of R388: a cycle of several nodes, a node that ENTRY does not reach, or SDEPTH that does not match a self-edge. -/
def breaks4 (l : Launch) (i : Nat) : Prop :=
  Relation.TransGen (stepTo l) i i ∨ ¬ Relation.ReflTransGen (stepTo l) l.entry i ∨ ¬ (selfEdged l i ↔ 1 ≤ (l.node i).sdepth)

/-- Code 5: a node's group or cluster fits empty cores of the partition, within its budgets of cores and granules (R76, R78, R384). -/
def fitsEmptyCores (n : Node) (cmask : Nat) : Prop :=
  let groups := if n.clu = 0 then 1 else n.clun * n.clu
  let whole := fun (die : Nat) => ∃ k < 12, ∀ c < 8, cmask.testBit (96 * die + 8 * k + c) = true
  2 ≤ n.kind ∨ ((∃ ps, ps.length = n.gwaves ∧ PlacedInTurn (8 * n.regg) n.rows [] ps) ∧ groups ≤ n.rcb.cores ∧
    groups * ((n.gwaves * n.nreg * 128 + n.scrb * 1024 + 32767) / 32768) ≤ n.rcb.gran ∧
    (n.clu = 1 → whole 0 ∨ whole 1) ∧ (2 ≤ n.clu → whole 0 ∧ whole 1))

/-- Code 6: QCAP of a node is below its B, or below what a batch of some feeder asks of it. -/
def breaks6 (l : Launch) (t : Nat) : Prop :=
  let b := fun i => if (l.node i).kind ≤ 1 then (l.node i).b else 1
  (l.node t).qcap < b t ∨ ∃ m < l.nodes.length, ∃ e d, (l.node m).edge e = some d ∧ d.tgt = t ∧ (l.node t).qcap < b t - 1 + b m * d.e

/-- A carve record that keeps R349, and two that share a byte on a die. -/
def carveField (v o n : Nat) : Nat := v / 2 ^ (8 * o) % 2 ^ (8 * n)
def goodCarve (v : Nat) : Prop :=
  carveField v 0 8 % 65536 = 0 ∧ carveField v 0 8 < 2 ^ 57 ∧ 1 ≤ carveField v 8 4 ∧ carveField v 8 4 ≤ 16384 ∧ 1 ≤ carveField v 12 1 ∧
    carveField v 12 1 < 4 ∧ carveField v 13 1 < 16 ∧ carveField v 14 18 = 0
def carvesMeet (v w : Nat) : Prop :=
  (∃ die < 2, (carveField v 12 1).testBit die = true ∧ (carveField w 12 1).testBit die = true) ∧
    carveField v 0 8 < carveField w 0 8 + 65536 * carveField w 8 4 ∧ carveField w 0 8 < carveField v 0 8 + 65536 * carveField v 8 4

/-- Code 7: a record breaks R349, or the carved and queue banks of both dies exceed the budget. -/
def breaks7 (l : Launch) (rec_ : Nat → Nat) (nc : Nat) : Prop :=
  let q := ((l.nodes.map (fun n => n.qcap * n.rsz)).sum + 2 ^ 21 - 1) / 2 ^ 21
  let c := fun (die : Nat) => ((List.range nc).map (fun i =>
    if (carveField (rec_ i) 12 1).testBit die then (65536 * carveField (rec_ i) 8 4 + 2 ^ 21 - 1) / 2 ^ 21 else 0)).sum
  (∃ i < nc, ¬ goodCarve (rec_ i)) ∨ (∃ i < nc, ∃ j < i, carvesMeet (rec_ i) (rec_ j)) ∨ (l.path.getLastD {}).banks < (q + c 0) + (q + c 1)

/-- Code 8: a page of the spill area is not resident with RD and WR, or the area is below the sum over self-edges of B × E × RSZ. -/
def breaks8 (s : State) (l : Launch) (spill size : Nat) : Prop :=
  let self := fun i => ((List.range 8).map (fun e => match (l.node i).edge e with
    | some d => if d.tgt = i then (l.node i).b * d.e * (l.node i).rsz else 0
    | none => 0)).sum
  (size ≠ 0 ∧ s.badPage l.root spill size .rdwr ≠ none) ∨ size < ((List.range l.nodes.length).map self).sum

/-- Code 9: the scratchpad of a group does not hold its spill and record areas. -/
def breaks9 (l : Launch) (i : Nat) : Prop :=
  let n := l.node i
  n.kind ≤ 1 ∧ n.scrb * 1024 < n.gwaves * n.cspill + (if n.recsp then n.gwaves * n.b * n.rsz else 0)

/-- R388, codes 4 to 9 in their order, with the carve records (11) read before code 7: the first check that fails decides CODE, and NODE is the
lowest node that fails it; a launch that fails none keeps its carve records and its spill area. -/
def NodeChecks : Prop :=
  ∀ (s : State) (l : Launch) (b3 : Nat), let k := l.nodes.length
    let f := fun o n => b3 / 2 ^ (8 * o) % 2 ^ (8 * n)
    let nc := f 56 1
    let rec_ := fun i => s.readV l.root (f 48 8 + 32 * i) 32
    let half := s.cdie.stage = 2 ∧ 2 ^ 96 ≤ l.cmask
    let bad5 := fun i => ¬ fitsEmptyCores (l.node i) l.cmask ∨ half
    let unread := nc ≠ 0 ∧ s.badPage l.root (f 48 8) (32 * nc) .rd ≠ none
    let first := fun (bad : Nat → Prop) i => i < k ∧ bad i ∧ ∀ j < i, ¬ bad j
    let none_ := fun (bad : Nat → Prop) => ∀ i < k, ¬ bad i
    let to6 := none_ (breaks4 l) ∧ none_ bad5 ∧ none_ (breaks6 l)
    let to8 := to6 ∧ ¬ unread ∧ ¬ breaks7 l rec_ nc ∧ ¬ breaks8 s l (f 64 8) (65536 * f 60 4)
    (∀ r, s.checkRest l b3 = .error r →
      (r.code = 4 ∧ first (breaks4 l) r.node) ∨
      (r.code = 5 ∧ none_ (breaks4 l) ∧ ∃ i, first bad5 i ∧ (half → r.node = 0) ∧ (¬ half → r.node = i)) ∨
      (r.code = 6 ∧ none_ (breaks4 l) ∧ none_ bad5 ∧ first (breaks6 l) r.node) ∨
      (r.code = 11 ∧ r.node = 0 ∧ to6 ∧ unread) ∨ (r.code = 7 ∧ r.node = 0 ∧ to6 ∧ ¬ unread ∧ breaks7 l rec_ nc) ∨
      (r.code = 8 ∧ r.node = 0 ∧ to6 ∧ ¬ unread ∧ ¬ breaks7 l rec_ nc ∧ breaks8 s l (f 64 8) (65536 * f 60 4)) ∨
      (r.code = 9 ∧ to8 ∧ first (breaks9 l) r.node)) ∧
    (∀ m, s.checkRest l b3 = .ok m → to8 ∧ none_ (breaks9 l) ∧ m = { l with spill := f 64 8, spillsz := 65536 * f 60 4, carves := (List.range nc).map (fun i =>
      let v := rec_ i
      let b := fun j => (carveField v 13 1).testBit j
      { vbase := carveField v 0 8, size := 65536 * carveField v 8 4, dies := carveField v 12 1, rd := b 0, wr := b 1, fill := b 2, wbend := b 3 }) })

/-- R386, R387, R72, R75, R422, R437, R340: a node of a launch that passes code 3. -/
def soundNode (l : Launch) (i : Nat) : Prop :=
  let n := l.node i
  let edgeTo := fun e size => ∃ d, n.edge e = some d ∧ (l.node d.tgt).rsz = size
  let single := fun e => ∀ d, n.edge e = some d → d.e = 1
  let noneFrom := fun e => ∀ k, e ≤ k → n.edge k = none
  n.kind ≤ 4 ∧ n.rsz ∈ [16, 32, 64, 128] ∧ n.b ∈ [8, 16, 32] ∧ 8 ≤ n.qcap ∧ n.clu ≤ 2 ∧ (n.clu ≠ 0 → n.kind = 0) ∧
  (∀ e d, n.edge e = some d → d.tgt < l.nodes.length ∧ 1 ≤ d.e ∧ d.e ≤ 255) ∧ noneFrom 8 ∧
  (n.kind = 4 → 1 ≤ n.ru ∧ n.ru ≤ 96) ∧ (n.kind ≠ 4 → n.ru = 0) ∧
  (n.kind ≤ 1 → n.regg % 4 = 0 ∧ 4 ≤ n.regg ∧ n.regg ≤ 28 ∧ 2 ≤ n.l1g ∧ n.l1g ≤ 24 ∧ n.regg + n.l1g ≤ 32 ∧ 32 - n.regg - n.l1g ≤ 26 ∧
    8 ≤ n.nreg ∧ n.nreg ≤ 384 ∧ n.pre ≤ 32 ∧ n.pre ≤ n.rsz / 4 ∧ n.pre ≤ n.nreg ∧ n.scrb ≤ 32 * (32 - n.regg - n.l1g) ∧ n.nbar ≤ 256 ∧
    n.ncbar ≤ n.nbar ∧ n.cspill % 512 = 0 ∧ n.cspill ≤ 851968 ∧ 1 ≤ n.gwaves ∧ n.gwaves ≤ 16) ∧
  (n.kind = 2 → n.rsz = 128 ∧ n.ord = true ∧ edgeTo 0 64 ∧ noneFrom 1) ∧
  (n.kind = 3 → n.rsz = 64 ∧ n.ord = false ∧ edgeTo 0 64 ∧ edgeTo 1 64 ∧ single 0 ∧ single 1 ∧ noneFrom 2) ∧
  (n.kind = 4 → n.rsz = 64 ∧ n.ord = false ∧ edgeTo 0 16 ∧ single 0 ∧ noneFrom 1)

/-- R21, R384: an RCB keeps within the budgets of the one above it, and below its class. -/
def narrows (p r : Rcb) : Prop := p.cls ≤ r.cls ∧ r.cores ≤ p.cores ∧ r.phase ≤ p.phase ∧ r.gran ≤ p.gran ∧ r.banks ≤ p.banks

/-- R383 to R388: a launch that passes has a path of RCBs of levels 3 to 0, aligned and readable, a graph of version 1 with 1 to 1,024 sound nodes,
and DEPTH as the longest path from ENTRY; where it does not pass, code 1, 2, 3 or 11 comes before the checks of the nodes' shape. -/
def ImageChecks : Prop :=
  (∀ (s : State) (a : Nat), a % 128 ≠ 0 → s.checkLaunch a = .error { code := 1 }) ∧
  (∀ (s : State) (a : Nat), a % 128 = 0 → s.memOk a 128 = false → s.checkLaunch a = .error { code := 11 }) ∧
  (∀ (s : State) (a : Nat) r, s.checkLaunch a = .error r →
    (r.code = 1 ∨ r.code = 2 ∨ r.code = 3 ∨ r.code = 11) ∨ ∃ l b3, s.checkRest l b3 = .error r ∧ ∀ i < l.nodes.length, soundNode l i) ∧
  (∀ (s : State) (a : Nat) l, s.checkLaunch a = .ok l →
    let f := fun (v o n : Nat) => v / 2 ^ (8 * o) % 2 ^ (8 * n)
    let fresh := s.freshOf a
    ∃ b3 b2 b1 b0, s.rcbBytes true a = some b3 ∧ s.rcbBytes fresh (f b3 0 8) = some b2 ∧ s.rcbBytes fresh (f b2 0 8) = some b1 ∧
      s.rcbBytes fresh (f b1 0 8) = some b0 ∧ (∀ x ∈ [a, f b3 0 8, f b2 0 8, f b1 0 8], x % 128 = 0) ∧
      f b3 8 1 = 3 ∧ f b2 8 1 = 2 ∧ f b1 8 1 = 1 ∧ f b0 8 1 = 0 ∧ f b0 9 1 = 0x3F ∧ f b0 0 8 = 0 ∧
      l.lrcb = a ∧ l.ctxid = f b2 68 2 ∧ l.cmask = f b1 32 24 ∧ l.cmask ≠ 0 ∧
      l.root = (s.protectedRoot l.ctxid).getD (f b2 32 8) ∧ l.saveh = f b2 40 8 ∧ l.resth = f b2 48 8 ∧ l.savebase = f b2 56 8 ∧ l.savesz = f b2 64 4 ∧
      (∃ e0 e1 e2 e3, l.path = [e0, e1, e2, e3] ∧ narrows e0 e1 ∧ narrows e1 e2 ∧ narrows e2 e3 ∧
        ∀ i < l.nodes.length, narrows e3 (l.node i).rcb) ∧
      (let h := s.imageHead fresh l.root (f b3 32 8)
       f h 0 2 = 1 ∧ l.nodes.length = f h 2 2 ∧ 1 ≤ f h 2 2 ∧ f h 2 2 ≤ 1024 ∧ l.entry = f h 4 2 ∧ f h 4 2 < f h 2 2 ∧ f h 6 58 = 0) ∧
      (∃ l0, s.checkRest l0 b3 = .ok l) ∧ (∀ i < l.nodes.length, soundNode l i) ∧
      (l.node l.entry).depth = 0 ∧ (∀ i t, stepTo l i t → (l.node i).depth + 1 ≤ (l.node t).depth) ∧
      (∀ t < l.nodes.length, t ≠ l.entry → ∃ i, stepTo l i t ∧ (l.node t).depth = (l.node i).depth + 1))
end Sys2Proof.Rule

/-- R363, R383 to R388, R399, R400, R402, R456, R457: the ring, the checks and the arrival of launches, and the structures that the Funel keeps. -/
def Obligations.LaunchPath : Prop := RingEntries ∧ NodeChecks ∧ ImageChecks ∧ Arrivals ∧ KeptStructures

namespace Sys2Proof.Rule
/-- R401: what an ended launch no longer has. -/
def OverMeans : Prop :=
  ∀ (s : State) (l : Launch), s.launchOver l = true ↔
    l.banked = true ∧ (∀ p ∈ l.queues, p.2 = []) ∧ l.formed = [] ∧ l.opened = [] ∧ s.raysOf l.seq = [] ∧
    (∀ r ∈ s.rasters, ∀ n, r.2.serves = some (l.seq, n) → r.2.pass = none) ∧
    (∀ p ∈ s.waves, p.2.valid = true → p.2.funel.launch ≠ some l.seq) ∧
    (∀ h ∈ s.shadows, ∀ p ∈ h.waves, p.2.valid = true → p.2.funel.launch ≠ some l.seq) ∧ (∀ v ∈ s.saved, v.launch ≠ l.seq)

/-- R353, R233: the regions of a launch whose waves have ended go, with WBEND their dirty bytes to their homes first. -/
def Retirements : Prop :=
  (∀ (launch : Nat) (s : State), (∀ l, s.launch? launch = some l → s.launchOver l = false ∨ l.retired = true) → Idle (.carveRetire launch) s) ∧
  (∀ (s : State) (l : Launch), s.launch? l.seq = some l → s.launchOver l = true → l.retired = false →
    ∃ t, exec (.carveRetire l.seq) s = .next t ∧ t.launch l.seq = { l with retired := true } ∧
      (∀ q, q ≠ l.seq → t.launch? q = s.launch? q) ∧ (∀ r ∈ t.regions, r.launch ≠ l.seq) ∧
      (∀ r ∈ s.regions, r.launch ≠ l.seq → r ∈ t.regions) ∧ t.waves = s.waves ∧ t.tails = s.tails ∧
      (∀ p ∈ t.cells, ∀ c, p.2 = some c → FMap.get none t.cells p.1 = some c → c.launch ≠ some l.seq) ∧
      ((∀ r ∈ s.regions ++ s.shadows.flatMap (fun h => h.regions), r.launch = l.seq → r.wbend = false ∨ ∀ p ∈ r.lines, p.2.dirty = 0) →
        (∀ p ∈ s.cells, ∀ c, p.2 = some c → c.launch ≠ some l.seq) →
        t.mem = s.mem ∧ t.dies = s.dies) ∧
      (∀ ri k c, ri < s.regions.length → (∀ j < s.regions.length, (s.region j).launch = l.seq → j = ri) → (s.region ri).launch = l.seq →
        (s.region ri).wbend = true → (s.region ri).lines = [(k, c)] → c.dirty ≠ 0 → s.cells = [] →
        (∀ h ∈ s.shadows, ∀ r ∈ h.regions, r.launch ≠ l.seq) →
        (∀ u, s.writeBackLine { die := (s.region ri).die, ck := 0, root := some l.root, launch := some l.seq } ri k = .ok u →
          t.mem = u.mem ∧ t.dies = s.dies) ∧
        (∀ e, s.writeBackLine { die := (s.region ri).die, ck := 0, root := some l.root, launch := some l.seq } ri k = .error e →
          t.dies = (s.post (s.region ri).die 127 (some l.root) l.ctxid 2 ((s.region ri).vbase + 64 * k)).2.dies)))

/-- R401: an ended launch whose regions are retired writes its counters and STATUS 2, and goes. -/
def Completions : Prop :=
  (∀ (launch : Nat) (s : State), (∀ l, s.launch? launch = some l → s.launchOver l = false ∨ l.retired = false) → Idle (.launchComplete launch) s) ∧
  (∀ (s : State) (l : Launch), s.launch? l.seq = some l → s.launchOver l = true → l.retired = true →
    ∃ t, exec (.launchComplete l.seq) s = .next t ∧
      PhysWrites s t [(l.lrcb + 88, 8, l.nwaves), (l.lrcb + 96, 8, l.underc), (l.lrcb + 104, 8, l.underl), (l.lrcb + 112, 8, l.steals),
        (l.lrcb + 120, 8, l.spills), statusAt l.lrcb 2 0 0] ∧
      t.launch? l.seq = none ∧ (∀ q, q ≠ l.seq → t.launch? q = s.launch? q) ∧ t.cdie = { s.cdie with msix := signals l.irq s.cdie.msix } ∧
      t.waves = s.waves ∧ t.cores = s.cores ∧ t.tails = s.tails ∧ (∀ r ∈ t.regions, r.launch ≠ l.seq))

/-- R22: a fault that reaches no handler, or that its handler reports fatal, kills under the fault domain of the effective RCB of the wave's node. -/
def FaultKills : Prop :=
  (∀ (die core w : Nat) (s : State), let v := s.wave (waveKey die core w)
    let q := v.funel.launch.getD 0
    let fatal := v.valid = true ∧ core < 96 ∧ (v.state = 1 ∨ v.state = 4) ∧ v.cause ≠ 0
    let dom := ((s.launch q).node v.funel.node).rcb.fdom
    let kills := fun (d : KillDom) => exec (.launchKill (.fault die) core w) s = .next (s.kill d v.funel.node v.cause)
    (¬ fatal → Idle (.launchKill (.fault die) core w) s) ∧ (fatal → dom = 0 → kills (.wave die core w)) ∧
    (fatal → dom = 1 → kills (.launch q)) ∧ (fatal → 2 ≤ dom → kills (.context v.ctxid))) ∧
  (∀ (c core w : Nat) (s : State), exec (.launchKill (.context c) core w) s = .next (s.kill (.context c) 0 0))

/-- R22, R404: kills of a wave, of a launch (with the dependents that its end would have waited for, R402), and of a context, whose launches that
have not been accepted are killed too. -/
def Kills : Prop :=
  (∀ (die core w node code : Nat) (s : State), (s.wave (waveKey die core w)).valid = false ∨ 96 ≤ core →
    s.kill (.wave die core w) node code = s) ∧
  (∀ (die core w node code : Nat) (s : State), w < 64 → core < 96 → (s.wave (waveKey die core w)).valid = true →
    let t := s.kill (.wave die core w) node code
    (t.wave (waveKey die core w)).div.stack = [] ∧ (∀ e, reservedOn (t.wave (waveKey die core w)).funel e = 0) ∧
      (t.wave (waveKey die core w)).state = 0 ∧
      (∀ k ∈ s.tailsOf (coreKey die core) w, (t.tail (tailKey die core k)).stack = []) ∧
      t.launches = s.launches ∧ t.mem = s.mem ∧ (∀ k, k ≠ waveKey die core w → (t.wave k).div = (s.wave k).div)) ∧
  (∀ (q node code : Nat) (s : State), s.launch? q = none → s.kill (.launch q) node code = s) ∧
  (∀ (node code : Nat) (s : State) (l : Launch), s.launch? l.seq = some l → (∀ m ∈ s.launches, m.pred ≠ some l.seq) →
    let t := s.kill (.launch l.seq) node code
    t.launch? l.seq = none ∧ PhysWrites s t [statusAt l.lrcb 4 code node] ∧
      (∀ q, q ≠ l.seq → t.launch? q = s.launch? q) ∧ (∀ r ∈ t.regions, r.launch ≠ l.seq) ∧
      (∀ k, (t.wave k).funel.launch = some l.seq → (t.wave k).valid = false) ∧
      (∀ k, (s.wave k).valid = true → (s.wave k).funel.launch = some l.seq → (t.wave k).div.stack = []) ∧
      (soundWaves s → ∀ k, (s.wave k).funel.launch ≠ some l.seq → (t.wave k).div = (s.wave k).div) ∧
      (∀ h ∈ t.shadows, (∀ p ∈ h.waves, p.2.funel.launch ≠ some l.seq) ∧ ∀ r ∈ h.regions, r.launch ≠ l.seq) ∧
      t.cdie = { s.cdie with msix := signals l.irq s.cdie.msix }) ∧
  (∀ (node code : Nat) (s : State) (l d : Launch), soundLaunches s → s.launch? l.seq = some l → s.launch? d.seq = some d → d.pred = some l.seq → d.seq ≠ l.seq →
    (∀ m ∈ s.launches, m.seq ≠ d.seq → m.pred ≠ some l.seq) → (∀ m ∈ s.launches, m.pred ≠ some d.seq) →
    let t := s.kill (.launch l.seq) node code
    t.launch? l.seq = none ∧ t.launch? d.seq = none ∧ PhysWrites s t [statusAt l.lrcb 4 code node, statusAt d.lrcb 4 code 0]) ∧
  (∀ (c node code : Nat) (s : State), let t := s.kill (.context c) node code
    ((s.launches.map (fun l => l.seq)).Nodup → ∀ l ∈ t.launches, l.ctxid ≠ c) ∧ (∀ p ∈ t.preempts, p.ctxid ≠ c) ∧ (∀ h ∈ t.shadows, h.ctxid ≠ c) ∧
    ((∀ l ∈ s.launches, l.ctxid ≠ c) →
      let gone := s.cdie.arrived.filter (fun a => s.contextOf a.lrcb == some c)
      t.cdie = { s.cdie with
        lrhead := if gone = [] then s.cdie.lrhead else s.cdie.lrhead + 1
        arrived := s.cdie.arrived.filter (fun a => s.contextOf a.lrcb != some c), msix := gone.foldl (fun m a => signals a.irq m) s.cdie.msix } ∧
      PhysWrites s t (gone.map (fun a => statusAt a.lrcb 4 code 0)) ∧ (gone ≠ [] → FMap.get none t.preds c = some (.killed code))))
end Sys2Proof.Rule

/-- R22, R233, R353, R401, R402, R404: how launches end. -/
def Obligations.LaunchEnds : Prop := OverMeans ∧ Retirements ∧ Completions ∧ FaultKills ∧ Kills

/-! ## Fixed units (files 15, 23 and 24) -/

namespace Sys2Proof.Rule
/-- Only core k, launch q and memory with what follows it may change. -/
def UnitFrame (q : Nat) (s t : State) : Prop :=
  t.waves = s.waves ∧ t.tails = s.tails ∧ t.regions = s.regions ∧ (∀ p, p ≠ q → t.launch? p = s.launch? p) ∧ t.saved = s.saved ∧
    t.cdie = s.cdie ∧ t.lehrs = s.lehrs

/-- A record that a fixed unit appends (R389, R410, R411). -/
def unitRecord (s : State) (l : Launch) (tgt die : Nat) (words : List Word) (spilled : Bool) : Rcd :=
  { words := words, self := 0, stamp := if (l.node tgt).ord then FMap.get 0 l.stamps tgt else 0, born := (s.die die).watch.toNat
    spilled := spilled, taken := 0 }

/-- The record breaks R338. -/
def badRecord (r : Nat) : Prop := fld r 0 8 % 64 ≠ 0 ∨ fld r 24 2 = 0 ∨ 64 < fld r 24 2 ∨ fld r 26 2 ≠ 0 ∨ fld r 32 32 ≠ 0

/-- The pages of ranges that cannot be accessed, and why. -/
def rangesBad (s : State) (root : Nat) (l : List (Nat × Nat × Need)) (why : NoPage) (p : Nat) : Prop :=
  ∃ r ∈ l, ∃ q ∈ pagesOf r.1 r.2.1, q.1 = p ∧ s.pageAt root p r.2.2 = .error why

/-- R339, R340: what a record comes to; the value of a network of one layer, element by element. The ranges of a layer are checked
together, a page that may not be accessed before one that is not resident. -/
def NetworkResults : Prop :=
  (∀ (s : State) (root : Nat) (l : List (Nat × Nat × Need)),
    (∀ p, rangesBad s root l .fault p → s.mxRanges root l = .error (2, none)) ∧
    ((∀ p, ¬ rangesBad s root l .fault p) → ∀ p, rangesBad s root l .nonres p →
      ∃ q, rangesBad s root l .nonres q ∧ s.mxRanges root l = .error (4, some q)) ∧
    ((∀ p, ¬ rangesBad s root l .fault p ∧ ¬ rangesBad s root l .nonres p) → s.mxRanges root l = .ok ())) ∧
  (∀ (s : State) (root r : Nat), badRecord r → s.mxNetwork root r = .error (1, none)) ∧
  (∀ (s : State) (root r p : Nat), ¬ badRecord r → s.badPage root (fld r 0 8) 64 .rd = some (.fault, p) → s.mxNetwork root r = .error (2, none)) ∧
  (∀ (s : State) (root r p : Nat), ¬ badRecord r → s.badPage root (fld r 0 8) 64 .rd = some (.nonres, p) →
    s.mxNetwork root r = .error (4, some p)) ∧
  (∀ (s : State) (root r : Nat), ¬ badRecord r → s.badPage root (fld r 0 8) 64 .rd = none →
    let h := s.readV root (fld r 0 8) 64
    fld h 0 1 = 0 ∨ 16 < fld h 0 1 ∨ fld h 1 63 ≠ 0 → s.mxNetwork root r = .error (1, none)) ∧
  (∀ (s : State) (root r : Nat), ¬ badRecord r → s.badPage root (fld r 0 8) 64 .rd = none →
    let net := fld r 0 8
    let h := s.readV root net 64
    let y := s.readV root (net + 64) 64
    let m := fld r 24 2
    let k := fld y 16 2
    let n := fld y 18 2
    let bad := k < 16 ∨ 4096 < k ∨ k % 16 ≠ 0 ∨ n = 0 ∨ 64 < n ∨ 2 < fld y 20 1 ∨ fld y 21 43 ≠ 0
    fld h 0 1 = 1 → fld h 1 63 = 0 → s.badPage root (net + 64) 64 .rd = none →
      let ins := (fld r 8 8, 2 * m * k, Need.rd) :: (fld y 0 8, 2 * k * n, Need.rd) ::
        (if fld y 8 8 = 0 then [] else [(fld y 8 8, 4 * n, Need.rd)])
      let outs := [(fld r 16 8, 2 * m * n, Need.wr)]
      (bad → s.mxNetwork root r = .error (1, none)) ∧
      (∀ e, ¬ bad → s.mxRanges root ins = .error e → s.mxNetwork root r = .error e) ∧
      (∀ e, ¬ bad → s.mxRanges root ins = .ok () → s.mxRanges root outs = .error e → s.mxNetwork root r = .error e) ∧
      (¬ bad → s.badPage root (fld r 8 8) (2 * m * k) .rd = none → s.badPage root (fld y 0 8) (2 * k * n) .rd = none →
        (fld y 8 8 ≠ 0 → s.badPage root (fld y 8 8) (4 * n) .rd = none) → s.badPage root (fld r 16 8) (2 * m * n) .wr = none →
        let a := fun (i t : Nat) => BF16.val false (fld (s.readV root (fld r 8 8) (2 * (m * k))) (2 * (i * k + t)) 2)
        let w := fun (t j : Nat) => BF16.val false (fld (s.readV root (fld y 0 8) (2 * (k * n))) (2 * (t * n + j)) 2)
        let b := fun (j : Nat) => F32.val false (fld (s.readV root (fld y 8 8) (4 * n)) (4 * j) 4)
        let acc := fun (i j : Nat) => (List.range (k / 16)).foldl (fun v g =>
          accFloat v (groupSum ((List.range 16).map (fun t => (a i (16 * g + t), w (16 * g + t) j))))) 0
        let biased := fun (i j : Nat) =>
          if fld y 8 8 = 0 then acc i j else (F64.enc .rn false (sumFV .rn [F64.val false (acc i j), b j]).1).1
        let act := fun (v : Nat) => if BF16.val false v = .nan then BF16.nanBits
          else if fld y 20 1 = 1 then (if (BF16.val false v).neg then 0 else v) else if fld y 20 1 = 2 then BF16.clamp01 v else v
        s.mxNetwork root r = .ok ((List.range (m * n)).map (fun e => act (outConvert 2 false (biased (e / n) (e % n)))))))

/-- R337 to R340: a reserved unit takes the next record of its die's sub-queue; OUT is written only on success, and the output record
follows it. -/
def MatrixNodeRecords : Prop :=
  (∀ (die unit launch node : Nat) (s : State), s.launch? launch = none → Idle (.mxnodeRecord die unit launch node) s) ∧
  (∀ (die unit node : Nat) (s : State) (l : Launch), s.launch? l.seq = some l →
    let n := l.node node
    l.queue node die = [] ∨ s.forms l = false ∨ n.kind ≠ 4 ∨ 96 ≤ unit ∨ unit + n.ru < 96 ∨ s.reserve l node die 1 = none ∨ l.target node 0 = none →
      Idle (.mxnodeRecord die unit l.seq node) s) ∧
  (∀ (die unit node : Nat) (s : State) (l : Launch) (rc : Rcd) rest res tgt, s.launch? l.seq = some l → l.queue node die = rc :: rest →
    s.forms l = true → (l.node node).kind = 4 → unit < 96 → 96 ≤ unit + (l.node node).ru → s.reserve l node die 1 = some res →
    l.target node 0 = some tgt → tgt ≠ node → (l.node tgt).rsz = 16 → die < 2 →
    let r := packWords rc.words
    let out := fun (status : Nat) => ∃ t, exec (.mxnodeRecord die unit l.seq node) s = .next t ∧ UnitFrame l.seq s t ∧
      (t.launch l.seq).queue node die = rest ∧
      (t.launch l.seq).queue tgt die = l.queue tgt die ++ [unitRecord s l tgt die
        [.ofNat 32 (fld r 16 4), .ofNat 32 (fld r 20 4), .ofNat 32 (fld r 28 4), .ofNat 32 status] (decide ((res.getD 0 (0, 0)).1 = 0))] ∧
      (∀ k, k ≠ coreKey die unit → t.core k = s.core k) ∧
      { t.core (coreKey die unit) with mx := {} } = { s.core (coreKey die unit) with mx := {} } ∧
      (∀ x, s.mxNetwork l.root r = .ok x → ∀ a, t.byte a = (s.writeV l.root (fld r 16 8) (2 * x.length)
        ((List.range x.length).map (fun i => x.getD i 0 % 2 ^ 16 * 2 ^ (16 * i))).sum).byte a) ∧
      (∀ c, s.mxNetwork l.root r = .error (c, none) → t.mem = s.mem ∧ t.dies = s.dies) ∧
      (∀ c va, s.mxNetwork l.root r = .error (c, some va) → t.dies = (s.post die 127 (some l.root) l.ctxid 1 va).2.dies)
    (∀ x, s.mxNetwork l.root r = .ok x → out 0) ∧ (∀ e, s.mxNetwork l.root r = .error e → out e.1))
end Sys2Proof.Rule

/-- R337 to R340: the matrix fixed node. The model's reading (DEDUCED, log entry 37): each stage checks its own part when it is reached, and OUT is checked
after the inputs; the accumulator sets of the unit hold free words after a record. -/
def Obligations.MatrixNode : Prop := NetworkResults ∧ MatrixNodeRecords

namespace Sys2Proof.Rule
/-- The bits b of a format are q rounded to nearest even: a finite value, or the infinity where q lies beyond every finite one (R128). -/
def nearestTo (F : Fmt) (q : ℚ) (b : Nat) : Prop :=
  (∃ n m e, F.val false b = .fin n m e ∧ roundsTo F .rn q (num (.fin n m e)) b) ∨
  (F.val false b = .inf (decide (q < 0)) ∧ ∀ z, isValue F z → |z| < |q|)

/-- The value of a rounded quotient is nearest to the exact one. -/
def QuotientsRound : Prop :=
  ∀ F ∈ [F32, F16, BF16], ∀ (n d e : Int), 0 < d → nearestTo F ((n : ℚ) / d * 2 ^ e) (roundQ F n d e false)

/-- Twice the signed area of a, b, p in a plane with y downward, positive where they run clockwise. -/
def turn (a b p : Int × Int) : Int := (b.1 - a.1) * (p.2 - a.2) - (b.2 - a.2) * (p.1 - a.1)
/-- A vertex without its depth. -/
def plane (p : Int × Int × Int) : Int × Int := (p.1, p.2.1)

/-- R427: the tiles that a triangle is binned into: those whose rectangle of 32 by 32 pixels its bounding box meets. -/
def BinsTiles : Prop :=
  ∀ (d r t : Nat), t ∈ binnedTiles d r ↔ ∃ p0 p1 p2, triPoints r = some [p0, p1, p2] ∧
    let area := turn (plane p0) (plane p1) (plane p2)
    let left : Int := 32 * (t % (fld d 44 2 / 32) : Nat) * 2 ^ 149
    let top : Int := 32 * (t / (fld d 44 2 / 32) : Nat) * 2 ^ 149
    let side : Int := 32 * 2 ^ 149
    area ≠ 0 ∧ ¬ (0 < area ∧ (fld d 51 1).testBit 0 = true) ∧ ¬ (area < 0 ∧ (fld d 51 1).testBit 1 = true) ∧
    t < fld d 44 2 / 32 * (fld d 46 2 / 32) ∧ (∃ p ∈ [p0, p1, p2], p.1 < left + side) ∧ (∃ p ∈ [p0, p1, p2], left ≤ p.1) ∧
    (∃ p ∈ [p0, p1, p2], p.2.1 < top + side) ∧ (∃ p ∈ [p0, p1, p2], top ≤ p.2.1)

/-- R428: a point is covered when for each edge it lies strictly inside, or on an edge whose outward normal points left, or straight
up; the weights are those of the exact barycentric coordinates. -/
def Coverage : Prop :=
  ∀ (p0 p1 p2 : Int × Int × Int) (p : Int × Int),
    let area := turn (plane p0) (plane p1) (plane p2)
    let sgn : Int := if area < 0 then -1 else 1
    let e := fun (a b : Int × Int) => sgn * turn a b p
    let on := fun (a b : Int × Int) => 0 < e a b ∨
      (e a b = 0 ∧ (sgn * (b.2 - a.2) < 0 ∨ (sgn * (b.2 - a.2) = 0 ∧ sgn * (a.1 - b.1) < 0)))
    let covered := on (plane p1) (plane p2) ∧ on (plane p2) (plane p0) ∧ on (plane p0) (plane p1)
    let w := [e (plane p1) (plane p2), e (plane p2) (plane p0), e (plane p0) (plane p1)]
    (covered → coverage [p0, p1, p2] p = some w) ∧ (¬ covered → coverage [p0, p1, p2] p = none) ∧ w.sum = area.natAbs

/-- R428: depth and attributes are the weighted means of the vertices', rounded once; a NaN or infinite vertex gives the canonical NaN. -/
def Interpolation : Prop :=
  ∀ (d r : Nat) (p0 p1 p2 : Int × Int × Int) (p : Int × Int) (w0 w1 w2 : Int), triPoints r = some [p0, p1, p2] →
    coverage [p0, p1, p2] p = some [w0, w1, w2] → turn (plane p0) (plane p1) (plane p2) ≠ 0 →
    let l := [p0, p1, p2]
    let area : ℚ := w0 + w1 + w2
    let F := if (fld d 51 1).testBit 2 then BF16 else F16
    let v := fun (k a : Nat) => F.val false (fld r (16 + 32 * k + 12 + 2 * a) 2)
    let special := fun (x : FV) => x = .nan ∨ ∃ n, x = .inf n
    nearestTo F32 ((w0 * p0.2.2 + w1 * p1.2.2 + w2 * p2.2.2) / area * 2 ^ (-149 : Int)) (fragZ l [w0, w1, w2] r) ∧
    ∀ a < 9, (special (v 0 a) ∨ special (v 1 a) ∨ special (v 2 a) → fragAttr F l [w0, w1, w2] r a = F.nanBits) ∧
      (¬ special (v 0 a) → ¬ special (v 1 a) → ¬ special (v 2 a) →
        nearestTo F ((w0 * num (v 0 a) + w1 * num (v 1 a) + w2 * num (v 2 a)) / area) (fragAttr F l [w0, w1, w2] r a))

/-- R429: a fragment that passes the depth test is applied to its sample. -/
def Fragments : Prop :=
  (∀ (d t s smp n stamp r : Nat) (ws : List Word) p0 p1 p2, r = packWords ws → triPoints r = some [p0, p1, p2] → smp < 2 ^ 256 →
    let F := if (fld d 51 1).testBit 2 then BF16 else F16
    let at_ := coverage [p0, p1, p2] (centre (samplePixel d t s))
    (at_ = none → applyTri d t s (smp, n) (stamp, ws) = (smp, n)) ∧
    (∀ w, at_ = some w →
      let z := fragZ [p0, p1, p2] w r
      let attr := fragAttr F [p0, p1, p2] w r
      let zf := F32.val false z
      let zs := F32.val false (fld smp 4 4)
      let passes := if fld d 49 1 = 0 then meets .lt zf zs else if fld d 49 1 = 1 then meets .le zf zs else True
      let u := applyTri d t s (smp, n) (stamp, ws)
      (¬ passes → u = (smp, n)) ∧
      (passes → u.2 = n + 1 ∧ fld u.1 0 4 = fld smp 0 4 ∧ fld u.1 4 4 = (if (fld d 51 1).testBit 3 then z else fld smp 4 4) ∧
        (∀ c < 4, fld u.1 (8 + 2 * c) 2 = blend d attr (fun c => fld smp (8 + 2 * c) 2) c) ∧ (∀ a < 5, fld u.1 (16 + 2 * a) 2 = attr (4 + a)) ∧
        fld u.1 26 2 = 1 ∧ fld u.1 28 4 = stamp % 2 ^ 32))) ∧
  (∀ (d : Nat) (frag old : Nat → Nat) (c : Nat), c < 4 →
    let F := if (fld d 51 1).testBit 2 then BF16 else F16
    let fin := fun (x : Nat) => ∃ n m e, F.val false x = .fin n m e
    let q := fun (x : Nat) => num (F.val false x)
    (fld d 50 1 = 0 → blend d frag old c = frag c) ∧
    (fin (frag c) → fin (old c) → fin (frag 3) →
      (fld d 50 1 = 1 → c < 3 → nearestTo F (q (frag c) * q (frag 3) + q (old c) * (1 - q (frag 3))) (blend d frag old c)) ∧
      (fld d 50 1 = 1 → c = 3 → nearestTo F (q (frag 3) + q (old 3) * (1 - q (frag 3))) (blend d frag old c)) ∧
      (fld d 50 1 = 2 → nearestTo F (q (frag c) + q (old c)) (blend d frag old c))))

/-- R425, R426: a sample before any fragment, and its place. -/
def Samples : Prop :=
  ∀ (d t s : Nat), fld d 48 1 ≤ 2 → t < 65536 → s < 1024 → fld d 44 2 ≤ 8192 → 32 ≤ fld d 44 2 →
    (∀ e < 64, fld d (128 + e) 1 < 64) → t / (fld d 44 2 / 32) < 256 →
    let n := if fld d 48 1 = 0 then 4 else 16
    let e := fld d (128 + s % n) 1
    let b := s / n
    let tx := fld d 44 2 / 32
    let ns := if fld d 48 1 = 0 then 64 else if fld d 48 1 = 1 then 256 else 1024
    s < ns →
    let px := 32 * (t % tx) + (if fld d 48 1 = 2 then s % 32 else 8 * (b % 4) + e % 8)
    let py := 32 * (t / tx) + (if fld d 48 1 = 2 then s / 32 else 8 * (b / 4) + e / 8)
    let c := clearSample d t s
    samplePixel d t s = (px, py) ∧ sampleAt d t s = fld d 16 8 + 32 * (ns * t + s) ∧ fld c 0 2 = px ∧ fld c 2 2 = py ∧
      fld c 4 4 = fld d 52 4 ∧ fld c 8 8 = fld d 56 8 ∧ fld c 16 12 = 0 ∧ fld c 28 4 = 0xFFFFFFFF

/-- The pass after a record that is binned; `s` is the state in which it is binned, with the pass as it is there. -/
def Binned (s t : State) (root stamp : Nat) (ws : List Word) (p p' : Pass) : Prop :=
  let r := packWords ws
  p' = { p with geo := p.geo ++ [(stamp, ws)], lists := p'.lists } ∧
    (∀ k, FMap.get 0 p'.lists k = FMap.get 0 p.lists k + if k ∈ binnedTiles p.desc r then 1 else 0) ∧
    t.mem = (s.binData root p p.geo.length r (binnedTiles p.desc r)).mem

/-- R422 to R424, R427, R430, R433: a record of a pass is taken: discarded where the pass has failed, bad, counted in CULLED, or binned, after a
partial pass where it finds no room. -/
def TriangleRecords : Prop :=
  (∀ (die : Nat) (s : State), s.rasterNode die = none → Idle (.rasterTriangle die) s) ∧
  (∀ (s : State), (s.raster 1).serves = none → (s.raster 0).serves = none → s.rasterNode 1 = none) ∧
  (∀ (die n : Nat) (s : State) (l : Launch), (s.raster die).serves = some (l.seq, n) → s.launch? l.seq = some l → s.rasterNode die = some (l, n)) ∧
  (∀ (die nd : Nat) (s : State) (l : Launch), s.rasterNode die = some (l, nd) →
    l.nextStamp nd = none ∨ s.forms l = false ∨ (s.raster die).ended = true → Idle (.rasterTriangle die) s) ∧
  (∀ (die nd d : Nat) (s : State) (l : Launch) (rc : Rcd), s.rasterNode die = some (l, nd) → s.launch? l.seq = some l → l.nextStamp nd = some (d, rc) →
    s.forms l = true → (s.raster die).ended = false →
    let r := packWords rc.words
    let takes := fun (p : Pass) (t : State) => exec (.rasterTriangle die) s = .next t ∧ UnitFrame l.seq s t ∧ t.cores = s.cores ∧
      t.raster die = { serves := some (l.seq, nd), pass := some p, ended := (fld r 8 1).testBit 0 } ∧
      (∀ k, k ≠ die → t.raster k = s.raster k) ∧ (t.launch l.seq).queue nd d = (l.queue nd d).drop 1 ∧
      { t.launch l.seq with queues := l.queues } = l
    let good := fld r 0 8 % 64 = 0 ∧ fld r 8 1 < 2 ∧ fld r 9 7 = 0 ∧ fld r 46 2 = 0 ∧ fld r 78 2 = 0 ∧ fld r 110 2 = 0 ∧ fld r 112 16 = 0
    (∀ p, (s.raster die).pass = some p → p.addr ≠ fld r 0 8 → Idle (.rasterTriangle die) s) ∧
    (∀ p, (s.raster die).pass = some p → p.addr = fld r 0 8 →
      let p1 := { p with tris := p.tris + 1 }
      let tiles := binnedTiles p.desc r
      let room := p.geo.length < fld p.desc 36 4 ∧ ∀ k ∈ tiles, FMap.get 0 p.lists k < fld p.desc 40 4
      (p.fail ≠ 0 → ∃ t, takes p1 t ∧ t.mem = s.mem) ∧
      (p.fail = 0 → ¬ good → ∃ t, takes { p1 with fail := 2, geo := [], lists := [] } t ∧ t.mem = s.mem) ∧
      (p.fail = 0 → good → tiles = [] → ∃ t, takes { p1 with culled := p.culled + 1 } t ∧ t.mem = s.mem) ∧
      (p.fail = 0 → good → tiles ≠ [] → room → ∃ t p', takes p' t ∧ Binned s t l.root rc.stamp rc.words p1 p') ∧
      (p.fail = 0 → good → tiles ≠ [] → ¬ room → s.areaFail l.root p = none →
        let f := s.finishTiles l.root p1 (fun t => FMap.get 0 p.lists t ≠ 0)
        ∃ t p', takes p' t ∧ Binned f.1 t l.root rc.stamp rc.words { f.2 with geo := [], lists := [], partials := p.partials + 1 } p') ∧
      (∀ c va, p.fail = 0 → good → tiles ≠ [] → ¬ room → s.areaFail l.root p = some (c, va) →
        ∃ t, takes { p1 with fail := c, geo := [], lists := [] } t ∧ (c ≠ 4 → t.mem = s.mem))) ∧
    ((s.raster die).pass = none → fld r 0 8 % 64 ≠ 0 →
      ∃ t, takes { addr := fld r 0 8, desc := 0, tris := 1, fail := 2, unread := decide (s.badPage l.root (fld r 0 8) 256 .rd ≠ none) } t ∧
        t.mem = s.mem) ∧
    (∀ va, (s.raster die).pass = none → fld r 0 8 % 64 = 0 → s.badPage l.root (fld r 0 8) 256 .rd = some (.fault, va) →
      ∃ t, takes { addr := fld r 0 8, desc := 0, tris := 1, fail := 3, unread := true } t ∧ t.mem = s.mem) ∧
    ((s.raster die).pass = none → fld r 0 8 % 64 = 0 → s.badPage l.root (fld r 0 8) 256 .rd = none →
      let desc := s.readV l.root (fld r 0 8) 256
      let p0 : Pass := { addr := fld r 0 8, desc := desc, tris := 1 }
      (descOk desc = false → ∃ t, takes { p0 with fail := 2 } t ∧ t.mem = s.mem) ∧
      (descOk desc = true → s.areaFail l.root p0 = none → good → binnedTiles desc r ≠ [] → ∃ t p', takes p' t ∧
        Binned s t l.root rc.stamp rc.words p0 p')))

/-- The reconstruction record of group g of tile t (R431, R338), as a number of 64 bytes. -/
def groupRecord (d t g : Nat) : Nat :=
  let ns := if fld d 48 1 = 0 then 64 else if fld d 48 1 = 1 then 256 else 1024
  fld d 64 8 + 2 ^ 64 * ((fld d 16 8 + 32 * (ns * t + 64 * g)) % 2 ^ 64) + 2 ^ 128 * ((fld d 24 8 + fld d 32 4 * (16 * t + g)) % 2 ^ 64) +
    2 ^ 192 * 64 + 2 ^ 224 * ((16 * t + g) % 2 ^ 32)

/-- Counters and STATUS of a pass. -/
def passEnd (s : State) (root : Nat) (p : Pass) (status : Nat) : State :=
  ((((s.writeV root (p.addr + 200) 8 p.tris).writeV root (p.addr + 208) 8 p.culled).writeV root (p.addr + 216) 8 p.partials).writeV root
    (p.addr + 224) 8 p.frags).writeV root (p.addr + 192) 4 status

/-- R423, R431, R433: a pass ends by END, by a record of another pass, or by a closed inflow: every tile is finished, the reconstruction records
are appended in ascending TAG, then come the counters and STATUS; a failed pass writes these two alone. -/
def PassEnds : Prop :=
  (∀ (die : Nat) (s : State), (s.raster die).serves = none ∨ (s.raster die).pass = none → Idle (.rasterPassEnd die) s) ∧
  (∀ (die nd : Nat) (s : State) (l : Launch) (p : Pass), (s.raster die).serves = some (l.seq, nd) → (s.raster die).pass = some p →
    s.launch? l.seq = some l →
    let u := s.raster die
    let over_ := u.ended = true ∨ (∃ d r, l.nextStamp nd = some (d, r) ∧ p.addr ≠ fld (packWords r.words) 0 8) ∨
      (l.nextStamp nd = none ∧ s.closed l nd = true)
    let done := fun (t : State) => exec (.rasterPassEnd die) s = .next t ∧ UnitFrame l.seq s t ∧ t.cores = s.cores ∧
      t.raster die = { u with pass := none, ended := false } ∧ ∀ k, k ≠ die → t.raster k = s.raster k
    let n := fld p.desc 44 2 / 32 * (fld p.desc 46 2 / 32)
    let g := (if fld p.desc 48 1 = 0 then 1 else if fld p.desc 48 1 = 1 then 4 else 16)
    (s.forms l = false ∨ ¬ over_ → Idle (.rasterPassEnd die) s) ∧
    (s.forms l = true → over_ → p.fail ≠ 0 → ∃ t, done t ∧ t.launches = s.launches ∧ (p.unread = true → t.mem = s.mem) ∧
      (p.unread = false → t.mem = (passEnd s l.root p p.fail).mem)) ∧
    (∀ tgt k, s.forms l = true → over_ → p.fail = 0 → p.unread = false → s.areaFail l.root p = none → l.target nd 0 = some tgt →
      (l.node tgt).rsz = 64 → s.passRoom l nd die (n * g) = some k →
      let f := s.finishTiles l.root p (fun _ => true)
      ∃ t, done t ∧ t.mem = (passEnd f.1 l.root f.2 1).mem ∧ ∃ rs, (t.launch l.seq).queue tgt die = l.queue tgt die ++ rs ∧
        rs.map (fun r => (r.words, r.self)) = (List.range (n * g)).map (fun i =>
          ((List.range 16).map (fun j => BitVec.ofNat 32 (groupRecord p.desc (i / g) (i % g) / 2 ^ (32 * j))), 0)) ∧
        (rs.filter (fun r => r.spilled)).length = n * g - k) ∧
    (∀ c va, s.forms l = true → over_ → p.fail = 0 → s.areaFail l.root p = some (c, va) → ∃ t, done t ∧ t.launches = s.launches) ∧
    (s.forms l = true → over_ → p.fail = 0 → s.areaFail l.root p = none → l.target nd 0 = none ∨ s.passRoom l nd die (n * g) = none →
      Idle (.rasterPassEnd die) s))
end Sys2Proof.Rule

/-- R422 to R433: the raster unit. The model's reading (DEDUCED, log entry 35): when the descriptor and the areas are checked, that TRIS counts discarded
triangles, that END is honoured in a pass that has failed, and that a misaligned PASS gives code 2 with STATUS written where its page can be read. -/
def Obligations.RasterUnit : Prop :=
  QuotientsRound ∧ BinsTiles ∧ Coverage ∧ Interpolation ∧ Fragments ∧ Samples ∧ TriangleRecords ∧ PassEnds

namespace Sys2Proof.Rule
/-- R438: a ray record within its limits. -/
def goodRay (r : Nat) : Prop :=
  let res := (fld r 40 1).testBit 3 = true
  fld r 0 8 % 128 = 0 ∧ fld r 0 8 < 2 ^ 57 ∧ fld r 40 1 < 16 ∧ fld r 42 2 = 0 ∧
    (res → fld r 41 1 ≤ 16 ∧ fld r 44 4 < 4 ^ fld r 41 1) ∧ (¬ res → fld r 41 1 = 0 ∧ fld r 44 4 = 0 ∧ fld r 48 8 = 0)

/-- R445: an invalid ray. -/
def invalidRay (r : Nat) : Prop :=
  let v := fun (o : Nat) => F32.val false (fld r o 4)
  let fin := fun (x : FV) => ∃ n m e, x = .fin n m e
  meets .gtu (v 32) (v 36) ∨ (∃ i < 6, ¬ fin (v (8 + 4 * i))) ∨ (∀ i < 3, num (v (20 + 4 * i)) = 0)

/-- R438, R445, R448, R449: how a ray ends at once, and the words of its output record: for a hit of edge 0 or a miss of edge 1. -/
def RayRecords : Prop :=
  (∀ r, r < 2 ^ 512 → (∀ inv : Bool, ¬ goodRay r → (inv = true ↔ invalidRay r) → rayAtOnce r = some (rayOutput r none 1 inv)) ∧
    (goodRay r → invalidRay r → rayAtOnce r = some (rayOutput r none 0 true)) ∧ (goodRay r → ¬ invalidRay r → rayAtOnce r = none)) ∧
  (∀ r best err inv, r < 2 ^ 512 → err < 16 → (∀ h, best = some h → h.t < 2 ^ 32 ∧ h.prim < 2 ^ 32 ∧ h.u < 2 ^ 16 ∧ h.v < 2 ^ 16 ∧ h.addr < 2 ^ 64) →
    let o := rayOutput r best err inv
    let v := packWords o.2.1
    o.2.1.length = 16 ∧ o.2.2 = err ∧ fld v 13 3 = 0 ∧ fld v 16 24 = fld r 8 24 ∧ fld v 40 8 = fld r 0 8 ∧ fld v 56 8 = fld r 56 8 ∧
    (∀ h, err = 0 → best = some h → o.1 = 0 ∧ fld v 0 4 = h.t ∧ fld v 4 4 = h.prim ∧ fld v 8 2 = h.u ∧ fld v 10 2 = h.v ∧
      fld v 12 1 = 1 + (if h.back then 2 else 0) ∧ fld v 48 8 = h.addr) ∧
    (err ≠ 0 ∨ best = none → o.1 = 1 ∧ fld v 0 4 = 0x7F800000 ∧ fld v 4 4 = 0xFFFFFFFF ∧ fld v 8 4 = 0 ∧
      fld v 12 1 = (if inv then 4 else 0) + 16 * err ∧ fld v 48 8 = 0))

/-- The exact components of three FP32 values at an offset. -/
def vec (b o i : Nat) : ℚ := num (F32.val false (fld b (o + 4 * i) 4))
/-- Finite components at an offset. -/
def finiteAt (b o : Nat) : Prop := ∀ i < 3, ∃ n m e, F32.val false (fld b (o + 4 * i) 4) = .fin n m e
def dot3 (a b : Nat → ℚ) : ℚ := a 0 * b 0 + a 1 * b 1 + a 2 * b 2
def cross3 (a b : Nat → ℚ) : Nat → ℚ := fun i => a ((i + 1) % 3) * b ((i + 2) % 3) - a ((i + 2) % 3) * b ((i + 1) % 3)

/-- R442: a box that the exact ray meets for some t with TMIN ≤ t ≤ TMAX is accepted. -/
def BoxTests : Prop :=
  ∀ (r tmax box : Nat) (t : ℚ), finiteAt r 8 → finiteAt r 20 → finiteAt box 0 → finiteAt box 12 →
    (∃ n m e, F32.val false (fld r 32 4) = .fin n m e) → (∃ n m e, F32.val false tmax = .fin n m e) →
    num (F32.val false (fld r 32 4)) ≤ t → t ≤ num (F32.val false tmax) →
    (∀ i < 3, vec box 0 i ≤ vec r 8 i + t * vec r 20 i ∧ vec r 8 i + t * vec r 20 i ≤ vec box 12 i) → boxMeets r tmax box = true

/-- R443: the ray meets a triangle where its exact point lies in it; t, u and v are rounded once. -/
def TriangleTests : Prop :=
  ∀ (r b addr : Nat), finiteAt r 8 → finiteAt r 20 →
    let o := vec r 8
    let d := vec r 20
    let e1 := fun i => vec b 12 i - vec b 0 i
    let e2 := fun i => vec b 24 i - vec b 0 i
    let dn := dot3 d (cross3 e1 e2)
    let cull := (fld r 40 1).testBit 2 = true ∧ 0 < dn
    let meet := fun (t u v : ℚ) => (∀ i < 3, o i + t * d i = vec b 0 i + u * e1 i + v * e2 i) ∧ 0 ≤ u ∧ 0 ≤ v ∧ u + v ≤ 1
    let fin := finiteAt b 0 ∧ finiteAt b 12 ∧ finiteAt b 24
    (¬ fin ∨ dn = 0 ∨ cull ∨ (∀ t u v, ¬ meet t u v) → triMeets r b addr = none) ∧
    (∀ t u v, fin → dn ≠ 0 → ¬ cull → meet t u v → ∃ h, triMeets r b addr = some h ∧ nearestTo F32 t h.t ∧ nearestTo F16 u h.u ∧
      nearestTo F16 v h.v ∧ h.prim = fld b 36 4 ∧ h.addr = addr ∧ (h.back = true ↔ 0 < dn))

/-- R441, R444, R446: what the test of one triangle does to a traversal. -/
def Acceptance : Prop :=
  (∀ r tmax t, F32.val false (fld r 32 4) ≠ .nan → F32.val false tmax ≠ .nan → (hitAccepts r tmax t = true ↔ meets .ge (F32.val false t) (F32.val false (fld r 32 4)) ∧ meets .le (F32.val false t) (F32.val false tmax))) ∧
  (∀ (s : State) (root r addr : Nat) (a : Trav), a.stop = none → s.badPage root addr 48 .rd = none →
    let b := s.readV root addr 48
    let t := s.testTri root r addr a
    (fld b 40 8 ≠ 0 → t = { a with stop := some 2 }) ∧
    (fld b 40 8 = 0 → triMeets r b addr = none → t = a) ∧
    (∀ h, fld b 40 8 = 0 → triMeets r b addr = some h →
      (hitAccepts r a.tmax h.t = false → t = a) ∧
      (hitAccepts r a.tmax h.t = true → (fld r 40 1).testBit 1 = true → t = { a with best := some h, stop := some 0 }) ∧
      (hitAccepts r a.tmax h.t = true → (fld r 40 1).testBit 1 = false →
        let keeps := ∃ o, a.best = some o ∧ ¬ meets .lt (F32.val false h.t) (F32.val false o.t) ∧
          (meets .lt (F32.val false o.t) (F32.val false h.t) ∨ o.prim ≤ h.prim)
        (keeps → t = a) ∧ (¬ keeps → t = { a with best := some h, tmax := h.t })))) ∧
  (∀ (s : State) (root r addr p : Nat) (a : Trav), a.stop = none →
    (s.badPage root addr 48 .rd = some (.fault, p) → s.testTri root r addr a = { a with stop := some 4 }) ∧
    (s.badPage root addr 48 .rd = some (.nonres, p) → s.testTri root r addr a = { a with stop := some 5, want := some p }))

/-- R440, R441: a visit of the next child: a node's children in ascending slot before what was to be visited, or a leaf's triangles in order;
a child at depth 17 ends the ray with ERR 3. -/
def Visits : Prop :=
  (∀ (s : State) (root r : Nat) (a : Trav) (c : Todo) rest, a.todo = c :: rest → 17 ≤ c.path.length →
    s.visit root r a = { a with todo := rest, stop := some 3 }) ∧
  (∀ (s : State) (root r : Nat) (a : Trav) (c : Todo) rest, a.todo = c :: rest → c.path.length < 17 → refType c.ref = 2 →
    s.visit root r a = (List.range (c.ref / 2 ^ 57 % 32 + 1)).foldl (fun a i => s.testTri root r (c.ref % 2 ^ 57 + 48 * i) a) { a with todo := rest }) ∧
  (∀ (s : State) (root r : Nat) (a : Trav) (c : Todo) rest, a.todo = c :: rest → c.path.length < 17 → refType c.ref = 1 →
    s.badPage root (c.ref % 2 ^ 57) 128 .rd = none →
    let b := s.readV root (c.ref % 2 ^ 57) 128
    let ref := fun (k : Nat) => fld b (96 + 8 * k) 8
    let good := fun (x : Nat) => x = 0 ∨ (x / 2 ^ 62 = 1 ∧ x % 128 = 0) ∨ (x / 2 ^ 62 = 2 ∧ x % 16 = 0)
    ((∃ k < 4, ¬ good (ref k)) → s.visit root r a = { a with todo := rest, stop := some 2 }) ∧
    ((∀ k < 4, good (ref k)) → s.visit root r a = { a with todo := ((List.range 4).filter (fun k => ref k ≠ 0)).map (fun k =>
      { path := c.path ++ [k], box := some (fld b (24 * k) 24), ref := ref k }) ++ rest }))

/-- A ray has left its unit and its output record is appended (R436, R447, R448, R452). -/
def RayEnded (s t : State) (die unit : Nat) (y : Ray) (out : Nat × List Word × Nat) : Prop :=
  let l := s.launch y.launch
  let a := s.raysAt die
  let left := ((a.unit unit).erase y).filter (fun q => decide (q.packet = y.packet))
  let splits := y.packet.isSome = true ∧ 0 < left.length ∧ left.length < 16
  UnitFrame y.launch s t ∧ t.cores = s.cores ∧
  (t.raysAt die).rays = a.rays + 1 ∧ (t.raysAt die).errors = a.errors + (if out.2.2 = 0 then 0 else 1) ∧
  (t.raysAt die).splits = a.splits + (if splits then 1 else 0) ∧ (t.raysAt die).packets = a.packets ∧ (t.raysAt die).resumes = a.resumes ∧
  (t.raysAt die).unit unit = ((a.unit unit).erase y).map (fun q => if splits ∧ q.packet = y.packet then { q with packet := none } else q) ∧
  (∀ u, u ≠ unit → (t.raysAt die).unit u = a.unit u) ∧ (∀ k, k ≠ die → t.raysAt k = s.raysAt k) ∧
  ∀ tgt, l.target y.node out.1 = some tgt → (l.node tgt).rsz = 64 → s.launch? y.launch = some l → l.seq = y.launch →
    (t.launch y.launch).queue tgt die = l.queue tgt die ++ [unitRecord s l tgt die out.2.1 (decide (FMap.get 0 y.resq out.1 = 0))]

/-- R448, R449: a ray ends. -/
def RayResults : Prop :=
  (∀ (die unit ray : Nat) (s : State), (s.raysAt die).find unit ray = none → Idle (.rayResult die unit ray) s) ∧
  (∀ (die unit ray : Nat) (s : State) (y : Ray), (s.raysAt die).find unit ray = some y →
    let r := packWords y.rcd.words
    let root := (s.launch y.launch).root
    let a := s.visits root r allVisits (s.travStart root r)
    (∀ out, rayAtOnce r = some out → ∃ t, exec (.rayResult die unit ray) s = .next t ∧ RayEnded s t die unit y out ∧ t.mem = s.mem) ∧
    (rayAtOnce r = none → ∃ t, exec (.rayResult die unit ray) s = .next t ∧
      RayEnded s t die unit y (rayOutput r a.best (a.stop.getD 0) false) ∧ (a.want = none → t.mem = s.mem ∧ t.dies = s.dies) ∧
      (∀ va, a.want = some va → t.dies = (s.post die 127 (some root) (s.launch y.launch).ctxid 1 va).2.dies)))

/-- R441, R451: a ray whose next child lies at depth 17 has ended with ERR 3; one that stops or that has nothing left to visit has ended. -/
def endsWith (a : Trav) (err : Nat) : Prop :=
  (a.stop = some err) ∨ (a.stop = none ∧ a.todo = [] ∧ err = 0) ∨ (a.stop = none ∧ err = 3 ∧ ∃ c rest, a.todo = c :: rest ∧ 17 ≤ c.path.length)

/-- R451: on pre-emption a ray that has not ended leaves a resume record in its sub-queue on the unit's die; its packet is dissolved,
which is no split. -/
def RayResumes : Prop :=
  (∀ (die unit ray n : Nat) (s : State), (∀ y, (s.raysAt die).find unit ray = some y → s.preempted (s.launch y.launch).ctxid = false) →
    Idle (.rayResumeWrite die unit ray n) s) ∧
  (∀ (die unit ray n : Nat) (s : State) (y : Ray), (s.raysAt die).find unit ray = some y → s.preempted (s.launch y.launch).ctxid = true →
    let l := s.launch y.launch
    let r := packWords y.rcd.words
    let a := s.visits l.root r n (s.travStart l.root r)
    (∀ out, rayAtOnce r = some out → ∃ t, exec (.rayResumeWrite die unit ray n) s = .next t ∧ RayEnded s t die unit y out) ∧
    (∀ err, rayAtOnce r = none → endsWith a err → ∃ t, exec (.rayResumeWrite die unit ray n) s = .next t ∧
      RayEnded s t die unit y (rayOutput r a.best err false)) ∧
    (∀ c rest, rayAtOnce r = none → a.stop = none → a.todo = c :: rest → r < 2 ^ 512 → s.launch? y.launch = some l → l.seq = y.launch → c.path.length ≤ 16 →
      (∀ k ∈ c.path, k < 4) → a.tmax < 2 ^ 32 → (∀ h, a.best = some h → h.addr < 2 ^ 64) →
      ∃ t rc, exec (.rayResumeWrite die unit ray n) s = .next t ∧ (t.raysAt die).resumes = (s.raysAt die).resumes + 1 ∧
        (t.raysAt die).rays = (s.raysAt die).rays ∧ (t.raysAt die).splits = (s.raysAt die).splits ∧
        (t.raysAt die).unit unit = (((s.raysAt die).unit unit).erase y).map (fun q => if q.packet = y.packet then { q with packet := none } else q) ∧
        UnitFrame l.seq s t ∧ t.mem = s.mem ∧
        (t.launch l.seq).queue y.node die = l.queue y.node die ++ [rc] ∧ { rc with words := [] } = { y.rcd with words := [] } ∧
        let v := packWords rc.words
        rc.words.length = 16 ∧ fld v 0 36 = fld r 0 36 ∧ fld v 36 4 = a.tmax ∧ fld v 40 1 = Nat.lor (fld r 40 1) 8 ∧ fld v 41 1 = c.path.length ∧
        fld v 42 2 = 0 ∧ (∀ i < 16, fld v 44 4 / 4 ^ i % 4 = c.path.getD i 0) ∧
        fld v 48 8 = (match a.best with | some h => h.addr | none => 0) ∧ fld v 56 8 = fld r 56 8))

/-- How many records of a queue are taken at once: one, or as many as make a packet (R447). -/
def takesRecords (q : List Rcd) (k : Nat) : Prop :=
  let v := fun (r : Rcd) => packWords r.words
  let lone := fun (r : Rcd) => (fld (v r) 40 1).testBit 0 = false ∨ (fld (v r) 40 1).testBit 3 = true
  ∃ a rest, q = a :: rest ∧ (lone a → k = 1) ∧ (¬ lone a → 1 ≤ k ∧ k ≤ 64 ∧ k ≤ q.length ∧
    (∀ b ∈ q.take k, ¬ lone b ∧ fld (v b) 0 8 = fld (v a) 0 8) ∧
    (k = 64 ∨ k = q.length ∨ ∃ b, q[k]? = some b ∧ (lone b ∨ fld (v b) 0 8 ≠ fld (v a) 0 8)))

/-- Records of a queue are in flight in a unit; they keep their room (R436). -/
def InFlight (s t : State) (l : Launch) (node die home unit : Nat) (rs : List Rcd) : Prop :=
  UnitFrame l.seq s t ∧ t.mem = s.mem ∧ t.cores = s.cores ∧ (t.launch l.seq).queue node home = (l.queue node home).diff rs ∧
  (∀ m d, d < 2 → (m, d) ≠ (node, home) → (t.launch l.seq).queue m d = l.queue m d) ∧
  ∃ ys, (t.raysAt die).unit unit = (s.raysAt die).unit unit ++ ys ∧ ys.map (fun y => y.rcd) = rs ∧
    (∀ y ∈ ys, y.launch = l.seq ∧ y.node = node ∧ y.home = home) ∧
    ys.map (fun y => y.id) = (List.range rs.length).map (fun i => (s.raysAt die).next + i)

/-- R436, R447: a unit takes rays of its own die's sub-queue, or, where that is empty, 64 of the other die's that holds at least 128, its
resume records left out (log entry 77) and none in the middle of a packet, or one resume record. -/
def RayTakes : Prop :=
  (∀ (die unit launch node : Nat) (s : State), s.launch? launch = none → Idle (.rayTake die unit launch node) s) ∧
  (∀ (die unit node : Nat) (s : State) (l : Launch), s.launch? l.seq = some l → die < 2 →
    let own := l.queue node die
    let far := l.queue node (1 - die)
    let resumes := fun (r : Rcd) => (fld (packWords r.words) 40 1).testBit 3
    let may := s.forms l = true ∧ (l.node node).kind = 3 ∧ unit < 12
    let free := s.reserve l node die 1 ≠ none ∧ ((s.raysAt die).unit unit).length < 256
    (¬ may → Idle (.rayTake die unit l.seq node) s) ∧
    (own ≠ [] → s.reserve l node die 1 = none ∨ 256 ≤ ((s.raysAt die).unit unit).length → Idle (.rayTake die unit l.seq node) s) ∧
    (∀ k, may → takesRecords own k → free → ∃ t j, exec (.rayTake die unit l.seq node) s = .next t ∧ 1 ≤ j ∧ j ≤ k ∧
      InFlight s t l node die die unit (own.take j) ∧ (t.launch l.seq).steals = l.steals) ∧
    (own = [] → far.length < 128 → (∀ r ∈ far, resumes r = false) → Idle (.rayTake die unit l.seq node) s) ∧
    (∀ a rest, may → own = [] → 128 ≤ far.length → far = a :: rest → resumes a = false → free →
      ∃ t j, exec (.rayTake die unit l.seq node) s = .next t ∧ 1 ≤ j ∧ j ≤ 64 ∧
        InFlight s t l node die (1 - die) unit ((far.filter (fun r => !resumes r)).take j) ∧ (t.launch l.seq).steals = l.steals + 1 ∧
        ∀ u c v, far = u ++ c :: v → resumes c = true →
          let n := (u.filter (fun r => !resumes r)).length
          let ys := ((t.raysAt die).unit unit).drop ((s.raysAt die).unit unit).length
          ∀ i k y z, i < n → n ≤ k → ys[i]? = some y → ys[k]? = some z → y.packet = none ∨ y.packet ≠ z.packet) ∧
    (∀ a, may → own = [] → free → (128 ≤ far.length → far.head? = some a ∧ resumes a = true) →
      (far.length < 128 → far.find? resumes = some a) → ∃ t, exec (.rayTake die unit l.seq node) s = .next t ∧
        InFlight s t l node die (1 - die) unit [a] ∧ (t.launch l.seq).steals = l.steals + 1))
end Sys2Proof.Rule

/-- R436, R438 to R449, R451, R452: the ray units. The model's reading (DEDUCED, log entry 36): all four references of a node are checked when it is visited,
ERR replaces a hit, a drop that leaves 1 to 15 rays counts in SPLITS and a dissolved packet does not; a take has no packet over a resume record (log entry 77). -/
def Obligations.RayUnits : Prop :=
  RayRecords ∧ BoxTests ∧ TriangleTests ∧ Acceptance ∧ Visits ∧ RayTakes ∧ RayResults ∧ RayResumes

/-! ## Pre-emption and the fabric (files 03, 10, 11 and 17) -/

namespace Sys2Proof.Rule
/-- R277, R403: the waves of a context stop. A running one, with nothing pending and not in `bar.sync`, has STATE 2; a stopped wave keeps its record, and
one in a handler runs on; both are asked to stop when they would run again. -/
def Requests : Prop :=
  (∀ (c : Nat) (s : State), s.preempted c = true → Idle (.preemptRequest c) s) ∧
  (∀ (c : Nat) (s : State), s.preempted c = false → soundWaves s → ∃ t, exec (.preemptRequest c) s = .next t ∧
    t.preempts = s.preempts ++ [⟨c, [(s.die 0).watch.toNat, (s.die 1).watch.toNat]⟩] ∧
    t.launches = s.launches ∧ t.saved = s.saved ∧ t.shadows = s.shadows ∧ t.cdie = s.cdie ∧
    ((∀ r ∈ s.rasters, r.2.pass = none) → t.mem = s.mem ∧ t.rasters = s.rasters) ∧
    (∀ die core w, core < 99 → w < 64 →
      let k := waveKey die core w
      let v := s.wave k
      let mine := v.valid = true ∧ core < 96 ∧ v.ctxid = c ∧ (v.liveLanes ≠ 0 ∨ s.tailsOf (coreKey die core) w ≠ [])
      (¬ mine → t.wave k = v) ∧
      (mine → v.state ≠ 0 → v.state ≠ 3 ∨ v.pend = [] → t.wave k = { v with stopReq := true }) ∧
      (mine → v.state = 0 → v.pend = [] → v.main.sync = none →
        (t.wave k).state = 2 ∧ (t.wave k).cause = 0 ∧ (t.wave k).stopReq = true ∧ (t.wave k).div = v.div ∧ (t.wave k).regs = v.regs ∧
        (t.wave k).heldarr = v.heldarr ∧ (t.wave k).funel = v.funel ∧ (t.wave k).binds = v.binds ∧ (t.wave k).main.blk = none ∧
        ∀ d ∈ t.defer, ¬ (d.who.ck = coreKey die core ∧ d.who.wave = w))))

/-- R258, R259: a wave redirected to a handler: its divergence state parked with the replays that are due, one RUN entry of its live
lanes, and k0 to k7. -/
def Redirected (u w : Wave) (entry area kind count : Nat) : Prop :=
  w.state = 3 ∧ w.parked = some { u.div with redo := u.redo } ∧ w.redo = [] ∧ w.div = { stack := [runE (.ofNat 57 entry) 0 (liveMask u.div.stack)] } ∧
  (∀ l < 32, w.raw 420 l = .ofNat 32 area ∧ w.raw 421 l = .ofNat 32 (area / 2 ^ 32) ∧ w.raw 422 l = .ofNat 32 kind ∧
    w.raw 423 l = .ofNat 32 count ∧ w.raw 424 l = 0 ∧ w.raw 425 l = 0 ∧ w.raw 426 l = 0 ∧ w.raw 427 l = 0) ∧
  (∀ r l, l < 32 → r < 420 ∨ 428 ≤ r → w.raw r l = u.raw r l) ∧
  { w with state := 0, cause := 0, number := 0, async := false, redo := [], parked := none, div := {}, regs := [], aff32 := [], aff64 := [] } =
    { u with state := 0, cause := 0, number := 0, async := false, redo := [], parked := none, div := {}, regs := [], aff32 := [], aff64 := [] }

/-- R258, R277, R278: a wave that pre-emption stopped runs its save handler once its stores have drained, with what it stored
performed; one whose main context has ended has no lane for it and stays (log entry 70). 20 µs after the request a wave that
cannot is killed under its fault domain. -/
def Redirects : Prop :=
  ∀ (die core wave : Nat) (s : State), core < 99 → wave < 64 →
    let k := waveKey die core wave
    let w := s.wave k
    let l := s.launch (w.funel.launch.getD 0)
    let stopped := w.valid = true ∧ core < 96 ∧ w.state = 2 ∧ s.preempted w.ctxid = true
    let drained := s.storesDrained (coreKey die core) wave = true
    let area := (l.savebase + l.savesz * (64 * (96 * die + core) + wave)) % 2 ^ 57
    let late := ∃ p, s.preempts.find? (fun p => decide (p.ctxid = w.ctxid)) = some p ∧
      2000 ≤ ((s.die die).watch.toNat + 2 ^ 64 - p.since.getD die 0) % 2 ^ 64
    let u := s.publishWave ⟨die, core, wave, 63⟩
    let dies := fun (d : KillDom) => exec (.redirectTimeout die core wave) s = .next (s.kill d 0 0)
    (¬ (stopped ∧ drained ∧ w.liveLanes ≠ 0) → Idle (.preemptRedirect die core wave) s) ∧
    (w.late = [] → u = s) ∧
    (stopped → drained → w.liveLanes ≠ 0 → ∃ t, exec (.preemptRedirect die core wave) s = .next t ∧ OnlyWave k u t ∧
      Redirected (u.wave k) (t.wave k) l.saveh area 1 ((s.core (coreKey die core)).group w.gid).waves.length) ∧
    (¬ stopped ∨ drained ∨ ¬ late → Idle (.redirectTimeout die core wave) s) ∧
    (stopped → ¬ drained → late →
      ((l.node w.funel.node).rcb.fdom = 0 → dies (.wave die core wave)) ∧ ((l.node w.funel.node).rcb.fdom = 1 → dies (.launch l.seq)) ∧
      (2 ≤ (l.node w.funel.node).rcb.fdom → dies (.context w.ctxid)))

/-- R279, R403: once nothing of the context is still stopping, it runs again (a wave that stayed stopped in its slot with its contexts settled,
R87), and a listed group is placed whole, each of its waves in its restore
handler with its save area; its reservations, batch and group stay its own. -/
def Restores : Prop :=
  (∀ (die launch gno : Nat) (s : State), s.launch? launch = none → Idle (.restorePlace die launch gno) s) ∧
  (∀ (die gno : Nat) (s : State) (l : Launch), s.launch? l.seq = some l → (∀ v ∈ s.saved, ¬ (v.launch = l.seq ∧ v.die = die ∧ v.gno = gno)) →
    (s.preempted l.ctxid = true → s.canResume l.ctxid = false → Idle (.restorePlace die l.seq gno) s) ∧
    (s.preempted l.ctxid = false → Idle (.restorePlace die l.seq gno) s) ∧
    (s.preempted l.ctxid = true → s.canResume l.ctxid = true → exec (.restorePlace die l.seq gno) s = .next (s.endPreempt l.ctxid))) ∧
  (∀ (die gno : Nat) (s : State) (l : Launch) (v : SavedWave), s.launch? l.seq = some l →
    s.saved.find? (fun v => decide (v.launch = l.seq) && decide (v.die = die) && decide (v.gno = gno)) = some v → (l.node v.funel.node).clu = 0 →
    let n := l.node v.funel.node
    let left := ∃ w ∈ s.wavesOf l.seq, w.2.funel.gno = gno
    let held := s.preempted l.ctxid = true ∧ s.canResume l.ctxid = false
    let s1 := if s.preempted l.ctxid then s.endPreempt l.ctxid else s
    let vs := s.listed l.seq gno
    let place := s1.pickCore l v.funel.node vs.length die (fun c => !s1.coreHeld n die c && s1.tailsFit die c vs)
    (held → Idle (.restorePlace die l.seq gno) s) ∧
    (¬ held → left → exec (.restorePlace die l.seq gno) s = .next s1) ∧
    (¬ left → ¬ held → place = none → exec (.restorePlace die l.seq gno) s = .next s1) ∧
    (∀ p : Spot, ¬ left → ¬ held → place = some p → ∃ t, exec (.restorePlace die l.seq gno) s = .next t ∧
      (∀ (i : Nat) (a : Nat × Nat) (u : SavedWave), p.waves[i]? = some a → vs[i]? = some u → ∃ w0 : Wave,
        w0.valid = true ∧ w0.n = n.rows ∧ w0.row = a.2 ∧ w0.gi = u.gi ∧ w0.ctxid = l.ctxid ∧
        w0.div = { stack := [runE (.ofNat 57 n.code) 0 (.ofNat 32 (2 ^ u.funel.batchn - 1))], can := u.funel.can } ∧
        w0.redo = u.funel.redo ∧ w0.table = u.funel.table ∧
        w0.funel = { u.funel with halted := false, tails := 0, redo := [], can := none, table := [] } ∧ w0.regs = [] ∧
        Redirected w0 (t.wave (coreKey die p.core * 64 + a.1)) l.resth u.area 2 vs.length) ∧
      t.saved = s.saved.filter (fun u => !(decide (u.launch = l.seq) && decide (u.gno = gno))) ∧ t.launches = s.launches ∧ t.mem = s.mem ∧
      t.preempts = s.preempts.filter (fun q => !(s.preempted l.ctxid && decide (q.ctxid = l.ctxid))))) ∧
  (∀ (s : State) (c : Nat), let t := s.endPreempt c
    let mine := fun k => (s.wave k).valid = true ∧ k / 64 % 99 < 96 ∧ (s.wave k).ctxid = c
    let again := fun k => mine k ∧ (s.wave k).state = 2 ∧ (s.wave k).liveLanes = 0
    let owner := fun j => j / 32 * 64 + (s.tail j).wave
    t.preempts = s.preempts.filter (fun p => p.ctxid ≠ c) ∧ t = { s with preempts := t.preempts, waves := t.waves, tails := t.tails } ∧
    (soundWaves s → (∀ k, ¬ mine k → t.wave k = s.wave k) ∧ (∀ k, mine k → ¬ again k → t.wave k = { s.wave k with stopReq := false }) ∧
      (∀ k, again k → (t.wave k).div.stack = settle (s.wave k).div.tmode (s.wave k).div.stack ∧
        { t.wave k with div := {} } = { s.wave k with div := {}, stopReq := false, state := 0 } ∧
        { (t.wave k).div with stack := [], live := [] } = { (s.wave k).div with stack := [], live := [] }) ∧
      ∀ j, { t.tail j with stack := [] } = { s.tail j with stack := [] } ∧
        ((s.tail j).valid = true → (s.tail j).wave < 64 → again (owner j) →
          (t.tail j).stack = settle (s.wave (owner j)).div.tmode (s.tail j).stack) ∧
        (¬ ((s.tail j).valid = true ∧ (s.tail j).wave < 64 ∧ again (owner j)) → (t.tail j).stack = (s.tail j).stack))) ∧
  (∀ (s : State) (l : Launch) (nd gno m nb : Nat) (p : Spot) (vs : List SavedWave), p.waves.length = vs.length → (p.waves.map Prod.fst).Nodup →
    let t := s.restoreGroup l nd gno m nb none p vs
    (∀ k, (∀ a ∈ p.waves, k ≠ coreKey p.die p.core * 64 + a.1) → t.wave k = s.wave k) ∧ ∀ k, k ≠ coreKey p.die p.core → t.core k = s.core k)

/-- R278: what a core is left with by a swap, and what it takes back. -/
def emptied (c : Core) : Core :=
  { c with scratch := [], prior := [], owner := [], queues := [], pushes := [], bars := [], held := [], groups := [], chans := [], mx := {} }

/-- R278, R281: a whole partition whose cores are halted goes into shadow storage, and comes back to the places that it had, each wave that
pre-emption had stopped with its contexts settled (R87) and not checked (log entry 81). An image of another generation is refused, and set in
RFAULT of the management core that serves its first core (log entry 83). -/
def ShadowSwaps : Prop :=
  (∀ (c : Nat) (s : State),
    let cores := s.partition c
    let n := fun (die : Nat) => (cores.filter (fun p => decide (p.1 = die))).length
    let banks := (s.takeBanks 0 16 ((n 0 * 1152 + 2047) / 2048) 3 0).bind (fun s => s.takeBanks 1 16 ((n 1 * 1152 + 2047) / 2048) 3 0)
    let may := cores ≠ [] ∧ s.preempted c = true ∧ (∀ l ∈ s.launches, l.ctxid ≠ c → ∀ p ∈ cores, l.cmask.testBit (96 * p.1 + p.2) = false) ∧
      (∀ h ∈ s.shadows, h.ctxid ≠ c) ∧ (∀ p ∈ cores, s.coreHalted c p.1 p.2 = true) ∧ banks.isSome = true
    (¬ may → Idle (.shadowSwap c) s) ∧
    (may → ∃ t h, exec (.shadowSwap c) s = .next t ∧ t.shadows = s.shadows ++ [h] ∧ h.gen = 3 ∧ h.ctxid = c ∧
      (∀ p ∈ cores, let ck := coreKey p.1 p.2
        (∀ w < 64, FMap.get {} h.waves (ck * 64 + w) = s.wave (ck * 64 + w) ∧ t.wave (ck * 64 + w) = {}) ∧
        (∀ j < 32, FMap.get {} h.tails (ck * 32 + j) = s.tail (ck * 32 + j) ∧ t.tail (ck * 32 + j) = {}) ∧
        FMap.get {} h.cores ck = s.core ck ∧ t.core ck = emptied (s.core ck)) ∧
      (∀ k, (∀ p ∈ cores, k / 64 ≠ coreKey p.1 p.2) → t.wave k = s.wave k) ∧ (∀ k, (∀ p ∈ cores, k / 32 ≠ coreKey p.1 p.2) → t.tail k = s.tail k) ∧
      (∀ k, (∀ p ∈ cores, k ≠ coreKey p.1 p.2) → t.core k = s.core k) ∧
      (∀ r, r ∈ t.regions ↔ r ∈ s.regions ∧ ∀ l ∈ s.launches, l.ctxid = c → l.seq ≠ r.launch) ∧
      (∀ r, r ∈ h.regions ↔ r ∈ s.regions ∧ ∃ l ∈ s.launches, l.ctxid = c ∧ l.seq = r.launch) ∧
      t.launches = s.launches ∧ t.mem = s.mem)) ∧
  (∀ (c : Nat) (s : State), (∀ h ∈ s.shadows, h.ctxid ≠ c) → Idle (.shadowRestore c) s) ∧
  (∀ (c : Nat) (s : State) (h : Shadow), s.shadows.find? (fun h => decide (h.ctxid = c)) = some h →
    let free := ∀ k ∈ h.cores.map Prod.fst, s.coreEmpty (k / 99) (k % 99) = true
    (¬ free → Idle (.shadowRestore c) s) ∧
    (∀ k ks, free → h.gen ≠ 3 → h.cores.map Prod.fst = k :: ks → ∃ t, exec (.shadowRestore c) s = .next t ∧
      (t.core (mgmtOf (k / 99) (k % 99))).rfault = .ofNat 64 (2 ^ 63 + h.gen % 2 ^ 16 * 2 ^ 32 + c % 2 ^ 16 * 2 ^ 16) ∧
      OnlyCore (mgmtOf (k / 99) (k % 99)) s t ∧ t.shadows = s.shadows) ∧
    (free → h.gen = 3 → s.waves.sorted = true → (h.waves.map Prod.fst).Nodup → (h.tails.map Prod.fst).Nodup → (h.cores.map Prod.fst).Nodup →
      ∃ t, exec (.shadowRestore c) s = .next t ∧ t.shadows = s.shadows.erase h ∧ t.preempts = s.preempts.filter (fun p => p.ctxid ≠ c) ∧
        t.regions = s.regions ++ h.regions ∧ t.launches = s.launches ∧ t.mem = s.mem ∧
        (∀ p ∈ h.waves, p.2.valid = true → p.2.state ≠ 2 → t.wave p.1 = { p.2 with stopReq := false, lastIssue := 0 }) ∧
        (∀ p ∈ h.waves, p.2.valid = true → p.2.state = 2 → (t.wave p.1).div.stack = settle p.2.div.tmode p.2.div.stack ∧
          { t.wave p.1 with div := {} } = { p.2 with div := {}, state := if p.2.parked = none then 0 else 3, stopReq := false, lastIssue := 0 } ∧
          { (t.wave p.1).div with stack := [], live := [] } = { p.2.div with stack := [], live := [] }) ∧
        (∀ k, k ∉ h.waves.map Prod.fst →
          { t.wave k with stopReq := false, state := 0, div := {} } = { s.wave k with stopReq := false, state := 0, div := {} }) ∧
        (∀ p ∈ h.tails, { t.tail p.1 with stack := [] } = { p.2 with stack := [] } ∧
          (∀ q ∈ h.waves, q.2.valid = true → q.2.state = 2 → p.2.valid = true → p.2.wave < 64 → q.1 = p.1 / 32 * 64 + p.2.wave →
            (t.tail p.1).stack = settle q.2.div.tmode p.2.stack) ∧
          ((∀ q ∈ h.waves, q.1 = p.1 / 32 * 64 + p.2.wave → q.2.state ≠ 2) →
            (∀ q ∈ s.waves, q.1 / 64 ≠ p.1 / 32 ∨ q.2.state ≠ 2) → (t.tail p.1).stack = p.2.stack)) ∧
        (∀ k, k ∉ h.tails.map Prod.fst → { t.tail k with stack := [] } = { s.tail k with stack := [] }) ∧
        (∀ p ∈ h.cores, let d := t.core p.1
          d.regg = p.2.regg ∧ d.scrg = p.2.scrg ∧ d.l1g = p.2.l1g ∧ d.scratch = p.2.scratch ∧ d.prior = p.2.prior ∧ d.owner = p.2.owner ∧ d.queues = p.2.queues ∧
          d.pushes = p.2.pushes ∧ d.bars = p.2.bars ∧ d.held = p.2.held ∧ d.groups = p.2.groups ∧ d.mx = p.2.mx ∧ d.chans = p.2.chans) ∧
        (∀ k, k ∉ h.cores.map Prod.fst → t.core k = s.core k)))
end Sys2Proof.Rule

/-- R258, R259, R277 to R281, R403: pre-emption by software and by the shadow swap, and the ways back. The model's reading (DEDUCED): k0 to k7 are written in
all 32 lanes, k3 counts the waves that have not ended, and when a context may resume (log entry 38); the banks of an image (log entry 39); a main context that
has ended (log entry 70); a wave that runs again is settled and not checked (log entry 81); the RFAULT of a refused image (log entry 83). -/
def Obligations.Preemption : Prop := Requests ∧ Redirects ∧ Restores ∧ ShadowSwaps

namespace Sys2Proof.Rule
/-- Only die k changes; only its Lehr. -/
def OnlyDie (k : Nat) (s t : State) : Prop := t = { s with dies := t.dies } ∧ ∀ j, j ≠ k → t.die j = s.die j
def OnlyLehr (k : Nat) (s t : State) : Prop := t = { s with lehrs := t.lehrs } ∧ ∀ j, j ≠ k → t.lehr j = s.lehr j

/-- A virtual die is powered: die 0 from stage 2 on, die 1 in stage 3 (R464, R465, R472); Gaffer reaches it once it runs (R461). -/
def isPowered (s : State) (die : Nat) : Prop := (die = 0 ∧ 2 ≤ s.cdie.stage) ∨ (die = 1 ∧ 3 ≤ s.cdie.stage)
def gafferReaches (s : State) (die : Nat) : Prop := s.cdie.verified = true ∧ isPowered s die

/-- R275, R276, R362, R365, R461, R465: the fault buffer's flush and base, the time-out, and a die's clock. -/
def DieRegisters : Prop :=
  (∀ (die : Nat) (s : State), ∃ t, exec (.fbFlush die) s = .next t ∧ OnlyDie die s t ∧
    t.die die = { s.die die with fbhead := (s.die die).fbtail, fbgen := (s.die die).fbgen + 1 }) ∧
  (∀ (die : Nat) (v : Dword) (w : Word) (s : State), ¬ gafferReaches s die → Idle (.fbbaseWrite die v) s ∧ Idle (.xtmoWrite die w) s) ∧
  (∀ (die : Nat) (v : Dword) (s : State), gafferReaches s die → ∃ t, exec (.fbbaseWrite die v) s = .next t ∧ OnlyDie die s t ∧
    t.die die = if (s.die die).fbhead = (s.die die).fbtail then { s.die die with fbbase := v &&& 0x0000FFFFFFFFC001#64 } else s.die die) ∧
  (∀ (die : Nat) (v : Word) (s : State), gafferReaches s die → ∃ t, exec (.xtmoWrite die v) s = .next t ∧ OnlyLehr die s t ∧
    t.lehr die = { s.lehr die with tmo := if v.toNat % 2 ^ 16 = 0 then 1 else v.setWidth 16 }) ∧
  (∀ (die : Nat) (s : State), (s.dieBusy die = true → Idle (.stoppedClockEntry die) s) ∧
    (s.dieBusy die = false → ∃ t, exec (.stoppedClockEntry die) s = .next t ∧ OnlyLehr die s t ∧ t.lehr die = { s.lehr die with stopped := true }))

/-- R357, R461, R472: Gaffer, once it runs, migrates a page of powered memory, which it copies whole at the opening (log entry 23). From its opening the old home performs every access to the page, by either address, and forwards each write to the new
copy; from its closing on the new home does, tags and translations with it. A page with a cell or a waiting request does not migrate. -/
def Migrations : Prop :=
  (∀ (old new size : Nat) (s : State),
    let free := fun (a n : Nat) => (∀ p ∈ s.cells, p.2 ≠ none → 4 * p.1 < a ∨ a + n ≤ 4 * p.1) ∧ (∀ d ∈ s.defer, d.copy = none → d.addr < a ∨ a + n ≤ d.addr)
    let live := fun (a : Nat) => 2 ≤ s.cdie.stage ∨ 2 ^ 47 ≤ a
    let may := s.cdie.verified = true ∧ live old ∧ live new ∧ 0 < size ∧ s.memOk old size = true ∧ s.memOk new size = true ∧ (old + size ≤ new ∨ new + size ≤ old) ∧
      free old size ∧ (∀ g ∈ s.migs, ∀ a ∈ [old, new], ∀ b ∈ [g.old, g.new], a + size ≤ b ∨ b + g.size ≤ a)
    (¬ may → Idle (.migrationOpen old new size) s) ∧
    (may → ∃ t, exec (.migrationOpen old new size) s = .next t ∧ t.migs = s.migs ++ [⟨old, new, size⟩] ∧
      t = { s with mem := t.mem, migs := t.migs } ∧
      ∀ a, t.byte a = if new ≤ a ∧ a < new + size then s.byte (old + (a - new)) else s.byte a)) ∧
  (∀ (s : State) (g : Migration) (pa : Nat) (b : Byte), s.migs = [g] → g.old + g.size ≤ g.new ∨ g.new + g.size ≤ g.old → s.cells = [] →
    g.old ≤ pa → pa < g.old + g.size → let t := s.writePhys pa [b]
    s.writePhys (g.new + (pa - g.old)) [b] = t ∧ t.byte pa = b ∧ t.byte (g.new + (pa - g.old)) = b ∧
      (FMap.get memDefault t.mem (g.new + (pa - g.old))) = b ∧ ∀ a, a ≠ pa → a ≠ g.new + (pa - g.old) → t.byte a = s.byte a) ∧
  (∀ (old : Nat) (s : State), (∀ g ∈ s.migs, g.old ≠ old) → Idle (.migrationClose old) s) ∧
  (∀ (old : Nat) (s : State) (g : Migration), s.migs.find? (fun g => decide (g.old = old)) = some g →
    let moved := fun (pa : Nat) => if g.old ≤ pa ∧ pa < g.old + g.size then g.new + (pa - g.old) else pa
    let isIn := fun (a w : Nat) => a / 8 ≤ w ∧ w < a / 8 + g.size / 8
    (s.pageBusy g.old g.size = true → Idle (.migrationClose old) s) ∧ (s.pageBusy g.old g.size = false →
    ∃ t, exec (.migrationClose old) s = .next t ∧ t.migs = s.migs.erase g ∧ t.mem = s.mem ∧
      (∀ w, FMap.get false t.empties w = if isIn g.new w then FMap.get false s.empties (g.old / 8 + (w - g.new / 8))
        else if isIn g.old w then false else FMap.get false s.empties w) ∧
      (∀ k, { t.wave k with late := [] } = { s.wave k with late := [] } ∧ (t.wave k).late = (s.wave k).late.map (fun e =>
        match e.place with | .phys pa => { e with place := .phys (moved pa) } | _ => e)) ∧
      (∀ k, (t.core k).tlb = (s.core k).tlb.map (fun e =>
        if g.old ≤ e.pa ∧ e.pa < g.old + g.size then { e with pa := g.new + (e.pa - g.old) } else e)) ∧
      (∀ k, { t.core k with tlb := [], chans := [] } = { s.core k with tlb := [], chans := [] }) ∧
      t = { s with empties := t.empties, migs := t.migs, cores := t.cores, waves := t.waves, shadows := t.shadows }))

/-- R216, R365: a cross-die access, copy line or `done` that is not answered in time; a carved line that the access was to fill stays ABSENT; TMO counts microseconds of 100 ticks. -/
def Timeouts : Prop :=
  (∀ (die core w acc : Nat) (s : State), let k := waveKey die core w
    (∀ a, (s.wave k).accs.find? (fun a => decide (a.id = acc)) = some a →
      a.xdie = 0 ∨ ((s.die die).watch.toNat + 2 ^ 64 - a.born) % 2 ^ 64 < 100 * (s.lehr die).tmo.toNat) →
    Idle (.xdieTimeout (.access die core w acc)) s) ∧
  (∀ (die core w acc : Nat) (s : State) (a : Access), let k := waveKey die core w
    let x : Sel := ⟨die, core, w, a.ctx⟩
    let c := if a.load then Cnt.ld else .st
    (s.wave k).accs.find? (fun a => decide (a.id = acc)) = some a → a.xdie ≠ 0 →
    100 * (s.lehr die).tmo.toNat ≤ ((s.die die).watch.toNat + 2 ^ 64 - a.born) % 2 ^ 64 →
    ∃ t, exec (.xdieTimeout (.access die core w acc)) s = .next t ∧ t.count x c = s.count x c - 1 ∧
      (t.wave k).accs.map Access.id = ((s.wave k).accs.map Access.id).filter (fun i => i ≠ acc) ∧
      (t.wave k).pend = (s.wave k).pend ++ [{ ctx := a.ctx, cause := 0x11, lanes := some a.xdie }] ∧
      (∀ r l, l < 32 → a.xdie.getLsbD l = true → (t.wave k).raw r l = (s.wave k).raw r l) ∧
      (∀ r l, l < 32 → a.xdie.getLsbD l = false → (s.wave k).late = [] →
        (t.wave k).raw r l = ((a.writes.reverse.find? (fun p => p.1 == regKey r l)).map Prod.snd).getD ((s.wave k).raw r l)) ∧
      (∀ e ∈ (t.wave k).late, ¬ (e.acc = acc ∧ a.xdie.getLsbD e.lane = true)) ∧
      ((∀ e ∈ (s.wave k).late, e.acc = acc ∧ a.xdie.getLsbD e.lane = true) → t.mem = s.mem ∧ t.cores = s.cores) ∧
      ((s.wave k).late = [] → ∀ ri key c, (s.region ri).lines.sorted = true → (s.region ri).lines.find? key = some c →
        let r := s.region ri
        let filled := c.born = a.at_ ∧ c.dirty = 0 ∧ c.empty = 0 ∧ r.fill = true ∧ r.die = die ∧ some r.launch = (s.agent x).launch ∧
          ∃ pa, s.home (s.agent x) (r.vbase + 64 * key) 64 .rd = .at_ (.phys pa) ∧ s.crosses die pa = true
        (filled → (t.region ri).lines.find? key = none) ∧ (¬ filled → (t.region ri).lines.find? key = some c)) ∧
      (∀ j, j ≠ k → t.wave j = s.wave j)) ∧
  (∀ (die core ch : Nat) (s : State), (∀ k r, (s.chan (coreKey die core) ch).queue = k :: r → ¬ (k.read = true ∧ k.started = true ∧ k.dropped = false) ∨
      s.lineCrosses die core k = none ∨ ((s.die die).watch.toNat + 2 ^ 64 - k.born) % 2 ^ 64 < 100 * (s.lehr die).tmo.toNat) →
    Idle (.xdieTimeout (.copy die core ch)) s) ∧
  (∀ (die core ch va : Nat) (s : State) (k : CopyCmd) r, (s.chan (coreKey die core) ch).queue = k :: r → k.read = true → k.started = true →
    k.dropped = false → s.lineCrosses die core k = some va →
    100 * (s.lehr die).tmo.toNat ≤ ((s.die die).watch.toNat + 2 ^ 64 - k.born) % 2 ^ 64 →
    ∃ t, exec (.xdieTimeout (.copy die core ch)) s = .next t ∧ (t.chan (coreKey die core) ch).queue = r ∧
      ((s.wave (waveKey die core k.wave)).div.stack ≠ [] → (t.wave (waveKey die core k.wave)).pend =
        (s.wave (waveKey die core k.wave)).pend ++ [{ ctx := 63, cause := 0x0F, addr := va }]) ∧
      (t.wave (waveKey die core k.wave)).cp = (s.wave (waveKey die core k.wave)).cp - 1 ∧
      (t.wave (waveKey die core k.wave)).cperr = .ofNat 32 (2 ^ 31 + ch * 2 ^ 29 + 2 * 2 ^ 20) ∧ t.mem = s.mem) ∧
  (∀ (die core bar : Nat) (s : State), (∀ n r, (s.bar (coreKey die core) bar).sent = n :: r →
      ((s.die die).watch.toNat + 2 ^ 64 - n) % 2 ^ 64 < 100 * (s.lehr die).tmo.toNat) → Idle (.xdieTimeout (.done die core bar)) s) ∧
  (∀ (die core bar n : Nat) (s : State) r, (s.bar (coreKey die core) bar).sent = n :: r →
    100 * (s.lehr die).tmo.toNat ≤ ((s.die die).watch.toNat + 2 ^ 64 - n) % 2 ^ 64 →
    ∃ u t, exec (.xdieTimeout (.done die core bar)) s = .next t ∧
      (exec (.barrierDoneMsg die core bar) s = .next u ∨ u = s.setBar (coreKey die core) bar { s.bar (coreKey die core) bar with sent := r }) ∧
      (soundWaves u → ∀ c w, c < 99 → w < 64 → let k := waveKey die c w
        let v := u.wave k
        let blocked := v.valid = true ∧ v.main.onBar = some (256 * coreKey die core + bar)
        (blocked → (t.wave k).state = 1 ∧ (t.wave k).cause = 0x11 ∧ (t.wave k).faultmask = v.main.barMask ∧ (t.wave k).effmask = 0 ∧
          (t.wave k).faultpc = (v.div.stack.headD {}).pc ∧ (t.wave k).async = false ∧ (t.wave k).posted = false ∧ (t.wave k).regs = v.regs ∧
          (t.wave k).div = v.div) ∧
        (¬ blocked → t.wave k = v)))

/-- R348, R359: a bank as it becomes HOT: it takes the role that it waits for; a free one is COLD, and so is one woken to be cleaned. -/
def arrived (k : Bank) (now : Nat) : Bank :=
  match k.next with
  | some (role, owner) => if role = 0 then { entered := now } else { state := 0, role := role, owner := owner, entered := now, used := now }
  | none => if k.role = 0 then { entered := now }
    else { state := if k.clean then 2 else 0, role := k.role, owner := k.owner, entered := now, used := now }

/-- Other banks and other counter sets are as before. -/
def LehrFrame (b c : Nat) (h u : Lehr) : Prop :=
  (∀ j, j ≠ b → u.bank j = h.bank j) ∧ (∀ d, d ≠ c → u.cntSet d = h.cntSet d) ∧
  { u with banks := [], sets := [], orders := 0 } = { h with banks := [], sets := [], orders := 0 }

/-- R360, R363: a wake request for a bank: one that is HOT, waking or requested needs none, and a slice has at most two outstanding,
the Lehr at most eight of its own; an entry of less than 20 ns is aborted; else the request is eligible at the end of the hold. -/
def Asked (h u : Lehr) (now b set : Nat) (bg clean : Bool) : Prop :=
  let k := h.bank b
  let ago := (now + 2 ^ 64 - k.entered) % 2 ^ 64
  let refused := k.state = 0 ∨ k.state = 3 ∨ k.req ≠ none ∨ (if bg then 8 else 2) ≤ h.outstanding bg (b / 16)
  let hold := (if k.state = 1 then 20 else 200) - ago
  (refused → u = h) ∧
  (¬ refused → ago < 2 → LehrFrame b set h u ∧ u.bank b = { arrived k now with clean := false } ∧
    u.cntSet set = { h.cntSet set with aborts := (h.cntSet set).aborts + 1 }) ∧
  (¬ refused → 2 ≤ ago → LehrFrame b set h u ∧ u.orders = h.orders + 1 ∧
    u.bank b = { k with req := some ⟨now, now + hold, h.orders, set, bg⟩, clean := clean } ∧
    u.cntSet set = { h.cntSet set with holdt := (h.cntSet set).holdt + .ofNat 64 hold })

/-- R363: the counter set of the launch whose agent made the access. -/
def setOf (s : State) (die : Nat) (who : WakeReq) : Nat :=
  let of := fun (q : Nat) => (s.launch q).lset.getD die 0
  match who with
  | .wave d core w => match (s.wave (waveKey d core w)).funel.launch with | some q => of q | none => 0
  | .unit q => of q

/-- R348, R359: banks that go WARM and banks that are to be cleaned; H(n) banks of a slice stay HOT (R361). -/
def BankStates : Prop :=
  (∀ n, hotBanks n = if n < 7 then [1, 2, 4, 6, 8, 10, 12].getD n 0 else 16) ∧
  (∀ (die b : Nat) (s : State), let h := s.lehr die
    let newer := fun (c : Nat) => (h.bank b).used < (h.bank c).used ∨ ((h.bank c).used = (h.bank b).used ∧ c < b)
    (s.keptHot die b = true ↔ (h.bank b).role = 1 ∧ ((List.range 16).filter (fun i => let c := 16 * (b / 16) + i
      decide ((h.bank c).role = 1 ∧ (h.bank c).state = 0 ∧ newer c))).length < hotBanks (s.phaseOf die))) ∧
  (∀ (die b : Nat) (s : State), let h := s.lehr die
    let k := h.bank b
    let now := (s.die die).watch.toNat
    let ago := fun (t : Nat) => (now + 2 ^ 64 - t) % 2 ^ 64
    let pinned := s.cdie.stage = 2 ∧ b % 16 < 8
    let warms := isPowered s die ∧ k.state = 0 ∧ k.role ≠ 0 ∧ k.next = none ∧ ¬ pinned ∧ h.dwellw ≠ 0 ∧ h.dwellw.toNat ≤ ago k.used ∧ s.keptHot die b = false
    let cleans := isPowered s die ∧ k.state = 1 ∧ k.role = 1 ∧ k.req = none ∧ k.next = none ∧ h.dwellc ≠ 0 ∧ h.dwellc.toNat ≤ ago k.entered
    (¬ warms → Idle (.bankToWarm die b) s) ∧
    (warms → ∃ t, exec (.bankToWarm die b) s = .next t ∧ OnlyLehr die s t ∧ LehrFrame b 0 h (t.lehr die) ∧
      (t.lehr die).bank b = { k with state := 1, entered := now } ∧ (t.lehr die).sets = h.sets) ∧
    (¬ cleans → Idle (.bankCleanCold die b) s) ∧
    (cleans → ∃ t, exec (.bankCleanCold die b) s = .next t ∧ OnlyLehr die s t ∧ Asked h (t.lehr die) now b 0 true true))

/-- R360, R361, R363: an access that reaches a bank, and the Lehr's own requests. -/
def WakeRequests : Prop :=
  (∀ (h : Lehr) (now b set : Nat) (bg clean : Bool), Asked h (h.ask now b set bg clean) now b set bg clean) ∧
  (∀ (die b : Nat) (who : WakeReq) (bg : Bool) (s : State), ¬ isPowered s die → Idle (.wakeRequest die b who bg) s ∧ Idle (.wakeWindow die) s) ∧
  (∀ (die b : Nat) (who : WakeReq) (bg : Bool) (s : State), isPowered s die → let h := s.lehr die
    let k := h.bank b
    let now := (s.die die).watch.toNat
    let set := setOf s die who
    let free := k.role = 0 ∧ k.next = none ∧ ¬ (s.cdie.stage = 2 ∧ b % 16 < 8)
    let full := 2 ≤ h.outstanding false (b / 16) ∨ ∃ p ∈ h.waits, p.1 / 16 = b / 16
    ∃ t, exec (.wakeRequest die b who bg) s = .next t ∧ OnlyLehr die s t ∧ let u := t.lehr die
      (bg = true → k.role = 0 → ¬ free → u = h) ∧
      (bg = true → k.role = 0 → free → Asked (h.setBank b { k with next := some (1, 0) }) u now b 0 true false) ∧
      (bg = true → k.role ≠ 0 → Asked h u now b 0 true false) ∧
      (bg = false → k.role = 0 ∨ (k.role ≠ 0 ∧ (k.state = 3 ∨ (k.state ≠ 0 ∧ k.req ≠ none))) → u = h) ∧
      (bg = false → k.role ≠ 0 → k.state = 0 → LehrFrame b 0 h u ∧ u.bank b = { k with used := now } ∧ u.sets = h.sets) ∧
      (bg = false → k.role ≠ 0 → k.state ≠ 0 → k.state ≠ 3 → k.req = none → full →
        u = { h with waits := if ∃ p ∈ h.waits, p.1 = b then h.waits else h.waits ++ [(b, set)] }) ∧
      (bg = false → k.role ≠ 0 → k.state ≠ 0 → k.state ≠ 3 → k.req = none → ¬ full → Asked h u now b set false false)) ∧
  (∀ (die b : Nat) (s : State), let h := s.lehr die
    let k := h.bank b
    let cold := fun (c : Nat) => (h.bank c).role = 1 ∧ (h.bank c).req = none ∧ ((h.bank c).state = 1 ∨ (h.bank c).state = 2)
    let hot := fun (c : Nat) => (h.bank c).role = 1 ∧ ((h.bank c).state = 0 ∨ (h.bank c).state = 3 ∨ ((h.bank c).req ≠ none ∧ (h.bank c).clean = false))
    let newer := fun (c : Nat) => k.used < (h.bank c).used ∨ ((h.bank c).used = k.used ∧ c < b)
    (h.banks.map Prod.fst).Nodup → (k.next ≠ none → b ∈ s.backgroundWakes die) ∧ (k.next = none → (b ∈ s.backgroundWakes die ↔
      cold b ∧ ((List.range 16).filter (fun i => let c := 16 * (b / 16) + i
        decide (hot c ∨ (cold c ∧ newer c)))).length < hotBanks (s.phaseOf die))))

/-- R360's requests that may start now, in order of arrival. -/
def mayWake (h : Lehr) (now : Nat) (b : Nat) : Prop := ∃ r, (h.bank b).req = some r ∧ (h.bank b).wakes = none ∧ r.eligible ≤ now

/-- R360: the wakes of a window of 100 ns, and a bank that becomes HOT; the next bank of its slice whose access waits then makes its
request. -/
def Wakes : Prop :=
  (∀ (die : Nat) (s : State), isPowered s die → let now := (s.die die).watch.toNat
    let h := (s.backgroundWakes die).foldl (fun h b => h.ask now b 0 true false) (s.lehr die)
    (h.banks.map Prod.fst).Nodup →
    let used := if h.window = now / 10 then h.starts else 0
    ∃ t, exec (.wakeWindow die) s = .next t ∧ OnlyLehr die s t ∧ (t.lehr die).window = now / 10 ∧ (t.lehr die).waits = h.waits ∧
      ((t.lehr die).starts = used ∨ (t.lehr die).starts ≤ 8) ∧ used ≤ (t.lehr die).starts ∧
      (∀ b, ¬ mayWake h now b → (t.lehr die).bank b = h.bank b) ∧
      (∀ b r, mayWake h now b → (h.bank b).req = some r → (t.lehr die).bank b = h.bank b ∨
        (t.lehr die).bank b = { h.bank b with state := 3, wakes := some (max r.eligible (10 * (now / 10)), (h.bank b).state) }) ∧
      (∀ b r b' r', mayWake h now b → mayWake h now b' → (h.bank b).req = some r → (h.bank b').req = some r' → r.order < r'.order →
        (t.lehr die).bank b' ≠ h.bank b' → (t.lehr die).bank b ≠ h.bank b) ∧
      (∀ b, mayWake h now b → (t.lehr die).bank b = h.bank b → 8 ≤ (t.lehr die).starts)) ∧
  (∀ (die b : Nat) (s : State), let h := s.lehr die
    let k := h.bank b
    let now := (s.die die).watch.toNat
    let ends := fun (t0 from_ : Nat) (r : Wake) => isPowered s die ∧ k.state = 3 ∧ k.wakes = some (t0, from_) ∧ k.req = some r ∧ t0 + (if from_ = 1 then 6 else 40) ≤ now
    ((∀ t0 from_ r, ¬ ends t0 from_ r) → Idle (.bankHot die b) s) ∧
    (∀ t0 from_ r, ends t0 from_ r → ∃ t u, exec (.bankHot die b) s = .next t ∧ OnlyLehr die s t ∧ LehrFrame b r.set h u ∧
      u.bank b = arrived k now ∧
      u.cntSet r.set = (if from_ = 1 then { h.cntSet r.set with wakew := (h.cntSet r.set).wakew + 1 }
        else { h.cntSet r.set with wakec := (h.cntSet r.set).wakec + 1 }) ∧
      let first := u.waits.find? (fun p => decide (p.1 / 16 = b / 16))
      (first = none ∨ 2 ≤ u.outstanding false (b / 16) → t.lehr die = u) ∧
      (∀ p, first = some p → u.outstanding false (b / 16) < 2 → Asked { u with waits := u.waits.erase p } (t.lehr die) now p.1 p.2 false false)))

/-- R359 to R361, R363: the banks of a die. Which bank holds a line is left open, so the event names it (log entry 72). -/
def Banks : Prop := BankStates ∧ WakeRequests ∧ Wakes

/-- The class that a request is served as (R25). -/
def servedAs (cycles : Nat) (w : Waiting) : Nat := if 3 < w.cls ∧ 4096 ≤ cycles - w.born then 3 else w.cls

/-- R24, R27: the request that a grant goes to among those that wait here, and the burst in progress after it: the slot reserved for
class 2 every 128 cycles of a GDDR-7 channel (points 0 to 63), a class 0 request, the burst of two transfers that is in progress, or the
oldest request of the lowest class. -/
def Grants (a : Arb) (here : List Waiting) (pt : Nat) (w : Waiting) (b : Option (Nat × Nat)) : Prop :=
  let first := w ∈ here ∧ ∀ v ∈ here, servedAs a.cycles w < servedAs a.cycles v ∨ (servedAs a.cycles w = servedAs a.cycles v ∧ w.id ≤ v.id)
  let slot := pt < 64 ∧ a.cycles % 128 = 127
  let of := fun (c : Nat) => here.find? (fun (v : Waiting) => v.cls == c)
  (slot ∧ (of 2 = some w ∨ (of 2 = none ∧ first)) ∧ b = (if a.burst.map Prod.fst = some w.id then none else a.burst)) ∨
  (¬ slot ∧ of 0 = some w ∧ b = a.burst) ∨
  (¬ slot ∧ of 0 = none ∧ ∃ k, a.burst = some (w.id, k) ∧ here.find? (fun v => decide (v.id = w.id)) = some w ∧
    b = (if k ≤ 1 then none else some (w.id, k - 1))) ∨
  (¬ slot ∧ of 0 = none ∧ (∀ q k, a.burst = some (q, k) → ∀ v ∈ here, v.id ≠ q) ∧ first ∧ b = (if 2 ≤ w.transfers then some (w.id, 1) else none))

/-- R23 to R25, R27: an arbitration point. -/
def Arbitration : Prop :=
  (∀ (s : State), s.causeClass .firmware = 0 ∧ s.causeClass .service = 1 ∧ s.causeClass .display = 2 ∧ s.causeClass .background = 5 ∧
    (∀ die core w, s.causeClass (.wave die core w) = s.classOf core (s.wave (waveKey die core w))) ∧
    (∀ q, s.causeClass (.unit q) = ((s.launch q).path.getLastD {}).cls) ∧
    (∀ die core ch k r, (s.chan (coreKey die core) ch).queue = k :: r →
      s.causeClass (.copy die core ch) = s.classOf core (s.wave (waveKey die core k.wave))) ∧
    (∀ die core m r, (s.core (coreKey die core)).mx.queue = m :: r →
      s.causeClass (.matrix die core) = s.classOf core (s.wave (waveKey die core m.wave))) ∧
    (∀ core v q, core < 96 → v.funel.launch = some q → s.classOf core v = ((s.launch q).node v.funel.node).rcb.cls) ∧
    (∀ core v, 96 ≤ core → s.classOf core v = 0)) ∧
  (∀ (pt : Nat) (arr : List ArbReq) (s : State), let a := s.arb pt
    let come := arr.filter (fun (r : ArbReq) => decide (0 < r.transfers))
    let here := a.waiting ++ ((List.range come.length).zip come).map (fun p =>
      (⟨a.nextId + p.1, s.causeClass p.2.cause, p.2.who, p.2.transfers, a.cycles⟩ : Waiting))
    ∃ t, exec (.arbGrant pt arr) s = .next t ∧ t = { s with arbs := t.arbs } ∧ (∀ j, j ≠ pt → t.arb j = s.arb j) ∧
      (t.arb pt).cycles = a.cycles + 1 ∧ (t.arb pt).nextId = a.nextId + come.length ∧
      (here = [] → (t.arb pt).granted = none ∧ (t.arb pt).waiting = [] ∧ (t.arb pt).burst = none) ∧
      (here ≠ [] → ∃ w, Grants a here pt w (t.arb pt).burst ∧ (t.arb pt).granted = some (w.who, w.cls) ∧
        (t.arb pt).waiting = here.filterMap (fun v => if v.id ≠ w.id then some v
          else if w.transfers ≤ 1 then none else some { v with transfers := v.transfers - 1 }))) ∧
  (∀ (pt : Nat) (s : State), let a := s.arb pt
    ∃ t, exec (.arbAgeing pt) s = .next t ∧ t = { s with arbs := t.arbs } ∧ (∀ j, j ≠ pt → t.arb j = s.arb j) ∧
      t.arb pt = { a with waiting := a.waiting.map (fun w => { w with cls := servedAs a.cycles w }) })
end Sys2Proof.Rule

/-- R24, R25, R27, R216, R275, R276, R357, R359 to R363, R365: the fabric of a die. The model's choices (DESIGN CHOICE and DEDUCED): the page is copied whole at
the opening (log entry 23); which access of those on its way times out, and what it leaves (log entry 25); the numbers of the arbitration points, the reserved
slots and the bounds of a burst (log entry 53); background requests, the banks kept HOT and the order of waits (log entry 54); which bank an access asks for
(log entry 72). -/
def Obligations.FabricEvents : Prop := DieRegisters ∧ Migrations ∧ Timeouts ∧ Banks ∧ Arbitration

/-! ## The command die (file 25) -/

namespace Sys2Proof.Rule
/-- Only the command die's registers change. -/
def OnlyCdie (s t : State) : Prop := t = { s with cdie := t.cdie }

/-- Only rail r changes. -/
def OnlyRail (r : Nat) (s t : State) : Prop :=
  t = { s with cdie := { s.cdie with rails := t.cdie.rails } } ∧ ∀ j, j ≠ r → t.cdie.rail j = s.cdie.rail j

/-- R461: Gaffer acts once boot has verified it, and Punty unless the boot has failed. -/
def acts (s : State) (ag : Agent) : Prop := ag = .host ∨ s.cdie.verified = true ∨ (ag = .punty ∧ s.cdie.fail = 0)

/-- R454: the host's writes to the power block count while HOSTPM is 1. -/
def heeds (s : State) (ag : Agent) : Prop := acts s ag ∧ (ag = .host → s.cdie.hostpm = true)

/-- R467: a VFT write that is refused. -/
def vftRefused (x : Rail) (e f v : Nat) : Prop :=
  x.fmax.toNat < f ∨ x.vmax < v ∨ (0 < e ∧ (f < x.fmhz (e - 1) ∨ v < x.vmv (e - 1))) ∨
    (e < 15 ∧ (x.fmhz (e + 1) < f ∨ x.vmv (e + 1) < v)) ∨ e = x.cur

/-- R466 to R469: writes to the rails' tables and selections, and to PMCTL. -/
def PowerWrites : Prop :=
  (∀ (ag : Agent) (r e : Nat) (v : Word) (s : State), ¬ heeds s ag ∨ 4 ≤ r ∨ 16 ≤ e → Idle (.vftWrite ag r e v) s) ∧
  (∀ (ag : Agent) (r e : Nat) (v : Word) (s : State), s.cdie.rails.length = 4 → heeds s ag → r < 4 → e < 16 →
    let x := s.cdie.rail r
    let f := v.toNat / 2 ^ 16
    let u := v.toNat % 2 ^ 12
    ∃ t, exec (.vftWrite ag r e v) s = .next t ∧ OnlyRail r s t ∧
      (vftRefused x e f u → t.cdie.rail r = { x with rej := true }) ∧
      (¬ vftRefused x e f u → t.cdie.rail r = { x with vft := (t.cdie.rail r).vft } ∧
        (t.cdie.rail r).fmhz e = f ∧ (t.cdie.rail r).vmv e = u ∧
        ∀ d, d ≠ e → (t.cdie.rail r).vftAt d = x.vftAt d)) ∧
  (∀ (ag : Agent) (r : Nat) (v : Word) (s : State), ¬ heeds s ag ∨ 4 ≤ r → Idle (.vfselWrite ag r v) s) ∧
  (∀ (ag : Agent) (r : Nat) (v : Word) (s : State), s.cdie.rails.length = 4 → heeds s ag → r < 4 →
    let x := s.cdie.rail r
    ∃ t, exec (.vfselWrite ag r v) s = .next t ∧ OnlyRail r s t ∧ t.cdie.rail r = { x with
      rej := if v.toNat / 2 ^ 31 = 1 then false else x.rej
      target := if s.cdie.stage = 2 then x.target else v.toNat % 16 }) ∧
  (∀ (r : Nat) (s : State), s.cdie.rails.length = 4 → r < 4 →
    let x := s.cdie.rail r
    ∃ t, exec (.railChangeDone r) s = .next t ∧ OnlyRail r s t ∧ t.cdie.rail r = { x with
      cur := if s.cdie.stage = 2 then 5 else min (min x.target x.ceil) x.pmcap }) ∧
  (∀ (ag : Agent) (v : Dword) (s : State), ¬ heeds s ag → Idle (.pmctlWrite ag v) s) ∧
  (∀ (ag : Agent) (v : Dword) (s : State), heeds s ag → exec (.pmctlWrite ag v) s = .next { s with cdie := { s.cdie with
    hostpm := if ag = .gaffer then v.getLsbD 63 else s.cdie.hostpm
    order := .ofNat 8 (v.toNat / 2 ^ 40)
    idram := .ofNat 8 (v.toNat / 2 ^ 32)
    wmaxc := if 12 < v.toNat / 2 ^ 24 % 16 then 12 else v.toNat / 2 ^ 24 % 16
    gmin := if v.toNat / 2 ^ 15 % 8 = 0 then 1 else if 4 < v.toNat / 2 ^ 15 % 8 then 4 else v.toNat / 2 ^ 15 % 8 } })

/-- R473: some sensor of a rail's layer passes the test. -/
def someSensor (c : Cdie) (r : Nat) (hot : Int → Bool) : Bool :=
  (List.range 2).any (fun p => (if r = 0 then List.range 8 else if r = 1 then (List.range 8).map (fun n => 8 + n) else List.range 16).any (fun n =>
    hot (c.sensor (32 * p + 16 * (if r < 2 then 1 else 0) + n)).toInt))

/-- R469: the rails in ORDER. -/
def inOrder (c : Cdie) : List Nat :=
  [c.order.toNat % 4, c.order.toNat / 4 % 4, c.order.toNat / 16 % 4, c.order.toNat / 64 % 4]

/-- R469, R470, R471: one microsecond of the power manager. -/
def PowerSteps : Prop :=
  ∀ (dram : Nat) (s : State), s.cdie.rails.length = 4 →
    let c := s.cdie
    let more := c.pkglim.toNat < c.pkgpwr.toNat
    let less := c.pkgpwr.toNat + 80 < c.pkglim.toNat
    let victim := (inOrder c).find? (fun r => decide (5 < (c.rail r).pmcap))
    let raised := (inOrder c).reverse.find? (fun r => decide ((c.rail r).pmcap < 15))
    let held := if less then min 100 (c.lowPkg + 1) else 0
    let light := if 10 * dram < 9 * c.idram.toNat then min 100 (c.lowDram + 1) else 0
    let after := fun (r : Nat) => if more ∧ victim = some r then (c.rail r).pmcap - 1
      else if ¬ more ∧ held = 100 ∧ raised = some r then (c.rail r).pmcap + 1 else (c.rail r).pmcap
    ∃ t, exec (.pmStep dram) s = .next t ∧ t = { s with cdie := { c with
        rails := t.cdie.rails, lowPkg := held, lowDram := light, wcode := t.cdie.wcode, gcur := t.cdie.gcur, down := t.cdie.down } } ∧
      (∀ r < 4, t.cdie.rail r = { c.rail r with pmcap := (t.cdie.rail r).pmcap }) ∧
      (∀ r < 4, someSensor c r (fun x => decide (c.tthr.toInt < x)) = false → (t.cdie.rail r).pmcap = after r) ∧
      (∀ r < 4, someSensor c r (fun x => decide (c.tthr.toInt < x)) = true →
        (t.cdie.rail r).pmcap = if 5 < after r then after r - 1 else after r) ∧
      t.cdie.wcode = (if c.idram.toNat < dram then (if c.wcode < c.wmaxc then c.wcode + 1 else c.wcode)
        else if light = 100 then c.wcode - 1 else c.wcode) ∧
      ((∃ r < 4, (t.cdie.rail r).pmcap < (t.cdie.rail r).target) →
        t.cdie.gcur = c.gcur ∨ (c.gmin < c.gcur ∧ t.cdie.gcur = c.gcur - 1)) ∧
      ((∀ r < 4, (t.cdie.rail r).target ≤ (t.cdie.rail r).pmcap) → t.cdie.gcur = if c.gcur < 4 then c.gcur + 1 else c.gcur) ∧
      t.cdie.down = if c.tripped = true ∧ c.stage = 1 then c.down + 1 else c.down

/-- R471: the wear accumulator and the boost ceiling of one rail. -/
def WearUpdates : Prop :=
  ∀ (r : Nat) (s : State), s.cdie.rails.length = 4 → r < 4 →
    let x := s.cdie.rail r
    let dark := s.cdie.off[0]? ≠ some false ∧ s.cdie.off[1]? ≠ some false
    let tw := if someSensor s.cdie r (fun k => decide (1600 ≤ k)) then 4 else if someSensor s.cdie r (fun k => decide (1360 ≤ k)) then 2 else 1
    ∃ t, exec (.wearUpdate r) s = .next t ∧ OnlyRail r s t ∧
      let y := t.cdie.rail r
      y = { x with wacc := y.wacc, ceil := y.ceil } ∧
      y.wacc = x.wacc + (if dark ∨ x.vmv x.cur ≤ 900 then 0 else .ofNat 64 ((x.vmv x.cur - 900) * tw)) ∧
      (x.wbud ≠ 0 → y.ceil = min x.maxe (15 - min 8 (8 * y.wacc.toNat / x.wbud.toNat))) ∧
      y.ceil ≤ x.maxe

/-- R28, R469, R473 to R476: samples and error counters. -/
def TelemetryEvents : Prop :=
  (∀ (m : Telemetry) (s : State), (m.ce.map Prod.fst).Nodup → (m.reads.map Prod.fst).Nodup →
      (m.writes.map Prod.fst).Nodup → (m.margins.map Prod.fst).Nodup → (m.sensors.map Prod.fst).Nodup →
    ∃ t, exec (.telemetrySample m) s = .next t ∧
      t = { s with cdie := { s.cdie with
        pkgpwr := .ofNat 16 m.pkg, pwr := t.cdie.pwr, sensors := t.cdie.sensors, margins := t.cdie.margins, ecc := t.cdie.ecc, gddr := t.cdie.gddr
        old := ⟨s.cdie.sensors, s.cdie.margins, s.cdie.pwr, s.cdie.pkgpwr⟩ } } ∧
      (∀ i < 4, t.cdie.pwr.toNat / 2 ^ (16 * i) % 2 ^ 16 = m.rails.getD i 0 % 2 ^ 16) ∧
      (∀ i, FMap.get 0 t.cdie.sensors i = ((FMap.find? m.sensors i).map (BitVec.ofNat 16)).getD (FMap.get 0 s.cdie.sensors i)) ∧
      (∀ i, let u := FMap.get {} s.cdie.margins i
        FMap.get {} t.cdie.margins i = ((FMap.find? m.margins i).map (fun n => (⟨.ofNat 16 n, .ofNat 16 (min (n % 2 ^ 16) u.min.toNat)⟩ : Margin))).getD u) ∧
      (∀ i, let u := FMap.get {} s.cdie.ecc i
        FMap.get {} t.cdie.ecc i = ⟨u.ce + .ofNat 32 (FMap.get 0 m.ce i), u.ue⟩) ∧
      ∀ i, let u := FMap.get {} s.cdie.gddr i
        FMap.get {} t.cdie.gddr i = { u with rds := u.rds + .ofNat 64 (FMap.get 0 m.reads i), wrs := u.wrs + .ofNat 64 (FMap.get 0 m.writes i) }) ∧
  (∀ (half ch : Nat) (failed : Bool) (s : State),
    ∃ t, exec (.gddrRetrain half ch failed) s = .next t ∧ t = { s with cdie := { s.cdie with gddr := t.cdie.gddr } } ∧
      ∀ i, let u := FMap.get {} s.cdie.gddr i
        FMap.get {} t.cdie.gddr i = if half < 2 ∧ ch < 32 ∧ i = 32 * half + ch then
          { u with retrain := u.retrain + 1, rtfail := u.rtfail + (if failed then 1 else 0) } else u) ∧
  (∀ (what : LinkErr) (half ch : Nat) (s : State),
    ∃ t, exec (.linkReplay what half ch) s = .next t ∧
      t = { s with cdie := { s.cdie with gddr := t.cdie.gddr, links := s.cdie.links + if what = .ucie then 1 else 0 } } ∧
      ∀ i, let u := FMap.get {} s.cdie.gddr i
        let one := fun (k : LinkErr) => if what = k then (1 : Word) else 0
        FMap.get {} t.cdie.gddr i = if half < 2 ∧ ch < 32 ∧ i = 32 * half + ch then
          { u with rdcrc := u.rdcrc + one .rdCrc, wredc := u.wredc + one .wrEdc, capar := u.capar + one .caPar } else u)

/-- R473 to R476: reads of counters and sensors, of 8 and of 4 bytes; each sensor of a read that spans several is the latest sample's or the
one before's. -/
def TelemetryReads : Prop :=
  ∀ (c : Cdie) (tick : Nat) (ag : Agent),
    (∀ p < 4, ∀ j < 4, ∀ i < 4, let v := c.readN tick ag (0x2000 + 64 * p + 8 * j) 8 / 2 ^ (16 * i) % 2 ^ 16
      let n := 16 * p + 4 * j + i
      v = (c.sensor n).toNat ∨ v = (({ c with sensors := c.old.sensors } : Cdie).sensor n).toNat) ∧
    (∀ i < 64, let g := FMap.get {} c.gddr i
      c.readN tick ag (0x3000 + 32 * i) 8 = g.wrs.toNat ∧ c.readN tick ag (0x3008 + 32 * i) 8 = g.rds.toNat ∧
      c.readN tick ag (0x3004 + 32 * i) 4 = g.wrs.toNat / 2 ^ 32 ∧ c.readN tick ag (0x3010 + 32 * i) 4 = g.rtfail.toNat + 2 ^ 16 * g.retrain.toNat ∧
      c.readN tick ag (0x3014 + 32 * i) 4 = g.capar.toNat ∧ c.readN tick ag (0x3018 + 32 * i) 8 = g.wredc.toNat + 2 ^ 32 * g.rdcrc.toNat) ∧
    (∀ i < 64, let e := FMap.get {} c.ecc i
      c.readN tick ag (0x4000 + 16 * i) 8 = e.ue.toNat + 2 ^ 32 * e.ce.toNat ∧ c.readN tick ag (0x4004 + 16 * i) 4 = e.ce.toNat)
end Sys2Proof.Rule

/-- R28, R454, R466 to R471, R473 to R476: rails, the power manager, wear and telemetry. A rail's voltage counts as 0 while both halves are
unpowered by the model's reading, and a lowered PMCAP is not lowered below 5 by a hot sensor because R471 says 'in the same manner'. -/
def Obligations.PowerAndTelemetry : Prop := Rule.PowerWrites ∧ Rule.PowerSteps ∧ Rule.WearUpdates ∧ Rule.TelemetryEvents ∧ Rule.TelemetryReads

namespace Sys2Proof.Rule
/-- R461: an image whose digest is its body's, under a signature that verifies. -/
def sound (m : Image) : Prop := m.digest = ofBytes (Config.shake256 m.body 64) ∧ Config.falconVerify m.digest m.sig = true

/-- R460 to R462: boot and the protected roots. -/
def Boot : Prop :=
  (∀ (b : BootSet) (s : State), s.cdie.stage ≠ 0 ∨ s.cdie.fail ≠ 0 → Idle (.bootVerify b) s) ∧
  (∀ (b : BootSet) (s : State), s.cdie.stage = 0 → s.cdie.fail = 0 →
    (¬ sound b.punty → exec (.bootVerify b) s = .next { s with cdie := { s.cdie with fail := 1 } }) ∧
    (sound b.punty → ¬ sound b.gaffer → exec (.bootVerify b) s = .next { s with cdie := { s.cdie with fail := 2 } }) ∧
    (sound b.punty → sound b.gaffer → ∃ t, exec (.bootVerify b) s = .next t ∧
      t = { s with cdie := { s.cdie with stage := 1, verified := true, idhash := Config.identityHash, meas := t.cdie.meas } } ∧
      t.cdie.meas = [.ofNat 512 b.punty.digest, .ofNat 512 b.gaffer.digest, .ofNat 512 b.mgmt, .ofNat 512 b.fuses])) ∧
  (∀ (r : RootReq) (s : State), let signed := s.cdie.verified = true ∧ Config.falconVerify (RootReq.digest r) r.sig = true ∧ r.idx < 64
    (¬ signed → Idle (.protectedRootRequest r) s) ∧
    (signed → ∃ t, exec (.protectedRootRequest r) s = .next t ∧ t = { s with cdie := { s.cdie with roots := t.cdie.roots } } ∧
      ∀ i, FMap.get none t.cdie.roots i = if i = r.idx then (if r.add then some (r.ctxid % 2 ^ 16, r.root) else none)
        else FMap.get none s.cdie.roots i))

/-- R463: byte k of the quote block. -/
def quoteByte (c : Cdie) (sig : List Byte) (k : Nat) : Nat :=
  if k < 32 then c.qnonce.toNat / 2 ^ (8 * k) % 256
  else if k < 288 then (c.meas.getD ((k - 32) / 64) 0).toNat / 2 ^ (8 * ((k - 32) % 64)) % 256
  else if k < 320 then c.idhash.toNat / 2 ^ (8 * (k - 288)) % 256
  else if k < 322 then sig.length / 2 ^ (8 * (k - 320)) % 256
  else if k < 384 then 0
  else (sig.getD (k - 384) 0).toNat

/-- R345, R464, R472: memory that exists and is powered: host memory, and GDDR-7 from stage 2 on. -/
def reached (s : State) (pa n : Nat) : Prop := s.memOk pa n = true ∧ (2 ≤ s.cdie.stage ∨ 2 ^ 47 ≤ pa)

/-- R461 to R463: a quote. -/
def Quotes : Prop :=
  (∀ (ag : Agent) (s : State), exec (.quoteGo ag) s = .next { s with cdie := { s.cdie with qbusy := true } }) ∧
  (∀ (s : State), s.cdie.qbusy = false ∨ s.cdie.verified = false → Idle .quoteDone s) ∧
  (∀ (s : State), s.cdie.qbusy = true → s.cdie.verified = true → ¬ reached s s.cdie.qaddr.toNat 1664 →
    exec .quoteDone s = .next { s with cdie := { s.cdie with qbusy := false, qerr := true, msix := 1 :: s.cdie.msix } }) ∧
  (∀ (s : State), s.cdie.qbusy = true → s.cdie.verified = true → reached s s.cdie.qaddr.toNat 1664 → ∃ (t : State) (sig : List Byte),
    exec .quoteDone s = .next t ∧ t.cdie = { s.cdie with qbusy := false, qdone := true, msix := 1 :: s.cdie.msix } ∧ sig.length ≤ 1280 ∧
    (∃ salt, sig = (Config.falconSign (ofBytes (Config.shake256
      (toBytes 32 s.cdie.qnonce.toNat ++ (List.range 4).flatMap (fun i => toBytes 64 (s.cdie.meas.getD i 0).toNat)) 64)) salt).take 1280) ∧
    (s.cells = [] → s.migs = [] → ∀ a, t.byte a = if s.cdie.qaddr.toNat ≤ a ∧ a < s.cdie.qaddr.toNat + 1664 then
      .ofNat 8 (quoteByte s.cdie sig (a - s.cdie.qaddr.toNat)) else s.byte a))

/-- R348, R465: a half brought up: virtual die 0 alone, its rails at entry 5; 256 banks of its stack cache are to be pinned, each once its wake is
over (log entry 32). -/
def BroughtUp (half : Bool) (s t : State) : Prop :=
  t = { s with lehrs := t.lehrs, cdie := { s.cdie with stage := 2, half := half, off := [half, !half], rails := t.cdie.rails } } ∧
  (∀ r, t.cdie.rail r = if r < s.cdie.rails.length then { s.cdie.rail r with cur := 5 } else {}) ∧
  t.lehr 0 = { s.lehr 0 with banks := (t.lehr 0).banks } ∧
  (∀ b, (t.lehr 0).bank b = if b < 512 ∧ b % 16 < 8 then { (s.lehr 0).bank b with next := some (1, 0) } else (s.lehr 0).bank b) ∧
  ∀ d, d ≠ 0 → t.lehr d = s.lehr d

/-- R464, R465, R468, R472: bring-up, and the return after a trip. -/
def BringUp : Prop :=
  let may := fun (s : State) => s.cdie.stage = 1 ∧ (s.cdie.tripped = true → 5000000 ≤ s.cdie.down)
  (∀ (half ok : Bool) (s : State),
    (¬ (may s ∧ ok = true) → Idle (.halfBringup half ok) s) ∧
    (may s → ok = true → ∃ t, exec (.halfBringup half ok) s = .next t ∧ BroughtUp half s t)) ∧
  (∀ (s : State),
    (¬ (s.cdie.tripped = true ∧ may s) → Idle .tripRecovery s) ∧
    (s.cdie.tripped = true → may s → ∃ t, exec .tripRecovery s = .next t ∧ BroughtUp s.cdie.half s t)) ∧
  (∀ (trained : Bool) (s : State), s.cdie.stage ≠ 2 → Idle (.stage3Entry trained) s) ∧
  (∀ (s : State), s.cdie.stage = 2 → exec (.stage3Entry false) s = .next { s with cdie := { s.cdie with fail := 0x20 } }) ∧
  (∀ (s : State), s.cdie.stage = 2 → ∃ t, exec (.stage3Entry true) s = .next t ∧
    t = { s with cdie := { s.cdie with stage := 3, fail := 0, tripped := false, off := [false, false], rails := t.cdie.rails } } ∧
    ∀ r < s.cdie.rails.length, t.cdie.rail r = { s.cdie.rail r with target := 11 })

/-- R471, R472: a thermal trip; R5: a cold reset. Host memory is outside the device. -/
def Trips : Prop :=
  let hot := fun (s : State) => ∃ i < 64, s.cdie.ttrip.toInt < (s.cdie.sensor i).toInt
  let host := fun (s t : State) => ∀ a, t.byte a = if 2 ^ 36 ≤ a then FMap.get 0 s.mem a else 0
  (∀ (s : State), ¬ hot s → Idle .thermalTrip s) ∧
  (∀ (s : State), hot s → ∃ t, exec .thermalTrip s = .next t ∧ host s t ∧
    t = { ({} : State) with mem := t.mem, dies := t.dies, nextSeq := s.nextSeq, cdie := t.cdie, agenda := s.agenda, tick := s.tick } ∧
    ((s.dies.map Prod.fst).Nodup → ∀ d, t.die d = { watch := (s.die d).watch }) ∧
    t.cdie = { s.cdie with
      stage := 1, fail := 0x10, tripped := true, down := 0, off := [true, true], arrived := [], lrhead := s.cdie.lrtail
      lrstat := t.cdie.lrstat, msix := 0 :: s.cdie.msix
      tripcnt := if s.cdie.tripcnt.toNat = 2 ^ 32 - 1 then s.cdie.tripcnt else s.cdie.tripcnt + 1 } ∧
    (∀ i, t.cdie.lrstat.testBit i = (i == 3 || s.cdie.lrstat.testBit i)) ∧
    ∀ i < 64, t.cdie.sensor i = 0x8000) ∧
  (∀ (s : State), ∃ t, exec .coldReset s = .next t ∧ host s t ∧
    t = { State.reset with mem := t.mem, agenda := s.agenda, tick := s.tick, cdie := { ({} : Cdie) with rails := t.cdie.rails } } ∧
    ∀ r < 4, t.cdie.rail r = { ({} : Rail) with wacc := (s.cdie.rail r).wacc, wbud := (s.cdie.rail r).wbud, ceil := (t.cdie.rail r).ceil } ∧
      ((s.cdie.rail r).wbud ≠ 0 →
        (t.cdie.rail r).ceil = 15 - min 8 (8 * (s.cdie.rail r).wacc.toNat / (s.cdie.rail r).wbud.toNat)))

/-- R252, R454: what the host and the control processors reach. -/
def CommandDieAccess : Prop :=
  (∀ (ag : Agent) (pa n v : Nat) (s : State), let ok := (if ag = .host then s.gddrOk pa n = true ∧ 2 ≤ s.cdie.stage else acts s ag ∧ reached s pa n)
    (¬ ok → Idle (.commandDieMemoryAccess ag true pa n v) s) ∧
    (ok → ∃ t, exec (.commandDieMemoryAccess ag true pa n v) s = .next t ∧ t.cdie = s.cdie ∧ PhysWrites s t [(pa, n, v)]) ∧
    (ok → exec (.commandDieMemoryAccess ag false pa n v) s = .next { s with cdie := { s.cdie with hostRead := s.readPhys pa n } }) ∧
    (¬ ok → ∃ t, exec (.commandDieMemoryAccess ag false pa n v) s = .next t ∧ t = { s with cdie := { s.cdie with hostRead := t.cdie.hostRead } })) ∧
  (∀ (die m pc regs : Nat) (s : State), let ck := coreKey die (96 + m)
    let n := (regs + 7) / 8 * 8
    let used := fun (row : Nat) => ∃ w < 16, (s.wave (ck * 64 + w)).valid = true ∧ (s.wave (ck * 64 + w)).row ≤ row ∧
      row < (s.wave (ck * 64 + w)).row + (s.wave (ck * 64 + w)).n
    let may := s.cdie.verified = true ∧ die < s.cdie.stage - 1 ∧ die < 2 ∧ m < 3 ∧ 8 ≤ n ∧ n ≤ 384
    (¬ may → Idle (.managementWaveStart die m pc regs) s) ∧
    ∀ (w row : Nat), may →
      (∀ w' < 16, (s.wave (ck * 64 + w')).n % 8 = 0 ∧ (s.wave (ck * 64 + w')).row % 8 = 0) →
      w < 16 → (s.wave (ck * 64 + w)).valid = false → (∀ w' < w, (s.wave (ck * 64 + w')).valid = true) →
      row % 8 = 0 → row + n ≤ 2048 → (∀ r, row ≤ r → r < row + n → ¬ used r) →
      (∀ r0 < row, r0 % 8 = 0 → ∃ r, r0 ≤ r ∧ r < r0 + n ∧ used r) →
      ∃ t, exec (.managementWaveStart die m pc regs) s = .next t ∧ OnlyWave (ck * 64 + w) s t ∧
        t.wave (ck * 64 + w) = { valid := true, n := n, row := row, div := { stack := [runE (.ofNat 57 pc) 0 (~~~0)] } })

/-- R454, R459, R463, R467, R469, R470, R474, R475, R362, R452: a register write takes effect for those whom the rules name, and goes to its own
register. -/
def RegisterWrites : Prop :=
  let quiet := fun (off : Nat) => ∀ k ∈ [0x100, 0x10C, 0x110, 0x940, 0x948, 0x950, 0x958, 0x960, 0x968], off ≠ k
  let is := fun (ag : Agent) (i j : Instr) => ∀ (s : State), acts s ag → exec i s = exec j s
  let sets := fun (ag : Agent) (off : Nat) (v : Dword) (s : State) (c : Cdie) => exec (.registerWrite ag (.cdcs off) v) s = .next { s with cdie := c }
  (∀ (off : Nat) (v : Dword) (s : State), quiet off → s.cdie.hostpm = false ∨ off < 0x1000 ∨ 0x2000 ≤ off → Idle (.registerWrite .host (.cdcs off) v) s) ∧
  (∀ (ag : Agent) (a : RegAddr) (v : Dword) (s : State), ¬ acts s ag → Idle (.registerWrite ag a v) s) ∧
  (∀ (ag : Agent) (v : Dword), is ag (.registerWrite ag (.cdcs 0x100) v) (.lrbaseWrite v)) ∧
  (∀ (ag : Agent) (v : Dword), is ag (.registerWrite ag (.cdcs 0x10C) v) (.lrtailWrite (.ofNat 32 v.toNat))) ∧
  (∀ (ag : Agent) (v : Dword), is ag (.registerWrite ag (.cdcs 0x1800) v) (.pmctlWrite ag v)) ∧
  (∀ (ag : Agent) (r e : Nat) (v : Dword), r < 4 → e < 16 →
    is ag (.registerWrite ag (.cdcs (0x1000 + 0x100 * r + 4 * e)) v) (.vftWrite ag r e (.ofNat 32 v.toNat))) ∧
  (∀ (ag : Agent) (r : Nat) (v : Dword), r < 4 → is ag (.registerWrite ag (.cdcs (0x1048 + 0x100 * r)) v) (.vfselWrite ag r (.ofNat 32 v.toNat))) ∧
  (∀ (ag : Agent) (v : Dword) (s : State), acts s ag → ∃ t, exec (.registerWrite ag (.cdcs 0x110) v) s = .next t ∧
    t = { s with cdie := { s.cdie with lrstat := t.cdie.lrstat } } ∧
    ∀ i < 4, t.cdie.lrstat.testBit i = (s.cdie.lrstat.testBit i && !v.getLsbD i)) ∧
  (∀ (ag : Agent) (k : Nat) (v : Dword) (s : State), acts s ag → k < 4 → ∃ t, exec (.registerWrite ag (.cdcs (0x940 + 8 * k)) v) s = .next t ∧
    t = { s with cdie := { s.cdie with qnonce := t.cdie.qnonce } } ∧
    ∀ i < 256, t.cdie.qnonce.getLsbD i = if s.cdie.qbusy = false ∧ i / 64 = k then v.getLsbD (i % 64) else s.cdie.qnonce.getLsbD i) ∧
  (∀ (ag : Agent) (v : Dword) (s : State), acts s ag → sets ag 0x960 v s { s.cdie with
    qaddr := if s.cdie.qbusy then s.cdie.qaddr else .ofNat 64 (v.toNat / 64 * 64) }) ∧
  (∀ (ag : Agent) (v : Dword) (s : State), acts s ag → sets ag 0x968 v s { s.cdie with
    qerr := s.cdie.qerr && !v.getLsbD 3, qdone := s.cdie.qdone && !v.getLsbD 2, qbusy := s.cdie.qbusy || v.getLsbD 0 }) ∧
  (∀ (off : Nat) (v : Dword) (s : State), (off = 0x1810 ∨ ∃ r < 4, off = 0x1040 + 0x100 * r ∨ off = 0x1050 + 0x100 * r ∨ off = 0x1058 + 0x100 * r) →
    Idle (.registerWrite .gaffer (.cdcs off) v) s ∧ Idle (.registerWrite .host (.cdcs off) v) s) ∧
  (∀ (r : Nat) (v : Dword) (s : State), acts s .punty → s.cdie.rails.length = 4 → r < 4 → let x := s.cdie.rail r
    let puts := fun (off : Nat) (w : Rail → Rail) => ∃ t, exec (.registerWrite .punty (.cdcs (off + 0x100 * r)) v) s = .next t ∧ OnlyRail r s t ∧
      t.cdie.rail r = { w x with ceil := (t.cdie.rail r).ceil } ∧
      ((w x).wbud ≠ 0 → (t.cdie.rail r).ceil = min (w x).maxe (15 - min 8 (8 * (w x).wacc.toNat / (w x).wbud.toNat)))
    puts 0x1040 (fun x => { x with fmax := .ofNat 16 (v.toNat / 2 ^ 32), maxe := v.toNat / 2 ^ 12 % 16, vmax := v.toNat % 2 ^ 12 }) ∧
    puts 0x1050 (fun x => { x with wacc := v }) ∧ puts 0x1058 (fun x => { x with wbud := v })) ∧
  (∀ (v : Dword) (s : State), acts s .punty → sets .punty 0x1810 v s { s.cdie with pkglim := .ofNat 16 (v.toNat / 2 ^ 16) }) ∧
  (∀ (ag : Agent) (v : Dword) (s : State), heeds s ag → sets ag 0x1818 v s { s.cdie with
    tthr := .ofNat 16 v.toNat, ttrip := if ag = .punty then .ofNat 16 (v.toNat / 2 ^ 16) else s.cdie.ttrip }) ∧
  (∀ (ag : Agent) (i k : Nat) (v : Dword) (s : State), ag ≠ .host → acts s ag → i < 64 → k < 4 →
    ∃ t, exec (.registerWrite ag (.cdcs (0x3000 + 32 * i + 8 * k)) v) s = .next t ∧ t = { s with cdie := { s.cdie with gddr := t.cdie.gddr } } ∧
      (∀ j, j ≠ i → FMap.get {} t.cdie.gddr j = FMap.get {} s.cdie.gddr j) ∧
      let u := FMap.get {} s.cdie.gddr i
      FMap.get {} t.cdie.gddr i = match k with
        | 0 => { u with wrs := v }
        | 1 => { u with rds := v }
        | 2 => { u with rtfail := .ofNat 16 v.toNat, retrain := .ofNat 16 (v.toNat / 2 ^ 16), capar := .ofNat 32 (v.toNat / 2 ^ 32) }
        | _ => { u with wredc := .ofNat 32 v.toNat, rdcrc := .ofNat 32 (v.toNat / 2 ^ 32) }) ∧
  (∀ (ag : Agent) (i : Nat) (v : Dword) (s : State), ag ≠ .host → acts s ag → i < 64 →
    ∃ t, exec (.registerWrite ag (.cdcs (0x4000 + 16 * i)) v) s = .next t ∧ t = { s with cdie := { s.cdie with ecc := t.cdie.ecc } } ∧
      (∀ j, j ≠ i → FMap.get {} t.cdie.ecc j = FMap.get {} s.cdie.ecc j) ∧
      FMap.get {} t.cdie.ecc i = ⟨.ofNat 32 (v.toNat / 2 ^ 32), .ofNat 32 v.toNat⟩) ∧
  (∀ (ag : Agent) (i : Nat) (v : Dword) (s : State), ag ≠ .host → acts s ag → i < 4 →
    ∃ t, exec (.registerWrite ag (.cdcs (0x4800 + 8 * i)) v) s = .next t ∧ t = { s with cdie := { s.cdie with margins := t.cdie.margins } } ∧
      (∀ j, j ≠ i → FMap.get {} t.cdie.margins j = FMap.get {} s.cdie.margins j) ∧
      FMap.get {} t.cdie.margins i = { FMap.get {} s.cdie.margins i with min := .ofNat 16 v.toNat }) ∧
  (∀ (ag : Agent) (die off : Nat) (v : Dword) (s : State), ag = .host ∨ ¬ isPowered s die → Idle (.registerWrite ag (.fabric die off) v) s) ∧
  (∀ (ag : Agent) (die : Nat) (v : Dword), ag ≠ .host → die < 2 →
    is ag (.registerWrite ag (.fabric die 0x08) v) (.xtmoWrite die (.ofNat 32 v.toNat)) ∧ is ag (.registerWrite ag (.fabric die 0x18) v) (.fbbaseWrite die v)) ∧
  (∀ (ag : Agent) (die : Nat) (v : Dword) (s : State), ag ≠ .host → acts s ag → isPowered s die → ∃ t, exec (.registerWrite ag (.fabric die 0) v) s = .next t ∧
    OnlyLehr die s t ∧ t.lehr die = { s.lehr die with dwellw := .ofNat 16 (v.toNat / 2 ^ 16), dwellc := .ofNat 16 (v.toNat / 2 ^ 32) }) ∧
  (∀ (ag : Agent) (die k : Nat) (v : Dword) (s : State), ag ≠ .host → acts s ag → isPowered s die → k < 5 →
    ∃ t, exec (.registerWrite ag (.fabric die (0x2000 + 8 * k)) v) s = .next t ∧ t = { s with rays := t.rays } ∧
      (∀ j, j ≠ die → FMap.get {} t.rays j = FMap.get {} s.rays j) ∧
      let y := FMap.get {} s.rays die
      FMap.get {} t.rays die = { y with
        rays := if k = 0 then v else y.rays, packets := if k = 1 then v else y.packets, splits := if k = 2 then v else y.splits
        resumes := if k = 3 then v else y.resumes, errors := if k = 4 then v else y.errors })
end Sys2Proof.Rule

/-- R5, R252, R348, R454, R459 to R465, R468, R471, R472: the command die: boot, quotes, bring-up, the thermal trip, accesses and register writes. The
model's choices (DESIGN CHOICE): what is kept over a cold reset besides the wear values and what a thermal trip loses (log entry 47), the digest of a
request (log entry 12), the pinned half of a slice (log entry 32), whose writes a register takes (log entry 50), and that a wave of a management core takes
the lowest free slot and rows of a multiple of 8 (log entry 52). -/
def Obligations.CommandDie : Prop :=
  Rule.Boot ∧ Rule.Quotes ∧ Rule.BringUp ∧ Rule.Trips ∧ Rule.CommandDieAccess ∧ Rule.RegisterWrites

/-! ## Guard, latch and the last slot (files 02, 03 and 04) -/

/-- R41, R81, R189: with G = 511 every lane of the path group is active, else those in which bit 0 of the guard value differs from GN, and the guard is read
before any pop; GN with G = 511 is no instruction; and an instruction with no active lane has no effect beyond its checks: the wave goes on. -/
def Obligations.Guard : Prop :=
  (∀ (i : Instr) (s : State) (x : Sel), (hdrOf i).g = .none → FMap.get (~~~0) (s.wave x.wk).redo x.ctx = ~~~0 → s.active x (hdrOf i) = lanesOf (s.run x).mask) ∧
  (∀ (i : Instr) (s : State) (x : Sel) (l : Nat), (hdrOf i).g ≠ .none → (∀ m, (hdrOf i).g ≠ .q m) → FMap.get (~~~0) (s.wave x.wk).redo x.ctx = ~~~0 →
    (l ∈ s.active x (hdrOf i) ↔ l ∈ lanesOf (s.run x).mask ∧ (src i s x .G (hdrOf i).g 1 l).testBit 0 ≠ (hdrOf i).gn)) ∧
  (∀ (w : Slot) (i : Instr), w.toNat / 2 ^ 77 % 2 ^ 9 = 511 → w.toNat / 2 ^ 76 % 2 = 1 → decode w ≠ .ok i) ∧
  (∀ (i : Instr) (s : State) (x : Sel), s.cur = some x → s.running x = true → i.hdr?.isSome = true → formed i s x = true →
    s.active x (hdrOf i) = [] → s.regsBlocked x i.uses = false → inside s x = true → OnlyAdvances i s x)

namespace Sys2Proof.Rule
/-- The divergence state with the RUN entry at the next slot. -/
def advancedStack (s : State) (x : Sel) : List DivEntry :=
  match s.stack x with
  | [] => []
  | e :: r => { e with pc := (nextPc e.pc).getD e.pc } :: r

/-- R93: what an instruction of two sources that holds its operand A leaves in the latch. -/
def Holds (mk : IntR → Instr) : Prop :=
  ∀ f s x, x.main = true → ready (mk f) s x = true → inside s x = true → f.w = 1 → f.h.sel = .A →
    ∃ t, exec (mk f) s = .next t ∧
      (∀ l < 32, (s.run x).mask.getLsbD l = true → let v := FMap.get 0 (t.wave x.wk).div.latch (32 * f.h.ent + l)
        (s.guard x f.h l = false → v = 0) ∧
        (s.guard x f.h l = true → (∀ m, f.a ≠ .q m) ∨ l ∈ (cxOf (mk f) s x).act → v = .ofNat 32 (src (mk f) s x .A f.a 1 l))) ∧
      (∀ e l, e ≠ f.h.ent → l < 32 → FMap.get 0 (t.wave x.wk).div.latch (32 * e + l) = FMap.get 0 (s.wave x.wk).div.latch (32 * e + l)) ∧
      (settle (s.wave x.wk).div.tmode (advancedStack s x) = advancedStack s x → FMap.get 0 (t.wave x.wk).div.live f.h.ent = 2)

/-- R93, R94: the operand latch: what is held, for how long entries live, and `LATCH` where a dead one is named. -/
def Latch : Prop :=
  (∀ mk ∈ [Instr.add, .sub, .mulhi, .div, .rem, .min, .max, .and, .or, .xor, .andn], Holds mk) ∧
  (∀ f s x, x.main = true → ready (.nop f) s x = true → inside s x = true → ((s.wave x.wk).div.live.map Prod.fst).Nodup →
    ∃ t, exec (.nop f) s = .next t ∧ (t.wave x.wk).div.latch = (s.wave x.wk).div.latch ∧
      (settle (s.wave x.wk).div.tmode (advancedStack s x) = advancedStack s x →
        ∀ e, FMap.get 0 (t.wave x.wk).div.live e = FMap.get 0 (s.wave x.wk).div.live e - 1)) ∧
  (∀ f s x pc, x.main = true → ready (.br f) s x = true → inside s x = true → lands s x f.disp.toInt pc →
    ∃ t, exec (.br f) s = .next t ∧ (t.wave x.wk).div.live = []) ∧
  (∀ (i : Instr) (s : State) (x : Sel) (u : Use) (e : Nat), s.cur = some x → s.running x = true → i.hdr?.isSome = true → i.wf = true →
    (s.tailish x = true → (hdrOf i).sel = .none) → (graphForm i = true → x.mgmt = false) → (privForm i = true → s.handler x = true) →
    (hdrOf i).g = .none → u ∈ i.uses → u.o = .h e → (s.wave x.wk).hLive e = false →
    ∃ t, exec i s = .next t ∧ StoppedAs x t { cause := 3, pc := (s.run x).pc, mask := maskOf (s.active x (hdrOf i)) } ∧
      t.stack x = s.stack x ∧ RegsKept x [] [] s t ∧ FlagsKept x s t ∧ t.cores = s.cores ∧ t.mem = s.mem)

/-- R36: an instruction of two sources takes effect in the last slot of the address space, and then the wave stops. -/
def LastOf (mk : IntR → Instr) (op : IntR → Nat → Nat → Nat) : Prop :=
  ∀ f s x, ready (mk f) s x = true → inside s x = false →
    let cx := cxOf (mk f) s x
    ∃ t, exec (mk f) s = .next t ∧ StoppedAs x t { cause := 2, pc := (s.run x).pc, mask := cx.mask, eff := cx.mask } ∧
      Gets cx f.d f.w cx.act (fun l => op f (src (mk f) s x .A f.a f.w l) (src (mk f) s x .B f.b f.w l)) s t ∧
      RegsKept x (destCodes f.d f.w) cx.act s t ∧ t.mem = s.mem

/-- R36: the last slot. -/
def LastSlot : Prop :=
  (∀ f s x, ready (.nop f) s x = true → inside s x = false →
    ∃ t, exec (.nop f) s = .next t ∧ StoppedAs x t
      { cause := 2, pc := (s.run x).pc, mask := (cxOf (.nop f) s x).mask, eff := (cxOf (.nop f) s x).mask } ∧ RegsKept x [] [] s t ∧ t.mem = s.mem) ∧
  LastOf .add (fun f a b => fit f.ty f.sat (I f.ty a + I f.ty b)) ∧ LastOf .sub (fun f a b => fit f.ty f.sat (I f.ty a - I f.ty b)) ∧
  LastOf .min (fun f a b => Put f.ty (min (I f.ty a) (I f.ty b))) ∧ LastOf .max (fun f a b => Put f.ty (max (I f.ty a) (I f.ty b))) ∧
  LastOf .and (fun f a b => (BitVec.ofNat f.ty.width a &&& BitVec.ofNat f.ty.width b).toNat) ∧
  LastOf .or (fun f a b => (BitVec.ofNat f.ty.width a ||| BitVec.ofNat f.ty.width b).toNat) ∧
  LastOf .xor (fun f a b => (BitVec.ofNat f.ty.width a ^^^ BitVec.ofNat f.ty.width b).toNat)

/-- R132: a lane of an instruction whose results and flags are `res` that raises an enabled flag keeps its destination and raises `FPX`; every
lane's flags are set, and the others finish. -/
def Enabled (i : Instr) (d : Opnd) (n : Nat) (s : State) (x : Sel) (res : Nat → Nat × Nat) : Prop :=
  ready i s x = true →
    let cx := cxOf i s x
    let ok := cx.act.filter (fun l => Nat.land (bits (s.wave x.wk).fpctl.toNat 12 8) (res l).2 == 0)
    let bad := cx.act.filter (fun l => Nat.land (bits (s.wave x.wk).fpctl.toNat 12 8) (res l).2 != 0)
    bad ≠ [] → ∃ t, exec i s = .next t ∧
      StoppedAs x t { cause := 0x14, pc := (s.run x).pc, mask := maskOf bad, eff := maskOf ok } ∧
      FlagsTake x s t (cx.act.foldl (fun a l => Nat.lor a (res l).2) 0) ∧
      (ok ≠ [] → Gets cx d n ok (fun l => (res l).1) s t) ∧ RegsKept x (destCodes d n) ok s t ∧
      t.stack x = s.stack x ∧ t.mem = s.mem

/-- R132 for a float instruction of two sources, and of one. -/
def EnabledAB (mk : FltR → Instr) (op : FltR → Rnd → FV → FV → Nat × Nat) : Prop :=
  ∀ f s x, Enabled (mk f) f.d f.w s x (fun l => eachElem f.ty (fun i => op f (rmode s x f.rnd)
    (read f.ty f.ftz (src (mk f) s x .A f.a f.w l) i) (read f.ty f.ftz (src (mk f) s x .B f.b f.w l) i)))
def EnabledA (mk : FltR → Instr) (op : FltR → Rnd → Bool → FV → Nat × Nat) : Prop :=
  ∀ f s x, Enabled (mk f) f.d f.w s x (fun l => eachElem f.ty (fun i => op f (rmode s x f.rnd) (Config.choice s.tick (2 * l + i))
    (read f.ty f.ftz (src (mk f) s x .A f.a f.w l) i)))

/-- R132: enabled exception flags. -/
def EnabledFlags : Prop :=
  EnabledAB .fadd (fun f m a b => (fmtOf f.ty).fin m f.ftz f.sat (sumFV m [a, b])) ∧
  EnabledAB .fsub (fun f m a b => (fmtOf f.ty).fin m f.ftz f.sat (sumFV m [a, b.flip])) ∧
  EnabledAB .fmul (fun f m a b => (fmtOf f.ty).fin m f.ftz f.sat (mulFV a b)) ∧
  EnabledAB .fdiv (fun f m a b => fdivOp f.ty f.ftz f.sat m a b) ∧
  EnabledA .fsqrt (fun f m _ a => fsqrtOp f.ty f.ftz f.sat m false a) ∧
  EnabledA .frcp (fun f m _ a => fdivOp f.ty f.ftz f.sat m (.fin false 1 0) a) ∧
  EnabledA .fex2 (fun f m _ a => fex2Op f.ty f.ftz f.sat m false a) ∧
  EnabledA .flg2 (fun f m _ a => flg2Op f.ty f.ftz m false a) ∧
  (∀ f s x, Enabled (.ffma f) f.d f.w s x (fun l => eachElem f.ty (fun i =>
    ffmaOp f.ty f.ftz f.sat (rmode s x f.rnd) (read f.ty f.ftz (src (.ffma f) s x .A f.a f.w l) i)
      (read f.ty f.ftz (src (.ffma f) s x .B f.b f.w l) i) (read f.ty f.ftz (src (.ffma f) s x .C f.c f.w l) i))))
end Sys2Proof.Rule

/-- R36, R93, R94, R132: the operand latch and the last slot of the address space, for `nop` and the integer instructions of two sources that are named
(the latch also over `br`, and `LATCH` for every instruction), and enabled exception flags, for the float instructions that are named. That an instruction
without an active lane counts as one for R94 is the model's choice (log entry 68), and that the pops of a failing lane take place too. -/
def Obligations.LatchAndExceptions : Prop := Rule.Latch ∧ Rule.LastSlot ∧ Rule.EnabledFlags

/-! ## Encodings (files 02 and 03) -/

namespace Sys2Proof.Rule
/-- A header with no guard and no hold (R40). -/
def plainHdr : Hdr := ⟨.none, false, .none, 0⟩
end Sys2Proof.Rule

/-- R31, R40, R43, R104, R147, R179, R190, R198, R211: words written out in the spec decode to the instructions they stand for. -/
def Obligations.DecodeWords : Prop :=
  decode 0x003FE0028080FFF400000000 = .ok (.add ⟨plainHdr, .s32, 0, .v 5, .v 2, .v 7, .none⟩) ∧
  decode 0x603FE0FFFFFFFFF000000000 = .ok (.nop ⟨plainHdr, 0, .none, .none, .none, .none⟩) ∧
  decode 0x08FFE00370F83FF805000000 = .ok (.sadd ⟨plainHdr, .n32, 5, .v 6, .sp .groupid, .sp .laneid, .none⟩) ∧
  decode 0x62BFE00A0A40000000400000 = .ok (.baton ⟨plainHdr, 0, .v 20, .v 41, 1⟩) ∧
  decode 0x62FFE0FFFFFFFFF000000000 = .ok (.fjoin ⟨plainHdr, 0, .none, .none, .none, .none⟩) ∧
  decode 0xA03FE0FFF03FE00100800000 = .ok (.qbind ⟨plainHdr, .none, .sp .zero, .none, 0x100800000⟩) ∧
  decode 0xA2FFE0FFFFFFE00000000000 = .ok (.barSync ⟨plainHdr, .none, .none, .none, 0⟩) ∧
  decode 0xE1FFE0FFFFC0800000000001 = .ok (.hret ⟨plainHdr, .none, .none, .v 4, 1⟩) ∧
  decodeBytes [0, 0, 0, 5, 0xF8, 0x3F, 0xF8, 0x70, 3, 0xE0, 0xFF, 8] = .ok (.sadd ⟨plainHdr, .n32, 5, .v 6, .sp .groupid, .sp .laneid, .none⟩)

/-- R40, R43 to R45, R50 to R56, R58 to R66: every well-formed slot instruction decodes from its own word, and a word that decodes is the word of the
well-formed instruction it gives, whose opcode stands in bits 95:86. -/
def Obligations.DecodeEncode : Prop :=
  (∀ i : Instr, i.wf = true → i.hdr?.isSome = true → decode (encode i) = .ok i) ∧
  (∀ (w : Slot) (i : Instr), decode w = .ok i → i.wf = true ∧ i.hdr?.isSome = true ∧ encode i = w ∧ i.op? = some (w.toNat / 2 ^ 86))

/-! ## Steps -/

/-- A step of a chosen context that runs, does not sleep and has no stop to take runs the instruction that its slot decodes to; what the step adds
is `endTurn`: the turn is given back, or kept for the second slot of a pair. With no context chosen a step runs the head of the agenda, and counts
it; an issue turn is counted by the waves that it passes over. The agenda and the order of moves are the model's serialisation (DESIGN CHOICE, log entry 1). -/
def Obligations.StepRuns : Prop :=
  (∀ (s : State) (x : Sel) (w : Slot) (pair : Bool) (i : Instr), s.cur = some x → s.running x = true → (s.ctx x).sleep = none →
    (s.wave x.wk).mustStop = false → s.fetch x (s.run x).pc = .slot w pair → decode w = .ok i →
    ∃ u, exec i (s.held x (lineAddr (s.run x).pc)) = .next u ∧ step s = .next (u.endTurn x i (s.run x).pc pair) ∧
      ((u.endTurn x i (s.run x).pc pair).cur = none ∨ (pair = true ∧ (u.endTurn x i (s.run x).pc pair).cur = some x))) ∧
  (∀ (s : State) (x : Sel), s.cur = some x → s.running x = false ∨ (s.ctx x).sleep.isSome = true → step s = .next { s with cur := none }) ∧
  (∀ (s u : State) (i : Instr) (r : List Instr), s.cur = none → s.agenda = i :: r → exec i { s with agenda := r } = .next u →
    (∀ die core quad, i = .issueTurn die core quad → step s = .next (u.turnUsed die core quad)) ∧
    ((∀ die core quad, i ≠ .issueTurn die core quad) → step s = .next { u with tick := u.tick + 1 }))

namespace Sys2Proof.Rule
/-- The step stops the wave at its next slot: every lane of the RUN entry raises the cause (log entry 17). -/
def FetchStops (s : State) (x : Sel) (cause : Nat) : Prop :=
  ∃ t, step s = .next t ∧ (t.wave x.wk).state = 1 ∧ (t.wave x.wk).cause = cause ∧ (t.wave x.wk).faultpc = (s.run x).pc ∧
    (t.wave x.wk).faultmask = (s.run x).mask ∧ (t.wave x.wk).effmask = 0 ∧ (t.wave x.wk).wctx = x.ctx ∧
    ((t.wave x.wk).async = true ↔ cause = 0x20) ∧ t.stack x = s.stack x ∧ RegsKept x [] [] s t ∧ t.cur = none
end Sys2Proof.Rule

/-- R31 to R35, R68 steps 1 to 4: what a wave's fetch checks, in order, and that a slot with no instruction raises `ILL_OP`. That the machine check
of a fetch sets ASYNC is the model's reading of R250 (DEDUCED, log entry 18), and that FAULTMASK of these causes is every lane of the RUN entry is its
reading of R68 and R69 (DEDUCED, log entry 17). -/
def Obligations.FetchAndDecode : Prop :=
  ∀ (s : State) (x : Sel), s.cur = some x → s.running x = true → (s.ctx x).sleep = none → (s.wave x.wk).mustStop = false →
    let pc := (s.run x).pc.toNat
    let odd := fun (l : Nat) => ((List.range 15).filter (fun i => (l % 2 ^ 32).testBit i)).length % 2 = 1
    (8 ≤ pc % 64 ∨ 5 ≤ pc % 8 → (∀ c, s.line x (pc / 64 * 64) = .error c → FetchStops s x 2) ∧
      (∀ l, s.line x (pc / 64 * 64) = .ok l → (odd l → FetchStops s x 0x20) ∧ (¬ odd l → FetchStops s x 2))) ∧
    (pc % 64 < 5 →
      (∀ c, s.line x (pc / 64 * 64) = .error c → FetchStops s x c) ∧
      (∀ l, s.line x (pc / 64 * 64) = .ok l →
        let word := l % 2 ^ 32
        let slot := l / 2 ^ (32 + 96 * (pc % 8)) % 2 ^ 96
        let ones := fun (n v : Nat) => ((List.range n).filter (fun i => v.testBit i)).length
        let malformed := word / 2 ^ 15 ≠ 0 ∨ ∃ j < 3, word.testBit (5 + j) = true ∧ word.testBit (6 + j) = true
        let bad := (ones 96 slot + (word / 2 ^ (9 + pc % 8) % 2)) % 2 = 1
        (odd l → FetchStops s x 0x20) ∧ (¬ odd l → malformed → FetchStops s x 2) ∧ (¬ odd l → ¬ malformed → bad → FetchStops s x 0x20) ∧
        (¬ odd l → ¬ malformed → ¬ bad →
          s.fetch x (s.run x).pc = .slot (.ofNat 96 slot) (decide (pc % 8 < 4) && word.testBit (5 + pc % 8)) ∧
          ∀ e, decode (.ofNat 96 slot) = .error e → FetchStops s x 1)))

namespace Sys2Proof.Rule
/-- The memory is in its canonical form, and what is on the agenda are events. -/
def Inv (s : State) : Prop := memCanon s = true ∧ ∀ i ∈ s.agenda, i.hdr? = none
end Sys2Proof.Rule

/-- From every state whose memory is canonical and whose agenda holds events alone, the machine answers a next state, and it is such a state
again: no data that a program can make ends a run. The canonical form is the model's (DESIGN CHOICE, log entry 2). -/
def Obligations.StepInvariant : Prop := ∀ s : State, Inv s → ∃ t, step s = .next t ∧ Inv t

/-- The state after reset meets the invariant. -/
def Obligations.ResetInvariant : Prop := Inv State.reset

/-- R5, R130, R235, R362, R456, R463, R464, R466 to R472: the reset values that the spec gives, and with them the model's own choices (DESIGN CHOICE): that
no byte of memory is listed (log entry 2), and that no wave is valid, its registers are 0 and no launch is present (log entry 9). -/
def Obligations.ResetState : Prop :=
  let s := State.reset
  let c := s.cdie
  (∀ k, (s.wave k).valid = false ∧ (s.wave k).fpflags = 0 ∧ (s.wave k).regs = []) ∧ s.launches = [] ∧ s.empties = [] ∧
  (∀ d, (s.die d).watch = 0 ∧ (s.die d).fbbase = 0 ∧ (s.lehr d).dwellc = 20000 ∧ (s.lehr d).dwellw = 1000) ∧
  (c.stage, c.half, c.fail, c.tripcnt, c.lrbase, c.lrhead, c.lrtail, c.lrstat, c.lrentry, c.lrreason) = (0, false, 0, 0, 0, 0, 0, 0, 0, 0) ∧
  (c.qnonce, c.qaddr, c.qbusy, c.qdone, c.qerr) = (0, 0, false, false, false) ∧
  (c.hostpm, c.order, c.idram, c.wcode, c.wmaxc, c.gcur, c.gmin) = (false, 0xE4, 160, 0, 12, 4, 1) ∧
  (c.pkglim, c.pkgpwr, c.ttrip, c.tthr) = (4400, 0, 1760, 1520) ∧
  (∀ r < 4, let x := c.rail r
    (x.fmax, x.maxe, x.vmax, x.rej, x.cur, x.pmcap, x.ceil, x.target, x.wacc, x.wbud) = (2700, 15, 1050, false, 0, 15, 15, 0, 0, 0x0010000000000000) ∧
    ∀ e < 16, x.fmhz e = 450 + 150 * e ∧ x.vmv e = 650 + 25 * e) ∧
  (∀ i < 64, c.sensor i = 0x8000)
end

