-- ==== Sys2Proof/Laws/Exec.lean ====
section
/-!
SUPPORT. Laws/Exec.lean: the meaning that each instruction and event comes to, and the header of each slot instruction,
so that no proof unfolds the dispatch.
-/
namespace Sys2Proof.Machine

@[simp] theorem exec_add (f : IntR) (s : State) : exec (.add f) s = execAdd f s := rfl
@[simp] theorem exec_addRi (f : IntI) (s : State) : exec (.addRi f) s = execAddRi f s := rfl
@[simp] theorem exec_sub (f : IntR) (s : State) : exec (.sub f) s = execSub f s := rfl
@[simp] theorem exec_subRi (f : IntI) (s : State) : exec (.subRi f) s = execSubRi f s := rfl
@[simp] theorem exec_mul (f : IntR) (s : State) : exec (.mul f) s = execMul f s := rfl
@[simp] theorem exec_mulRi (f : IntI) (s : State) : exec (.mulRi f) s = execMulRi f s := rfl
@[simp] theorem exec_mulhi (f : IntR) (s : State) : exec (.mulhi f) s = execMulhi f s := rfl
@[simp] theorem exec_mad (f : IntR) (s : State) : exec (.mad f) s = execMad f s := rfl
@[simp] theorem exec_div (f : IntR) (s : State) : exec (.div f) s = execDiv f s := rfl
@[simp] theorem exec_divRi (f : IntI) (s : State) : exec (.divRi f) s = execDivRi f s := rfl
@[simp] theorem exec_rem (f : IntR) (s : State) : exec (.rem f) s = execRem f s := rfl
@[simp] theorem exec_remRi (f : IntI) (s : State) : exec (.remRi f) s = execRemRi f s := rfl
@[simp] theorem exec_neg (f : IntR) (s : State) : exec (.neg f) s = execNeg f s := rfl
@[simp] theorem exec_abs (f : IntR) (s : State) : exec (.abs f) s = execAbs f s := rfl
@[simp] theorem exec_min (f : IntR) (s : State) : exec (.min f) s = execMin f s := rfl
@[simp] theorem exec_minRi (f : IntI) (s : State) : exec (.minRi f) s = execMinRi f s := rfl
@[simp] theorem exec_max (f : IntR) (s : State) : exec (.max f) s = execMax f s := rfl
@[simp] theorem exec_maxRi (f : IntI) (s : State) : exec (.maxRi f) s = execMaxRi f s := rfl
@[simp] theorem exec_clamp (f : IntR) (s : State) : exec (.clamp f) s = execClamp f s := rfl
@[simp] theorem exec_addc (f : IntR) (s : State) : exec (.addc f) s = execAddc f s := rfl
@[simp] theorem exec_subb (f : IntR) (s : State) : exec (.subb f) s = execSubb f s := rfl
@[simp] theorem exec_sad (f : IntR) (s : State) : exec (.sad f) s = execSad f s := rfl
@[simp] theorem exec_dot4 (f : IntR) (s : State) : exec (.dot4 f) s = execDot4 f s := rfl
@[simp] theorem exec_and (f : IntR) (s : State) : exec (.and f) s = execAnd f s := rfl
@[simp] theorem exec_andRi (f : IntI) (s : State) : exec (.andRi f) s = execAndRi f s := rfl
@[simp] theorem exec_or (f : IntR) (s : State) : exec (.or f) s = execOr f s := rfl
@[simp] theorem exec_orRi (f : IntI) (s : State) : exec (.orRi f) s = execOrRi f s := rfl
@[simp] theorem exec_xor (f : IntR) (s : State) : exec (.xor f) s = execXor f s := rfl
@[simp] theorem exec_xorRi (f : IntI) (s : State) : exec (.xorRi f) s = execXorRi f s := rfl
@[simp] theorem exec_not (f : IntR) (s : State) : exec (.not f) s = execNot f s := rfl
@[simp] theorem exec_andn (f : IntR) (s : State) : exec (.andn f) s = execAndn f s := rfl
@[simp] theorem exec_shl (f : IntR) (s : State) : exec (.shl f) s = execShl f s := rfl
@[simp] theorem exec_shlRi (f : IntI) (s : State) : exec (.shlRi f) s = execShlRi f s := rfl
@[simp] theorem exec_shr (f : IntR) (s : State) : exec (.shr f) s = execShr f s := rfl
@[simp] theorem exec_shrRi (f : IntI) (s : State) : exec (.shrRi f) s = execShrRi f s := rfl
@[simp] theorem exec_rot (f : IntR) (s : State) : exec (.rot f) s = execRot f s := rfl
@[simp] theorem exec_rotRi (f : IntI) (s : State) : exec (.rotRi f) s = execRotRi f s := rfl
@[simp] theorem exec_bfx (f : IntR) (s : State) : exec (.bfx f) s = execBfx f s := rfl
@[simp] theorem exec_bfxRi (f : IntI) (s : State) : exec (.bfxRi f) s = execBfxRi f s := rfl
@[simp] theorem exec_bfi (f : IntR) (s : State) : exec (.bfi f) s = execBfi f s := rfl
@[simp] theorem exec_bfiRi (f : IntI) (s : State) : exec (.bfiRi f) s = execBfiRi f s := rfl
@[simp] theorem exec_popc (f : IntR) (s : State) : exec (.popc f) s = execPopc f s := rfl
@[simp] theorem exec_clz (f : IntR) (s : State) : exec (.clz f) s = execClz f s := rfl
@[simp] theorem exec_ctz (f : IntR) (s : State) : exec (.ctz f) s = execCtz f s := rfl
@[simp] theorem exec_brev (f : IntR) (s : State) : exec (.brev f) s = execBrev f s := rfl
@[simp] theorem exec_bpick (f : IntR) (s : State) : exec (.bpick f) s = execBpick f s := rfl
@[simp] theorem exec_bpickRi (f : IntI) (s : State) : exec (.bpickRi f) s = execBpickRi f s := rfl
@[simp] theorem exec_bfn (f : IntR) (s : State) : exec (.bfn f) s = execBfn f s := rfl
@[simp] theorem exec_mov (f : IntR) (s : State) : exec (.mov f) s = execMov f s := rfl
@[simp] theorem exec_movRi (f : IntI) (s : State) : exec (.movRi f) s = execMovRi f s := rfl
@[simp] theorem exec_sel (f : IntR) (s : State) : exec (.sel f) s = execSel f s := rfl
@[simp] theorem exec_lea (f : IntR) (s : State) : exec (.lea f) s = execLea f s := rfl
@[simp] theorem exec_leaRi (f : IntI) (s : State) : exec (.leaRi f) s = execLeaRi f s := rfl
@[simp] theorem exec_sadd (f : IntR) (s : State) : exec (.sadd f) s = execSadd f s := rfl
@[simp] theorem exec_saddRi (f : IntI) (s : State) : exec (.saddRi f) s = execSaddRi f s := rfl
@[simp] theorem exec_afset (f : IntR) (s : State) : exec (.afset f) s = execAfset f s := rfl
@[simp] theorem exec_afsetRi (f : IntI) (s : State) : exec (.afsetRi f) s = execAfsetRi f s := rfl
@[simp] theorem exec_aftest (f : IntR) (s : State) : exec (.aftest f) s = execAftest f s := rfl
@[simp] theorem exec_afclr (f : IntR) (s : State) : exec (.afclr f) s = execAfclr f s := rfl
@[simp] theorem exec_fadd (f : FltR) (s : State) : exec (.fadd f) s = execFadd f s := rfl
@[simp] theorem exec_faddRi (f : FltI) (s : State) : exec (.faddRi f) s = execFaddRi f s := rfl
@[simp] theorem exec_fsub (f : FltR) (s : State) : exec (.fsub f) s = execFsub f s := rfl
@[simp] theorem exec_fsubRi (f : FltI) (s : State) : exec (.fsubRi f) s = execFsubRi f s := rfl
@[simp] theorem exec_fmul (f : FltR) (s : State) : exec (.fmul f) s = execFmul f s := rfl
@[simp] theorem exec_fmulRi (f : FltI) (s : State) : exec (.fmulRi f) s = execFmulRi f s := rfl
@[simp] theorem exec_ffma (f : FltR) (s : State) : exec (.ffma f) s = execFfma f s := rfl
@[simp] theorem exec_fmin (f : FltR) (s : State) : exec (.fmin f) s = execFmin f s := rfl
@[simp] theorem exec_fminRi (f : FltI) (s : State) : exec (.fminRi f) s = execFminRi f s := rfl
@[simp] theorem exec_fmax (f : FltR) (s : State) : exec (.fmax f) s = execFmax f s := rfl
@[simp] theorem exec_fmaxRi (f : FltI) (s : State) : exec (.fmaxRi f) s = execFmaxRi f s := rfl
@[simp] theorem exec_fabs (f : FltR) (s : State) : exec (.fabs f) s = execFabs f s := rfl
@[simp] theorem exec_fneg (f : FltR) (s : State) : exec (.fneg f) s = execFneg f s := rfl
@[simp] theorem exec_fclamp (f : FltR) (s : State) : exec (.fclamp f) s = execFclamp f s := rfl
@[simp] theorem exec_fdiv (f : FltR) (s : State) : exec (.fdiv f) s = execFdiv f s := rfl
@[simp] theorem exec_fsqrt (f : FltR) (s : State) : exec (.fsqrt f) s = execFsqrt f s := rfl
@[simp] theorem exec_frcp (f : FltR) (s : State) : exec (.frcp f) s = execFrcp f s := rfl
@[simp] theorem exec_frsq (f : FltR) (s : State) : exec (.frsq f) s = execFrsq f s := rfl
@[simp] theorem exec_fex2 (f : FltR) (s : State) : exec (.fex2 f) s = execFex2 f s := rfl
@[simp] theorem exec_flg2 (f : FltR) (s : State) : exec (.flg2 f) s = execFlg2 f s := rfl
@[simp] theorem exec_fsin (f : FltR) (s : State) : exec (.fsin f) s = execFsin f s := rfl
@[simp] theorem exec_fcos (f : FltR) (s : State) : exec (.fcos f) s = execFcos f s := rfl
@[simp] theorem exec_ftanh (f : FltR) (s : State) : exec (.ftanh f) s = execFtanh f s := rfl
@[simp] theorem exec_ffloor (f : FltR) (s : State) : exec (.ffloor f) s = execFfloor f s := rfl
@[simp] theorem exec_fceil (f : FltR) (s : State) : exec (.fceil f) s = execFceil f s := rfl
@[simp] theorem exec_ftrunc (f : FltR) (s : State) : exec (.ftrunc f) s = execFtrunc f s := rfl
@[simp] theorem exec_frint (f : FltR) (s : State) : exec (.frint f) s = execFrint f s := rfl
@[simp] theorem exec_ffrac (f : FltR) (s : State) : exec (.ffrac f) s = execFfrac f s := rfl
@[simp] theorem exec_fcsgn (f : FltR) (s : State) : exec (.fcsgn f) s = execFcsgn f s := rfl
@[simp] theorem exec_fscale (f : FltR) (s : State) : exec (.fscale f) s = execFscale f s := rfl
@[simp] theorem exec_fgetexp (f : FltR) (s : State) : exec (.fgetexp f) s = execFgetexp f s := rfl
@[simp] theorem exec_fclass (f : FltR) (s : State) : exec (.fclass f) s = execFclass f s := rfl
@[simp] theorem exec_fdot2 (f : FltR) (s : State) : exec (.fdot2 f) s = execFdot2 f s := rfl
@[simp] theorem exec_cvt (f : CvtR) (s : State) : exec (.cvt f) s = execCvt f s := rfl
@[simp] theorem exec_fpack (f : CvtR) (s : State) : exec (.fpack f) s = execFpack f s := rfl
@[simp] theorem exec_fsplit (f : CvtR) (s : State) : exec (.fsplit f) s = execFsplit f s := rfl
@[simp] theorem exec_cmp (f : CmpR) (s : State) : exec (.cmp f) s = execCmp f s := rfl
@[simp] theorem exec_cmpRi (f : CmpI) (s : State) : exec (.cmpRi f) s = execCmpRi f s := rfl
@[simp] theorem exec_cmpm (f : CmpR) (s : State) : exec (.cmpm f) s = execCmpm f s := rfl
@[simp] theorem exec_cmpmRi (f : CmpI) (s : State) : exec (.cmpmRi f) s = execCmpmRi f s := rfl
@[simp] theorem exec_lxch (f : IntR) (s : State) : exec (.lxch f) s = execLxch f s := rfl
@[simp] theorem exec_lxchRi (f : IntI) (s : State) : exec (.lxchRi f) s = execLxchRi f s := rfl
@[simp] theorem exec_vote (f : IntR) (s : State) : exec (.vote f) s = execVote f s := rfl
@[simp] theorem exec_lred (f : IntR) (s : State) : exec (.lred f) s = execLred f s := rfl
@[simp] theorem exec_lscan (f : IntR) (s : State) : exec (.lscan f) s = execLscan f s := rfl
@[simp] theorem exec_lmatch (f : IntR) (s : State) : exec (.lmatch f) s = execLmatch f s := rfl
@[simp] theorem exec_elect (f : IntR) (s : State) : exec (.elect f) s = execElect f s := rfl
@[simp] theorem exec_rdlane (f : IntR) (s : State) : exec (.rdlane f) s = execRdlane f s := rfl
@[simp] theorem exec_rdlaneRi (f : IntI) (s : State) : exec (.rdlaneRi f) s = execRdlaneRi f s := rfl
@[simp] theorem exec_wrlane (f : IntR) (s : State) : exec (.wrlane f) s = execWrlane f s := rfl
@[simp] theorem exec_nop (f : PlainR) (s : State) : exec (.nop f) s = execNop f s := rfl
@[simp] theorem exec_br (f : BrF) (s : State) : exec (.br f) s = execBr f s := rfl
@[simp] theorem exec_brc (f : BrF) (s : State) : exec (.brc f) s = execBrc f s := rfl
@[simp] theorem exec_brany (f : BrF) (s : State) : exec (.brany f) s = execBrany f s := rfl
@[simp] theorem exec_brall (f : BrF) (s : State) : exec (.brall f) s = execBrall f s := rfl
@[simp] theorem exec_jtab (f : XF) (s : State) : exec (.jtab f) s = execJtab f s := rfl
@[simp] theorem exec_call (f : BrF) (s : State) : exec (.call f) s = execCall f s := rfl
@[simp] theorem exec_callt (f : XF) (s : State) : exec (.callt f) s = execCallt f s := rfl
@[simp] theorem exec_ret (f : PlainR) (s : State) : exec (.ret f) s = execRet f s := rfl
@[simp] theorem exec_lpad (f : PlainI) (s : State) : exec (.lpad f) s = execLpad f s := rfl
@[simp] theorem exec_baton (f : PlainI) (s : State) : exec (.baton f) s = execBaton f s := rfl
@[simp] theorem exec_fjoin (f : PlainR) (s : State) : exec (.fjoin f) s = execFjoin f s := rfl
@[simp] theorem exec_exit (f : PlainR) (s : State) : exec (.exit f) s = execExit f s := rfl
@[simp] theorem exec_trap (f : PlainI) (s : State) : exec (.trap f) s = execTrap f s := rfl
@[simp] theorem exec_brk (f : PlainI) (s : State) : exec (.brk f) s = execBrk f s := rfl
@[simp] theorem exec_sleep (f : PlainI) (s : State) : exec (.sleep f) s = execSleep f s := rfl
@[simp] theorem exec_ld (f : MemF) (s : State) : exec (.ld f) s = execLd f s := rfl
@[simp] theorem exec_lds (f : MemF) (s : State) : exec (.lds f) s = execLds f s := rfl
@[simp] theorem exec_ldc (f : MemF) (s : State) : exec (.ldc f) s = execLdc f s := rfl
@[simp] theorem exec_st (f : MemF) (s : State) : exec (.st f) s = execSt f s := rfl
@[simp] theorem exec_sts (f : MemF) (s : State) : exec (.sts f) s = execSts f s := rfl
@[simp] theorem exec_stc (f : MemF) (s : State) : exec (.stc f) s = execStc f s := rfl
@[simp] theorem exec_pf (f : MemF) (s : State) : exec (.pf f) s = execPf f s := rfl
@[simp] theorem exec_ldt (f : XF) (s : State) : exec (.ldt f) s = execLdt f s := rfl
@[simp] theorem exec_stt (f : XF) (s : State) : exec (.stt f) s = execStt f s := rfl
@[simp] theorem exec_atom (f : MemF) (s : State) : exec (.atom f) s = execAtom f s := rfl
@[simp] theorem exec_atoms (f : MemF) (s : State) : exec (.atoms f) s = execAtoms f s := rfl
@[simp] theorem exec_atomc (f : MemF) (s : State) : exec (.atomc f) s = execAtomc f s := rfl
@[simp] theorem exec_cas (f : MemF) (s : State) : exec (.cas f) s = execCas f s := rfl
@[simp] theorem exec_cass (f : MemF) (s : State) : exec (.cass f) s = execCass f s := rfl
@[simp] theorem exec_red (f : MemF) (s : State) : exec (.red f) s = execRed f s := rfl
@[simp] theorem exec_futld (f : MemF) (s : State) : exec (.futld f) s = execFutld f s := rfl
@[simp] theorem exec_futst (f : MemF) (s : State) : exec (.futst f) s = execFutst f s := rfl
@[simp] theorem exec_futtry (f : MemF) (s : State) : exec (.futtry f) s = execFuttry f s := rfl
@[simp] theorem exec_futclr (f : MemF) (s : State) : exec (.futclr f) s = execFutclr f s := rfl
@[simp] theorem exec_sbind (f : XF) (s : State) : exec (.sbind f) s = execSbind f s := rfl
@[simp] theorem exec_sfree (f : XF) (s : State) : exec (.sfree f) s = execSfree f s := rfl
@[simp] theorem exec_acq (f : MemF) (s : State) : exec (.acq f) s = execAcq f s := rfl
@[simp] theorem exec_rel (f : MemF) (s : State) : exec (.rel f) s = execRel f s := rfl
@[simp] theorem exec_fence (f : MemF) (s : State) : exec (.fence f) s = execFence f s := rfl
@[simp] theorem exec_rcell (f : XF) (s : State) : exec (.rcell f) s = execRcell f s := rfl
@[simp] theorem exec_rcfree (f : XF) (s : State) : exec (.rcfree f) s = execRcfree f s := rfl
@[simp] theorem exec_rwb (f : XF) (s : State) : exec (.rwb f) s = execRwb f s := rfl
@[simp] theorem exec_rinv (f : XF) (s : State) : exec (.rinv f) s = execRinv f s := rfl
@[simp] theorem exec_resreq (f : MemF) (s : State) : exec (.resreq f) s = execResreq f s := rfl
@[simp] theorem exec_icinv (f : XF) (s : State) : exec (.icinv f) s = execIcinv f s := rfl
@[simp] theorem exec_phase (f : PlainI) (s : State) : exec (.phase f) s = execPhase f s := rfl
@[simp] theorem exec_qbind (f : XF) (s : State) : exec (.qbind f) s = execQbind f s := rfl
@[simp] theorem exec_qfree (f : XF) (s : State) : exec (.qfree f) s = execQfree f s := rfl
@[simp] theorem exec_qstat (f : PlainR) (s : State) : exec (.qstat f) s = execQstat f s := rfl
@[simp] theorem exec_barInit (f : XF) (s : State) : exec (.barInit f) s = execBarInit f s := rfl
@[simp] theorem exec_barArrive (f : XF) (s : State) : exec (.barArrive f) s = execBarArrive f s := rfl
@[simp] theorem exec_barWait (f : XF) (s : State) : exec (.barWait f) s = execBarWait f s := rfl
@[simp] theorem exec_barSync (f : XF) (s : State) : exec (.barSync f) s = execBarSync f s := rfl
@[simp] theorem exec_barExpect (f : XF) (s : State) : exec (.barExpect f) s = execBarExpect f s := rfl
@[simp] theorem exec_barTest (f : XF) (s : State) : exec (.barTest f) s = execBarTest f s := rfl
@[simp] theorem exec_own (f : XF) (s : State) : exec (.own f) s = execOwn f s := rfl
@[simp] theorem exec_waitc (f : PlainI) (s : State) : exec (.waitc f) s = execWaitc f s := rfl
@[simp] theorem exec_cpy (f : XF) (s : State) : exec (.cpy f) s = execCpy f s := rfl
@[simp] theorem exec_cpys (f : XF) (s : State) : exec (.cpys f) s = execCpys f s := rfl
@[simp] theorem exec_cpyd (f : XF) (s : State) : exec (.cpyd f) s = execCpyd f s := rfl
@[simp] theorem exec_cpywp (f : XF) (s : State) : exec (.cpywp f) s = execCpywp f s := rfl
@[simp] theorem exec_cpyx (f : XF) (s : State) : exec (.cpyx f) s = execCpyx f s := rfl
@[simp] theorem exec_cpyst (f : XF) (s : State) : exec (.cpyst f) s = execCpyst f s := rfl
@[simp] theorem exec_mxgo (f : XF) (s : State) : exec (.mxgo f) s = execMxgo f s := rfl
@[simp] theorem exec_mxgrd (f : XF) (s : State) : exec (.mxgrd f) s = execMxgrd f s := rfl
@[simp] theorem exec_mxrd (f : XF) (s : State) : exec (.mxrd f) s = execMxrd f s := rfl
@[simp] theorem exec_mxwr (f : XF) (s : State) : exec (.mxwr f) s = execMxwr f s := rfl
@[simp] theorem exec_mxclr (f : XF) (s : State) : exec (.mxclr f) s = execMxclr f s := rfl
@[simp] theorem exec_mxst (f : XF) (s : State) : exec (.mxst f) s = execMxst f s := rfl
@[simp] theorem exec_mxovf (f : XF) (s : State) : exec (.mxovf f) s = execMxovf f s := rfl
@[simp] theorem exec_mxcan (f : XF) (s : State) : exec (.mxcan f) s = execMxcan f s := rfl
@[simp] theorem exec_recld (f : XF) (s : State) : exec (.recld f) s = execRecld f s := rfl
@[simp] theorem exec_emit (f : XF) (s : State) : exec (.emit f) s = execEmit f s := rfl
@[simp] theorem exec_emitn (f : XF) (s : State) : exec (.emitn f) s = execEmitn f s := rfl
@[simp] theorem exec_nend (f : XF) (s : State) : exec (.nend f) s = execNend f s := rfl
@[simp] theorem exec_xzopen (f : XF) (s : State) : exec (.xzopen f) s = execXzopen f s := rfl
@[simp] theorem exec_xzwait (f : XF) (s : State) : exec (.xzwait f) s = execXzwait f s := rfl
@[simp] theorem exec_rngld (f : XF) (s : State) : exec (.rngld f) s = execRngld f s := rfl
@[simp] theorem exec_edgest (f : XF) (s : State) : exec (.edgest f) s = execEdgest f s := rfl
@[simp] theorem exec_svdiv (f : XF) (s : State) : exec (.svdiv f) s = execSvdiv f s := rfl
@[simp] theorem exec_rsdiv (f : XF) (s : State) : exec (.rsdiv f) s = execRsdiv f s := rfl
@[simp] theorem exec_qsave (f : XF) (s : State) : exec (.qsave f) s = execQsave f s := rfl
@[simp] theorem exec_qrest (f : XF) (s : State) : exec (.qrest f) s = execQrest f s := rfl
@[simp] theorem exec_bsave (f : XF) (s : State) : exec (.bsave f) s = execBsave f s := rfl
@[simp] theorem exec_brest (f : XF) (s : State) : exec (.brest f) s = execBrest f s := rfl
@[simp] theorem exec_kmov (f : XF) (s : State) : exec (.kmov f) s = execKmov f s := rfl
@[simp] theorem exec_hret (f : XF) (s : State) : exec (.hret f) s = execHret f s := rfl
@[simp] theorem exec_srd (f : XF) (s : State) : exec (.srd f) s = execSrd f s := rfl
@[simp] theorem exec_swr (f : XF) (s : State) : exec (.swr f) s = execSwr f s := rfl
@[simp] theorem exec_winrd (f : XF) (s : State) : exec (.winrd f) s = execWinrd f s := rfl
@[simp] theorem exec_winwr (f : XF) (s : State) : exec (.winwr f) s = execWinwr f s := rfl
@[simp] theorem exec_tlbinv (f : XF) (s : State) : exec (.tlbinv f) s = execTlbinv f s := rfl
@[simp] theorem exec_l1inv (f : XF) (s : State) : exec (.l1inv f) s = execL1inv f s := rfl
@[simp] theorem exec_halt (f : XF) (s : State) : exec (.halt f) s = execHalt f s := rfl
@[simp] theorem exec_mcack (f : XF) (s : State) : exec (.mcack f) s = execMcack f s := rfl
@[simp] theorem exec_watchCounterTick (die : Nat) (s : State) : exec (.watchCounterTick die) s = execWatchCounterTick die s := rfl
@[simp] theorem exec_issueTurn (die core quad : Nat) (s : State) : exec (.issueTurn die core quad) s = execIssueTurn die core quad s := rfl
@[simp] theorem exec_resultProduce (die core wave : Nat) (s : State) : exec (.resultProduce die core wave) s = execResultProduce die core wave s := rfl
@[simp] theorem exec_loadComplete (die core wave acc : Nat) (s : State) : exec (.loadComplete die core wave acc) s = execLoadComplete die core wave acc s := rfl
@[simp] theorem exec_storeComplete (die core wave acc : Nat) (s : State) : exec (.storeComplete die core wave acc) s = execStoreComplete die core wave acc s := rfl
@[simp] theorem exec_queuePush (die core : Nat) (s : State) : exec (.queuePush die core) s = execQueuePush die core s := rfl
@[simp] theorem exec_barrierDoneMsg (die core bar : Nat) (s : State) : exec (.barrierDoneMsg die core bar) s = execBarrierDoneMsg die core bar s := rfl
@[simp] theorem exec_sleepExpire (die core wave ctx : Nat) (s : State) : exec (.sleepExpire die core wave ctx) s = execSleepExpire die core wave ctx s := rfl
@[simp] theorem exec_futureAnswer (die slice : Nat) (s : State) : exec (.futureAnswer die slice) s = execFutureAnswer die slice s := rfl
@[simp] theorem exec_waveEnd (die core wave : Nat) (s : State) : exec (.waveEnd die core wave) s = execWaveEnd die core wave s := rfl
@[simp] theorem exec_groupRelease (die core gid : Nat) (s : State) : exec (.groupRelease die core gid) s = execGroupRelease die core gid s := rfl
@[simp] theorem exec_tailEnd (die core slot : Nat) (s : State) : exec (.tailEnd die core slot) s = execTailEnd die core slot s := rfl
@[simp] theorem exec_asyncStop (die core wave : Nat) (mc : Option McRec) (s : State) : exec (.asyncStop die core wave mc) s = execAsyncStop die core wave mc s := rfl
@[simp] theorem exec_trapPost (die core wave : Nat) (s : State) : exec (.trapPost die core wave) s = execTrapPost die core wave s := rfl
@[simp] theorem exec_copyChannelEnter (die core ch : Nat) (s : State) : exec (.copyChannelEnter die core ch) s = execCopyChannelEnter die core ch s := rfl
@[simp] theorem exec_copyRecordRead (die core ch : Nat) (s : State) : exec (.copyRecordRead die core ch) s = execCopyRecordRead die core ch s := rfl
@[simp] theorem exec_copyHeadStart (die core ch : Nat) (s : State) : exec (.copyHeadStart die core ch) s = execCopyHeadStart die core ch s := rfl
@[simp] theorem exec_copyLineDeliver (die core ch : Nat) (s : State) : exec (.copyLineDeliver die core ch) s = execCopyLineDeliver die core ch s := rfl
@[simp] theorem exec_copyStop (die core ch : Nat) (s : State) : exec (.copyStop die core ch) s = execCopyStop die core ch s := rfl
@[simp] theorem exec_mxQueueEnter (die core : Nat) (s : State) : exec (.mxQueueEnter die core) s = execMxQueueEnter die core s := rfl
@[simp] theorem exec_mxItemStart (die core : Nat) (s : State) : exec (.mxItemStart die core) s = execMxItemStart die core s := rfl
@[simp] theorem exec_mxQueueElement (die core : Nat) (s : State) : exec (.mxQueueElement die core) s = execMxQueueElement die core s := rfl
@[simp] theorem exec_mxJobComplete (die core : Nat) (s : State) : exec (.mxJobComplete die core) s = execMxJobComplete die core s := rfl
@[simp] theorem exec_mxResolution (die core : Nat) (s : State) : exec (.mxResolution die core) s = execMxResolution die core s := rfl
@[simp] theorem exec_mxItemStop (die core : Nat) (s : State) : exec (.mxItemStop die core) s = execMxItemStop die core s := rfl
@[simp] theorem exec_mxnodeRecord (die unit launch node : Nat) (s : State) : exec (.mxnodeRecord die unit launch node) s = execMxnodeRecord die unit launch node s := rfl
@[simp] theorem exec_gatherFull (die launch node : Nat) (s : State) : exec (.gatherFull die launch node) s = execGatherFull die launch node s := rfl
@[simp] theorem exec_inflowClose (die launch node : Nat) (s : State) : exec (.inflowClose die launch node) s = execInflowClose die launch node s := rfl
@[simp] theorem exec_gatherLinger (die launch node : Nat) (s : State) : exec (.gatherLinger die launch node) s = execGatherLinger die launch node s := rfl
@[simp] theorem exec_gatherSteal (die launch node : Nat) (s : State) : exec (.gatherSteal die launch node) s = execGatherSteal die launch node s := rfl
@[simp] theorem exec_groupPlace (die launch gno : Nat) (s : State) : exec (.groupPlace die launch gno) s = execGroupPlace die launch gno s := rfl
@[simp] theorem exec_launchComplete (launch : Nat) (s : State) : exec (.launchComplete launch) s = execLaunchComplete launch s := rfl
@[simp] theorem exec_carveRetire (launch : Nat) (s : State) : exec (.carveRetire launch) s = execCarveRetire launch s := rfl
@[simp] theorem exec_rasterTriangle (die : Nat) (s : State) : exec (.rasterTriangle die) s = execRasterTriangle die s := rfl
@[simp] theorem exec_rasterPassEnd (die : Nat) (s : State) : exec (.rasterPassEnd die) s = execRasterPassEnd die s := rfl
@[simp] theorem exec_rayTake (die unit launch node : Nat) (s : State) : exec (.rayTake die unit launch node) s = execRayTake die unit launch node s := rfl
@[simp] theorem exec_rayResult (die unit ray : Nat) (s : State) : exec (.rayResult die unit ray) s = execRayResult die unit ray s := rfl
@[simp] theorem exec_preemptRedirect (die core wave : Nat) (s : State) : exec (.preemptRedirect die core wave) s = execPreemptRedirect die core wave s := rfl
@[simp] theorem exec_restorePlace (die launch gno : Nat) (s : State) : exec (.restorePlace die launch gno) s = execRestorePlace die launch gno s := rfl
@[simp] theorem exec_wavePromote (die core wave : Nat) (s : State) : exec (.wavePromote die core wave) s = execWavePromote die core wave s := rfl
@[simp] theorem exec_fbFlush (die : Nat) (s : State) : exec (.fbFlush die) s = execFbFlush die s := rfl
@[simp] theorem exec_fbbaseWrite (die : Nat) (v : Dword) (s : State) : exec (.fbbaseWrite die v) s = execFbbaseWrite die v s := rfl
@[simp] theorem exec_registerWrite (ag : Agent) (at_ : RegAddr) (v : Dword) (s : State) : exec (.registerWrite ag at_ v) s = execRegisterWrite ag at_ v s := rfl
@[simp] theorem exec_bootVerify (b : BootSet) (s : State) : exec (.bootVerify b) s = execBootVerify b s := rfl
@[simp] theorem exec_halfBringup (half : Bool) (ok : Bool) (s : State) : exec (.halfBringup half ok) s = execHalfBringup half ok s := rfl
@[simp] theorem exec_stage3Entry (trained : Bool) (s : State) : exec (.stage3Entry trained) s = execStage3Entry trained s := rfl
@[simp] theorem exec_gddrRetrain (half ch : Nat) (failed : Bool) (s : State) : exec (.gddrRetrain half ch failed) s = execGddrRetrain half ch failed s := rfl
@[simp] theorem exec_linkReplay (what : LinkErr) (half ch : Nat) (s : State) : exec (.linkReplay what half ch) s = execLinkReplay what half ch s := rfl
@[simp] theorem exec_lineFetch (die core wave : Nat) (s : State) : exec (.lineFetch die core wave) s = execLineFetch die core wave s := rfl
@[simp] theorem exec_arbAgeing (pt : Nat) (s : State) : exec (.arbAgeing pt) s = execArbAgeing pt s := rfl
@[simp] theorem exec_arbGrant (pt : Nat) (arrivals : List ArbReq) (s : State) : exec (.arbGrant pt arrivals) s = execArbGrant pt arrivals s := rfl
@[simp] theorem exec_queueEligible (die core wave : Nat) (s : State) : exec (.queueEligible die core wave) s = execQueueEligible die core wave s := rfl
@[simp] theorem exec_splitChange (die core regg l1g : Nat) (s : State) : exec (.splitChange die core regg l1g) s = execSplitChange die core regg l1g s := rfl
@[simp] theorem exec_lrtailWrite (v : Word) (s : State) : exec (.lrtailWrite v) s = execLrtailWrite v s := rfl
@[simp] theorem exec_lrbaseWrite (v : Dword) (s : State) : exec (.lrbaseWrite v) s = execLrbaseWrite v s := rfl
@[simp] theorem exec_launchKill (what : KillReq) (core w : Nat) (s : State) : exec (.launchKill what core w) s = execLaunchKill what core w s := rfl
@[simp] theorem exec_preemptRequest (ctxid : Nat) (s : State) : exec (.preemptRequest ctxid) s = execPreemptRequest ctxid s := rfl
@[simp] theorem exec_shadowSwap (ctxid : Nat) (s : State) : exec (.shadowSwap ctxid) s = execShadowSwap ctxid s := rfl
@[simp] theorem exec_shadowRestore (ctxid : Nat) (s : State) : exec (.shadowRestore ctxid) s = execShadowRestore ctxid s := rfl
@[simp] theorem exec_redirectTimeout (die core wave : Nat) (s : State) : exec (.redirectTimeout die core wave) s = execRedirectTimeout die core wave s := rfl
@[simp] theorem exec_migrationOpen (old new size : Nat) (s : State) : exec (.migrationOpen old new size) s = execMigrationOpen old new size s := rfl
@[simp] theorem exec_migrationClose (old : Nat) (s : State) : exec (.migrationClose old) s = execMigrationClose old s := rfl
@[simp] theorem exec_bankToWarm (die bank : Nat) (s : State) : exec (.bankToWarm die bank) s = execBankToWarm die bank s := rfl
@[simp] theorem exec_bankCleanCold (die bank : Nat) (s : State) : exec (.bankCleanCold die bank) s = execBankCleanCold die bank s := rfl
@[simp] theorem exec_wakeRequest (die bank : Nat) (who : WakeReq) (background : Bool) (s : State) :
    exec (.wakeRequest die bank who background) s = execWakeRequest die bank who background s := rfl
@[simp] theorem exec_wakeWindow (die : Nat) (s : State) : exec (.wakeWindow die) s = execWakeWindow die s := rfl
@[simp] theorem exec_bankHot (die bank : Nat) (s : State) : exec (.bankHot die bank) s = execBankHot die bank s := rfl
@[simp] theorem exec_xdieTimeout (what : XReq) (s : State) : exec (.xdieTimeout what) s = execXdieTimeout what s := rfl
@[simp] theorem exec_xtmoWrite (die : Nat) (v : Word) (s : State) : exec (.xtmoWrite die v) s = execXtmoWrite die v s := rfl
@[simp] theorem exec_rayResumeWrite (die unit ray visits : Nat) (s : State) : exec (.rayResumeWrite die unit ray visits) s = execRayResumeWrite die unit ray visits s := rfl
@[simp] theorem exec_quoteGo (ag : Agent) (s : State) : exec (.quoteGo ag) s = execQuoteGo ag s := rfl
@[simp] theorem exec_protectedRootRequest (r : RootReq) (s : State) : exec (.protectedRootRequest r) s = execProtectedRootRequest r s := rfl
@[simp] theorem exec_vftWrite (ag : Agent) (rail e : Nat) (v : Word) (s : State) : exec (.vftWrite ag rail e v) s = execVftWrite ag rail e v s := rfl
@[simp] theorem exec_vfselWrite (ag : Agent) (rail : Nat) (v : Word) (s : State) : exec (.vfselWrite ag rail v) s = execVfselWrite ag rail v s := rfl
@[simp] theorem exec_pmctlWrite (ag : Agent) (v : Dword) (s : State) : exec (.pmctlWrite ag v) s = execPmctlWrite ag v s := rfl
@[simp] theorem exec_railChangeDone (rail : Nat) (s : State) : exec (.railChangeDone rail) s = execRailChangeDone rail s := rfl
@[simp] theorem exec_pmStep (dram : Nat) (s : State) : exec (.pmStep dram) s = execPmStep dram s := rfl
@[simp] theorem exec_wearUpdate (rail : Nat) (s : State) : exec (.wearUpdate rail) s = execWearUpdate rail s := rfl
@[simp] theorem exec_telemetrySample (t : Telemetry) (s : State) : exec (.telemetrySample t) s = execTelemetrySample t s := rfl
@[simp] theorem exec_stoppedClockEntry (die : Nat) (s : State) : exec (.stoppedClockEntry die) s = execStoppedClockEntry die s := rfl
@[simp] theorem exec_commandDieMemoryAccess (ag : Agent) (write : Bool) (pa n : Nat) (v : Nat) (s : State) : exec (.commandDieMemoryAccess ag write pa n v) s = execCommandDieMemoryAccess ag write pa n v s := rfl
@[simp] theorem exec_managementWaveStart (die m : Nat) (pc : Nat) (regs : Nat) (s : State) : exec (.managementWaveStart die m pc regs) s = execManagementWaveStart die m pc regs s := rfl
@[simp] theorem exec_coldReset (s : State) : exec .coldReset s = execColdReset s := rfl
@[simp] theorem exec_launchEntryConsume (s : State) : exec .launchEntryConsume s = execLaunchEntryConsume s := rfl
@[simp] theorem exec_launchArrive (s : State) : exec .launchArrive s = execLaunchArrive s := rfl
@[simp] theorem exec_quoteDone (s : State) : exec .quoteDone s = execQuoteDone s := rfl
@[simp] theorem exec_thermalTrip (s : State) : exec .thermalTrip s = execThermalTrip s := rfl
@[simp] theorem exec_tripRecovery (s : State) : exec .tripRecovery s = execTripRecovery s := rfl

@[simp] theorem hdr_add (f : IntR) : (Instr.add f).hdr? = some f.h := rfl
@[simp] theorem hdr_addRi (f : IntI) : (Instr.addRi f).hdr? = some f.h := rfl
@[simp] theorem hdr_sub (f : IntR) : (Instr.sub f).hdr? = some f.h := rfl
@[simp] theorem hdr_subRi (f : IntI) : (Instr.subRi f).hdr? = some f.h := rfl
@[simp] theorem hdr_mul (f : IntR) : (Instr.mul f).hdr? = some f.h := rfl
@[simp] theorem hdr_mulRi (f : IntI) : (Instr.mulRi f).hdr? = some f.h := rfl
@[simp] theorem hdr_mulhi (f : IntR) : (Instr.mulhi f).hdr? = some f.h := rfl
@[simp] theorem hdr_mad (f : IntR) : (Instr.mad f).hdr? = some f.h := rfl
@[simp] theorem hdr_div (f : IntR) : (Instr.div f).hdr? = some f.h := rfl
@[simp] theorem hdr_divRi (f : IntI) : (Instr.divRi f).hdr? = some f.h := rfl
@[simp] theorem hdr_rem (f : IntR) : (Instr.rem f).hdr? = some f.h := rfl
@[simp] theorem hdr_remRi (f : IntI) : (Instr.remRi f).hdr? = some f.h := rfl
@[simp] theorem hdr_neg (f : IntR) : (Instr.neg f).hdr? = some f.h := rfl
@[simp] theorem hdr_abs (f : IntR) : (Instr.abs f).hdr? = some f.h := rfl
@[simp] theorem hdr_min (f : IntR) : (Instr.min f).hdr? = some f.h := rfl
@[simp] theorem hdr_minRi (f : IntI) : (Instr.minRi f).hdr? = some f.h := rfl
@[simp] theorem hdr_max (f : IntR) : (Instr.max f).hdr? = some f.h := rfl
@[simp] theorem hdr_maxRi (f : IntI) : (Instr.maxRi f).hdr? = some f.h := rfl
@[simp] theorem hdr_clamp (f : IntR) : (Instr.clamp f).hdr? = some f.h := rfl
@[simp] theorem hdr_addc (f : IntR) : (Instr.addc f).hdr? = some f.h := rfl
@[simp] theorem hdr_subb (f : IntR) : (Instr.subb f).hdr? = some f.h := rfl
@[simp] theorem hdr_sad (f : IntR) : (Instr.sad f).hdr? = some f.h := rfl
@[simp] theorem hdr_dot4 (f : IntR) : (Instr.dot4 f).hdr? = some f.h := rfl
@[simp] theorem hdr_and (f : IntR) : (Instr.and f).hdr? = some f.h := rfl
@[simp] theorem hdr_andRi (f : IntI) : (Instr.andRi f).hdr? = some f.h := rfl
@[simp] theorem hdr_or (f : IntR) : (Instr.or f).hdr? = some f.h := rfl
@[simp] theorem hdr_orRi (f : IntI) : (Instr.orRi f).hdr? = some f.h := rfl
@[simp] theorem hdr_xor (f : IntR) : (Instr.xor f).hdr? = some f.h := rfl
@[simp] theorem hdr_xorRi (f : IntI) : (Instr.xorRi f).hdr? = some f.h := rfl
@[simp] theorem hdr_not (f : IntR) : (Instr.not f).hdr? = some f.h := rfl
@[simp] theorem hdr_andn (f : IntR) : (Instr.andn f).hdr? = some f.h := rfl
@[simp] theorem hdr_shl (f : IntR) : (Instr.shl f).hdr? = some f.h := rfl
@[simp] theorem hdr_shlRi (f : IntI) : (Instr.shlRi f).hdr? = some f.h := rfl
@[simp] theorem hdr_shr (f : IntR) : (Instr.shr f).hdr? = some f.h := rfl
@[simp] theorem hdr_shrRi (f : IntI) : (Instr.shrRi f).hdr? = some f.h := rfl
@[simp] theorem hdr_rot (f : IntR) : (Instr.rot f).hdr? = some f.h := rfl
@[simp] theorem hdr_rotRi (f : IntI) : (Instr.rotRi f).hdr? = some f.h := rfl
@[simp] theorem hdr_bfx (f : IntR) : (Instr.bfx f).hdr? = some f.h := rfl
@[simp] theorem hdr_bfxRi (f : IntI) : (Instr.bfxRi f).hdr? = some f.h := rfl
@[simp] theorem hdr_bfi (f : IntR) : (Instr.bfi f).hdr? = some f.h := rfl
@[simp] theorem hdr_bfiRi (f : IntI) : (Instr.bfiRi f).hdr? = some f.h := rfl
@[simp] theorem hdr_popc (f : IntR) : (Instr.popc f).hdr? = some f.h := rfl
@[simp] theorem hdr_clz (f : IntR) : (Instr.clz f).hdr? = some f.h := rfl
@[simp] theorem hdr_ctz (f : IntR) : (Instr.ctz f).hdr? = some f.h := rfl
@[simp] theorem hdr_brev (f : IntR) : (Instr.brev f).hdr? = some f.h := rfl
@[simp] theorem hdr_bpick (f : IntR) : (Instr.bpick f).hdr? = some f.h := rfl
@[simp] theorem hdr_bpickRi (f : IntI) : (Instr.bpickRi f).hdr? = some f.h := rfl
@[simp] theorem hdr_bfn (f : IntR) : (Instr.bfn f).hdr? = some f.h := rfl
@[simp] theorem hdr_mov (f : IntR) : (Instr.mov f).hdr? = some f.h := rfl
@[simp] theorem hdr_movRi (f : IntI) : (Instr.movRi f).hdr? = some f.h := rfl
@[simp] theorem hdr_sel (f : IntR) : (Instr.sel f).hdr? = some f.h := rfl
@[simp] theorem hdr_lea (f : IntR) : (Instr.lea f).hdr? = some f.h := rfl
@[simp] theorem hdr_leaRi (f : IntI) : (Instr.leaRi f).hdr? = some f.h := rfl
@[simp] theorem hdr_sadd (f : IntR) : (Instr.sadd f).hdr? = some f.h := rfl
@[simp] theorem hdr_saddRi (f : IntI) : (Instr.saddRi f).hdr? = some f.h := rfl
@[simp] theorem hdr_afset (f : IntR) : (Instr.afset f).hdr? = some f.h := rfl
@[simp] theorem hdr_afsetRi (f : IntI) : (Instr.afsetRi f).hdr? = some f.h := rfl
@[simp] theorem hdr_aftest (f : IntR) : (Instr.aftest f).hdr? = some f.h := rfl
@[simp] theorem hdr_afclr (f : IntR) : (Instr.afclr f).hdr? = some f.h := rfl
@[simp] theorem hdr_fadd (f : FltR) : (Instr.fadd f).hdr? = some f.h := rfl
@[simp] theorem hdr_faddRi (f : FltI) : (Instr.faddRi f).hdr? = some f.h := rfl
@[simp] theorem hdr_fsub (f : FltR) : (Instr.fsub f).hdr? = some f.h := rfl
@[simp] theorem hdr_fsubRi (f : FltI) : (Instr.fsubRi f).hdr? = some f.h := rfl
@[simp] theorem hdr_fmul (f : FltR) : (Instr.fmul f).hdr? = some f.h := rfl
@[simp] theorem hdr_fmulRi (f : FltI) : (Instr.fmulRi f).hdr? = some f.h := rfl
@[simp] theorem hdr_ffma (f : FltR) : (Instr.ffma f).hdr? = some f.h := rfl
@[simp] theorem hdr_fmin (f : FltR) : (Instr.fmin f).hdr? = some f.h := rfl
@[simp] theorem hdr_fminRi (f : FltI) : (Instr.fminRi f).hdr? = some f.h := rfl
@[simp] theorem hdr_fmax (f : FltR) : (Instr.fmax f).hdr? = some f.h := rfl
@[simp] theorem hdr_fmaxRi (f : FltI) : (Instr.fmaxRi f).hdr? = some f.h := rfl
@[simp] theorem hdr_fabs (f : FltR) : (Instr.fabs f).hdr? = some f.h := rfl
@[simp] theorem hdr_fneg (f : FltR) : (Instr.fneg f).hdr? = some f.h := rfl
@[simp] theorem hdr_fclamp (f : FltR) : (Instr.fclamp f).hdr? = some f.h := rfl
@[simp] theorem hdr_fdiv (f : FltR) : (Instr.fdiv f).hdr? = some f.h := rfl
@[simp] theorem hdr_fsqrt (f : FltR) : (Instr.fsqrt f).hdr? = some f.h := rfl
@[simp] theorem hdr_frcp (f : FltR) : (Instr.frcp f).hdr? = some f.h := rfl
@[simp] theorem hdr_frsq (f : FltR) : (Instr.frsq f).hdr? = some f.h := rfl
@[simp] theorem hdr_fex2 (f : FltR) : (Instr.fex2 f).hdr? = some f.h := rfl
@[simp] theorem hdr_flg2 (f : FltR) : (Instr.flg2 f).hdr? = some f.h := rfl
@[simp] theorem hdr_fsin (f : FltR) : (Instr.fsin f).hdr? = some f.h := rfl
@[simp] theorem hdr_fcos (f : FltR) : (Instr.fcos f).hdr? = some f.h := rfl
@[simp] theorem hdr_ftanh (f : FltR) : (Instr.ftanh f).hdr? = some f.h := rfl
@[simp] theorem hdr_ffloor (f : FltR) : (Instr.ffloor f).hdr? = some f.h := rfl
@[simp] theorem hdr_fceil (f : FltR) : (Instr.fceil f).hdr? = some f.h := rfl
@[simp] theorem hdr_ftrunc (f : FltR) : (Instr.ftrunc f).hdr? = some f.h := rfl
@[simp] theorem hdr_frint (f : FltR) : (Instr.frint f).hdr? = some f.h := rfl
@[simp] theorem hdr_ffrac (f : FltR) : (Instr.ffrac f).hdr? = some f.h := rfl
@[simp] theorem hdr_fcsgn (f : FltR) : (Instr.fcsgn f).hdr? = some f.h := rfl
@[simp] theorem hdr_fscale (f : FltR) : (Instr.fscale f).hdr? = some f.h := rfl
@[simp] theorem hdr_fgetexp (f : FltR) : (Instr.fgetexp f).hdr? = some f.h := rfl
@[simp] theorem hdr_fclass (f : FltR) : (Instr.fclass f).hdr? = some f.h := rfl
@[simp] theorem hdr_fdot2 (f : FltR) : (Instr.fdot2 f).hdr? = some f.h := rfl
@[simp] theorem hdr_cvt (f : CvtR) : (Instr.cvt f).hdr? = some f.h := rfl
@[simp] theorem hdr_fpack (f : CvtR) : (Instr.fpack f).hdr? = some f.h := rfl
@[simp] theorem hdr_fsplit (f : CvtR) : (Instr.fsplit f).hdr? = some f.h := rfl
@[simp] theorem hdr_cmp (f : CmpR) : (Instr.cmp f).hdr? = some f.h := rfl
@[simp] theorem hdr_cmpRi (f : CmpI) : (Instr.cmpRi f).hdr? = some f.h := rfl
@[simp] theorem hdr_cmpm (f : CmpR) : (Instr.cmpm f).hdr? = some f.h := rfl
@[simp] theorem hdr_cmpmRi (f : CmpI) : (Instr.cmpmRi f).hdr? = some f.h := rfl
@[simp] theorem hdr_lxch (f : IntR) : (Instr.lxch f).hdr? = some f.h := rfl
@[simp] theorem hdr_lxchRi (f : IntI) : (Instr.lxchRi f).hdr? = some f.h := rfl
@[simp] theorem hdr_vote (f : IntR) : (Instr.vote f).hdr? = some f.h := rfl
@[simp] theorem hdr_lred (f : IntR) : (Instr.lred f).hdr? = some f.h := rfl
@[simp] theorem hdr_lscan (f : IntR) : (Instr.lscan f).hdr? = some f.h := rfl
@[simp] theorem hdr_lmatch (f : IntR) : (Instr.lmatch f).hdr? = some f.h := rfl
@[simp] theorem hdr_elect (f : IntR) : (Instr.elect f).hdr? = some f.h := rfl
@[simp] theorem hdr_rdlane (f : IntR) : (Instr.rdlane f).hdr? = some f.h := rfl
@[simp] theorem hdr_rdlaneRi (f : IntI) : (Instr.rdlaneRi f).hdr? = some f.h := rfl
@[simp] theorem hdr_wrlane (f : IntR) : (Instr.wrlane f).hdr? = some f.h := rfl
@[simp] theorem hdr_nop (f : PlainR) : (Instr.nop f).hdr? = some f.h := rfl
@[simp] theorem hdr_br (f : BrF) : (Instr.br f).hdr? = some f.h := rfl
@[simp] theorem hdr_brc (f : BrF) : (Instr.brc f).hdr? = some f.h := rfl
@[simp] theorem hdr_brany (f : BrF) : (Instr.brany f).hdr? = some f.h := rfl
@[simp] theorem hdr_brall (f : BrF) : (Instr.brall f).hdr? = some f.h := rfl
@[simp] theorem hdr_jtab (f : XF) : (Instr.jtab f).hdr? = some f.h := rfl
@[simp] theorem hdr_call (f : BrF) : (Instr.call f).hdr? = some f.h := rfl
@[simp] theorem hdr_callt (f : XF) : (Instr.callt f).hdr? = some f.h := rfl
@[simp] theorem hdr_ret (f : PlainR) : (Instr.ret f).hdr? = some f.h := rfl
@[simp] theorem hdr_lpad (f : PlainI) : (Instr.lpad f).hdr? = some f.h := rfl
@[simp] theorem hdr_baton (f : PlainI) : (Instr.baton f).hdr? = some f.h := rfl
@[simp] theorem hdr_fjoin (f : PlainR) : (Instr.fjoin f).hdr? = some f.h := rfl
@[simp] theorem hdr_exit (f : PlainR) : (Instr.exit f).hdr? = some f.h := rfl
@[simp] theorem hdr_trap (f : PlainI) : (Instr.trap f).hdr? = some f.h := rfl
@[simp] theorem hdr_brk (f : PlainI) : (Instr.brk f).hdr? = some f.h := rfl
@[simp] theorem hdr_sleep (f : PlainI) : (Instr.sleep f).hdr? = some f.h := rfl
@[simp] theorem hdr_ld (f : MemF) : (Instr.ld f).hdr? = some f.h := rfl
@[simp] theorem hdr_lds (f : MemF) : (Instr.lds f).hdr? = some f.h := rfl
@[simp] theorem hdr_ldc (f : MemF) : (Instr.ldc f).hdr? = some f.h := rfl
@[simp] theorem hdr_st (f : MemF) : (Instr.st f).hdr? = some f.h := rfl
@[simp] theorem hdr_sts (f : MemF) : (Instr.sts f).hdr? = some f.h := rfl
@[simp] theorem hdr_stc (f : MemF) : (Instr.stc f).hdr? = some f.h := rfl
@[simp] theorem hdr_pf (f : MemF) : (Instr.pf f).hdr? = some f.h := rfl
@[simp] theorem hdr_ldt (f : XF) : (Instr.ldt f).hdr? = some f.h := rfl
@[simp] theorem hdr_stt (f : XF) : (Instr.stt f).hdr? = some f.h := rfl
@[simp] theorem hdr_atom (f : MemF) : (Instr.atom f).hdr? = some f.h := rfl
@[simp] theorem hdr_atoms (f : MemF) : (Instr.atoms f).hdr? = some f.h := rfl
@[simp] theorem hdr_atomc (f : MemF) : (Instr.atomc f).hdr? = some f.h := rfl
@[simp] theorem hdr_cas (f : MemF) : (Instr.cas f).hdr? = some f.h := rfl
@[simp] theorem hdr_cass (f : MemF) : (Instr.cass f).hdr? = some f.h := rfl
@[simp] theorem hdr_red (f : MemF) : (Instr.red f).hdr? = some f.h := rfl
@[simp] theorem hdr_futld (f : MemF) : (Instr.futld f).hdr? = some f.h := rfl
@[simp] theorem hdr_futst (f : MemF) : (Instr.futst f).hdr? = some f.h := rfl
@[simp] theorem hdr_futtry (f : MemF) : (Instr.futtry f).hdr? = some f.h := rfl
@[simp] theorem hdr_futclr (f : MemF) : (Instr.futclr f).hdr? = some f.h := rfl
@[simp] theorem hdr_sbind (f : XF) : (Instr.sbind f).hdr? = some f.h := rfl
@[simp] theorem hdr_sfree (f : XF) : (Instr.sfree f).hdr? = some f.h := rfl
@[simp] theorem hdr_acq (f : MemF) : (Instr.acq f).hdr? = some f.h := rfl
@[simp] theorem hdr_rel (f : MemF) : (Instr.rel f).hdr? = some f.h := rfl
@[simp] theorem hdr_fence (f : MemF) : (Instr.fence f).hdr? = some f.h := rfl
@[simp] theorem hdr_rcell (f : XF) : (Instr.rcell f).hdr? = some f.h := rfl
@[simp] theorem hdr_rcfree (f : XF) : (Instr.rcfree f).hdr? = some f.h := rfl
@[simp] theorem hdr_rwb (f : XF) : (Instr.rwb f).hdr? = some f.h := rfl
@[simp] theorem hdr_rinv (f : XF) : (Instr.rinv f).hdr? = some f.h := rfl
@[simp] theorem hdr_resreq (f : MemF) : (Instr.resreq f).hdr? = some f.h := rfl
@[simp] theorem hdr_icinv (f : XF) : (Instr.icinv f).hdr? = some f.h := rfl
@[simp] theorem hdr_phase (f : PlainI) : (Instr.phase f).hdr? = some f.h := rfl
@[simp] theorem hdr_qbind (f : XF) : (Instr.qbind f).hdr? = some f.h := rfl
@[simp] theorem hdr_qfree (f : XF) : (Instr.qfree f).hdr? = some f.h := rfl
@[simp] theorem hdr_qstat (f : PlainR) : (Instr.qstat f).hdr? = some f.h := rfl
@[simp] theorem hdr_barInit (f : XF) : (Instr.barInit f).hdr? = some f.h := rfl
@[simp] theorem hdr_barArrive (f : XF) : (Instr.barArrive f).hdr? = some f.h := rfl
@[simp] theorem hdr_barWait (f : XF) : (Instr.barWait f).hdr? = some f.h := rfl
@[simp] theorem hdr_barSync (f : XF) : (Instr.barSync f).hdr? = some f.h := rfl
@[simp] theorem hdr_barExpect (f : XF) : (Instr.barExpect f).hdr? = some f.h := rfl
@[simp] theorem hdr_barTest (f : XF) : (Instr.barTest f).hdr? = some f.h := rfl
@[simp] theorem hdr_own (f : XF) : (Instr.own f).hdr? = some f.h := rfl
@[simp] theorem hdr_waitc (f : PlainI) : (Instr.waitc f).hdr? = some f.h := rfl
@[simp] theorem hdr_cpy (f : XF) : (Instr.cpy f).hdr? = some f.h := rfl
@[simp] theorem hdr_cpys (f : XF) : (Instr.cpys f).hdr? = some f.h := rfl
@[simp] theorem hdr_cpyd (f : XF) : (Instr.cpyd f).hdr? = some f.h := rfl
@[simp] theorem hdr_cpywp (f : XF) : (Instr.cpywp f).hdr? = some f.h := rfl
@[simp] theorem hdr_cpyx (f : XF) : (Instr.cpyx f).hdr? = some f.h := rfl
@[simp] theorem hdr_cpyst (f : XF) : (Instr.cpyst f).hdr? = some f.h := rfl
@[simp] theorem hdr_mxgo (f : XF) : (Instr.mxgo f).hdr? = some f.h := rfl
@[simp] theorem hdr_mxgrd (f : XF) : (Instr.mxgrd f).hdr? = some f.h := rfl
@[simp] theorem hdr_mxrd (f : XF) : (Instr.mxrd f).hdr? = some f.h := rfl
@[simp] theorem hdr_mxwr (f : XF) : (Instr.mxwr f).hdr? = some f.h := rfl
@[simp] theorem hdr_mxclr (f : XF) : (Instr.mxclr f).hdr? = some f.h := rfl
@[simp] theorem hdr_mxst (f : XF) : (Instr.mxst f).hdr? = some f.h := rfl
@[simp] theorem hdr_mxovf (f : XF) : (Instr.mxovf f).hdr? = some f.h := rfl
@[simp] theorem hdr_mxcan (f : XF) : (Instr.mxcan f).hdr? = some f.h := rfl
@[simp] theorem hdr_recld (f : XF) : (Instr.recld f).hdr? = some f.h := rfl
@[simp] theorem hdr_emit (f : XF) : (Instr.emit f).hdr? = some f.h := rfl
@[simp] theorem hdr_emitn (f : XF) : (Instr.emitn f).hdr? = some f.h := rfl
@[simp] theorem hdr_nend (f : XF) : (Instr.nend f).hdr? = some f.h := rfl
@[simp] theorem hdr_xzopen (f : XF) : (Instr.xzopen f).hdr? = some f.h := rfl
@[simp] theorem hdr_xzwait (f : XF) : (Instr.xzwait f).hdr? = some f.h := rfl
@[simp] theorem hdr_rngld (f : XF) : (Instr.rngld f).hdr? = some f.h := rfl
@[simp] theorem hdr_edgest (f : XF) : (Instr.edgest f).hdr? = some f.h := rfl
@[simp] theorem hdr_svdiv (f : XF) : (Instr.svdiv f).hdr? = some f.h := rfl
@[simp] theorem hdr_rsdiv (f : XF) : (Instr.rsdiv f).hdr? = some f.h := rfl
@[simp] theorem hdr_qsave (f : XF) : (Instr.qsave f).hdr? = some f.h := rfl
@[simp] theorem hdr_qrest (f : XF) : (Instr.qrest f).hdr? = some f.h := rfl
@[simp] theorem hdr_bsave (f : XF) : (Instr.bsave f).hdr? = some f.h := rfl
@[simp] theorem hdr_brest (f : XF) : (Instr.brest f).hdr? = some f.h := rfl
@[simp] theorem hdr_kmov (f : XF) : (Instr.kmov f).hdr? = some f.h := rfl
@[simp] theorem hdr_hret (f : XF) : (Instr.hret f).hdr? = some f.h := rfl
@[simp] theorem hdr_srd (f : XF) : (Instr.srd f).hdr? = some f.h := rfl
@[simp] theorem hdr_swr (f : XF) : (Instr.swr f).hdr? = some f.h := rfl
@[simp] theorem hdr_winrd (f : XF) : (Instr.winrd f).hdr? = some f.h := rfl
@[simp] theorem hdr_winwr (f : XF) : (Instr.winwr f).hdr? = some f.h := rfl
@[simp] theorem hdr_tlbinv (f : XF) : (Instr.tlbinv f).hdr? = some f.h := rfl
@[simp] theorem hdr_l1inv (f : XF) : (Instr.l1inv f).hdr? = some f.h := rfl
@[simp] theorem hdr_halt (f : XF) : (Instr.halt f).hdr? = some f.h := rfl
@[simp] theorem hdr_mcack (f : XF) : (Instr.mcack f).hdr? = some f.h := rfl

end Sys2Proof.Machine
end

