-- ==== Sys2Proof/Laws/Map.lean ====
section
/-!
SUPPORT. Laws/Map.lean: what reading after writing gives, and that every operation keeps the canonical form.
-/
namespace Sys2Proof

variable {α : Type}

@[simp] theorem FMap.get_nil (d : α) (k : Nat) : FMap.get d ([] : FMap α) k = d := rfl

theorem FMap.get_insert (d : α) (m : FMap α) (k a : Nat) (v : α) :
    FMap.get d (m.insert k v) a = if a = k then v else FMap.get d m a := by
  induction m with
  | nil => simp only [insert, get, eq_comm]
  | cons p r ih =>
    obtain ⟨k', v'⟩ := p
    simp only [insert]
    split
    · simp only [get, eq_comm]
    · split
      · rename_i h
        subst h
        simp only [get, eq_comm]
        split <;> rfl
      · rename_i h
        simp only [get, ih]
        split
        · rename_i h2
          subst h2
          simp [h]
        · rfl

theorem FMap.get_erase (d : α) (m : FMap α) (k a : Nat) :
    FMap.get d (m.erase k) a = if a = k then d else FMap.get d m a := by
  induction m with
  | nil => simp [erase, get]
  | cons p r ih =>
    obtain ⟨k', v'⟩ := p
    simp only [erase, List.filter_cons] at ih ⊢
    by_cases h : k' = k
    · subst h
      simp only [ne_eq, not_true_eq_false, decide_false, Bool.false_eq_true, if_false, get]
      rw [ih]
      by_cases h2 : a = k'
      · simp [h2]
      · simp [h2, Ne.symm h2]
    · simp only [ne_eq, h, not_false_eq_true, decide_true, if_true, get]
      rw [ih]
      by_cases h2 : k' = a
      · subst h2; simp [h]
      · simp [h2]

/-- Reading after writing. -/
theorem FMap.get_set [DecidableEq α] (d : α) (m : FMap α) (k a : Nat) (v : α) :
    FMap.get d (m.set d k v) a = if a = k then v else FMap.get d m a := by
  unfold set
  split
  · rename_i h; rw [get_erase, h]
  · exact get_insert d m k a v

@[simp] theorem FMap.get_set_same [DecidableEq α] (d : α) (m : FMap α) (k : Nat) (v : α) :
    FMap.get d (m.set d k v) k = v := by simp [get_set]

theorem FMap.get_set_ne [DecidableEq α] (d : α) (m : FMap α) {k a : Nat} (v : α) (h : a ≠ k) :
    FMap.get d (m.set d k v) a = FMap.get d m a := by simp [get_set, h]

theorem FMap.sorted_cons_iff (p : Nat × α) (r : FMap α) :
    FMap.sorted (p :: r) = true ↔ (∀ q ∈ r, p.1 < q.1) ∧ FMap.sorted r = true := by
  induction r generalizing p with
  | nil => simp [sorted]
  | cons q r ih =>
    simp only [sorted, Bool.and_eq_true, decide_eq_true_eq, List.mem_cons, forall_eq_or_imp]
    rw [ih]
    constructor
    · rintro ⟨h1, h2, h3⟩
      exact ⟨⟨h1, fun x hx => lt_trans h1 (h2 x hx)⟩, h2, h3⟩
    · rintro ⟨⟨h1, _⟩, h2, h3⟩
      exact ⟨h1, h2, h3⟩

theorem FMap.mem_insert {m : FMap α} {k : Nat} {v : α} {q : Nat × α} (h : q ∈ m.insert k v) :
    q = (k, v) ∨ q ∈ m := by
  induction m with
  | nil => simpa [insert] using h
  | cons p r ih =>
    obtain ⟨k', v'⟩ := p
    simp only [insert] at h
    split at h
    · simpa using h
    · split at h
      · rcases List.mem_cons.1 h with h | h
        · exact .inl h
        · exact .inr (List.mem_cons_of_mem _ h)
      · rcases List.mem_cons.1 h with h | h
        · exact .inr (h ▸ List.mem_cons_self)
        · exact (ih h).imp id (List.mem_cons_of_mem _)

theorem FMap.sorted_insert {m : FMap α} (h : m.sorted = true) (k : Nat) (v : α) :
    (m.insert k v).sorted = true := by
  induction m with
  | nil => rfl
  | cons p r ih =>
    obtain ⟨k', v'⟩ := p
    obtain ⟨h1, h2⟩ := (sorted_cons_iff _ _).1 h
    simp only [insert]
    split
    · rename_i hk
      refine (sorted_cons_iff _ _).2 ⟨?_, h⟩
      intro q hq
      rcases List.mem_cons.1 hq with hq | hq
      · subst hq; exact hk
      · exact lt_trans hk (h1 q hq)
    · split
      · rename_i hk
        subst hk
        exact (sorted_cons_iff _ _).2 ⟨h1, h2⟩
      · rename_i hk1 hk2
        refine (sorted_cons_iff _ _).2 ⟨?_, ih h2⟩
        intro q hq
        rcases mem_insert hq with hq | hq
        · subst hq; simp only; omega
        · exact h1 q hq

theorem FMap.sorted_filter {m : FMap α} (h : m.sorted = true) (f : Nat × α → Bool) :
    FMap.sorted (m.filter f) = true := by
  induction m with
  | nil => rfl
  | cons p r ih =>
    obtain ⟨h1, h2⟩ := (sorted_cons_iff _ _).1 h
    rw [List.filter_cons]
    split
    · exact (sorted_cons_iff _ _).2 ⟨fun q hq => h1 q (List.mem_filter.1 hq).1, ih h2⟩
    · exact ih h2

/-- Writing keeps the canonical form. -/
theorem FMap.wf_set [DecidableEq α] {d : α} {m : FMap α} (h : m.wf d = true) (k : Nat) (v : α) :
    (m.set d k v).wf d = true := by
  simp only [wf, Bool.and_eq_true, List.all_eq_true, decide_eq_true_eq] at h ⊢
  unfold set
  split
  · exact ⟨sorted_filter h.1 _, fun q hq => h.2 q (List.mem_filter.1 hq).1⟩
  · rename_i hv
    refine ⟨sorted_insert h.1 k v, fun q hq => ?_⟩
    rcases mem_insert hq with hq | hq
    · subst hq; exact hv
    · exact h.2 q hq

theorem FMap.wf_setMany [DecidableEq α] {d : α} (l : List (Nat × α)) {m : FMap α} (h : m.wf d = true) :
    (m.setMany d l).wf d = true := by
  induction l generalizing m with
  | nil => exact h
  | cons p r ih => exact ih (wf_set h p.1 p.2)

@[simp] theorem FMap.wf_nil [DecidableEq α] (d : α) : FMap.wf d ([] : FMap α) = true := rfl

end Sys2Proof
end

