-- ==== Sys2Proof/Laws/State.lean ====
section
/-!
SUPPORT. Laws/State.lean: what each update of the state does to each of its parts.
-/
namespace Sys2Proof.Machine

/-! ## Reading a place after an update -/

theorem State.wave_setWave (s : State) (k : Nat) (v : Wave) (a : Nat) :
    (s.setWave k v).wave a = if a = k then v else s.wave a := FMap.get_set _ _ _ _ _
@[simp] theorem State.wave_setWave_same (s : State) (k : Nat) (v : Wave) : (s.setWave k v).wave k = v := FMap.get_set_same _ _ _ _
theorem State.wave_setWave_ne (s : State) {k a : Nat} (v : Wave) (h : a ≠ k) : (s.setWave k v).wave a = s.wave a := FMap.get_set_ne _ _ _ h
theorem State.wave_modWave (s : State) (k : Nat) (f : Wave → Wave) (a : Nat) :
    (s.modWave k f).wave a = if a = k then f (s.wave k) else s.wave a := FMap.get_set _ _ _ _ _
@[simp] theorem State.wave_modWave_same (s : State) (k : Nat) (f : Wave → Wave) : (s.modWave k f).wave k = f (s.wave k) := FMap.get_set_same _ _ _ _
theorem State.wave_modWave_ne (s : State) {k a : Nat} (f : Wave → Wave) (h : a ≠ k) : (s.modWave k f).wave a = s.wave a := FMap.get_set_ne _ _ _ h

theorem State.core_setCore (s : State) (k : Nat) (v : Core) (a : Nat) :
    (s.setCore k v).core a = if a = k then v else s.core a := FMap.get_set _ _ _ _ _
@[simp] theorem State.core_setCore_same (s : State) (k : Nat) (v : Core) : (s.setCore k v).core k = v := FMap.get_set_same _ _ _ _
theorem State.core_setCore_ne (s : State) {k a : Nat} (v : Core) (h : a ≠ k) : (s.setCore k v).core a = s.core a := FMap.get_set_ne _ _ _ h
theorem State.core_modCore (s : State) (k : Nat) (f : Core → Core) (a : Nat) :
    (s.modCore k f).core a = if a = k then f (s.core k) else s.core a := FMap.get_set _ _ _ _ _
@[simp] theorem State.core_modCore_same (s : State) (k : Nat) (f : Core → Core) : (s.modCore k f).core k = f (s.core k) := FMap.get_set_same _ _ _ _
theorem State.core_modCore_ne (s : State) {k a : Nat} (f : Core → Core) (h : a ≠ k) : (s.modCore k f).core a = s.core a := FMap.get_set_ne _ _ _ h

theorem State.tail_setTail (s : State) (k : Nat) (v : Tail) (a : Nat) :
    (s.setTail k v).tail a = if a = k then v else s.tail a := FMap.get_set _ _ _ _ _
@[simp] theorem State.tail_setTail_same (s : State) (k : Nat) (v : Tail) : (s.setTail k v).tail k = v := FMap.get_set_same _ _ _ _
theorem State.tail_setTail_ne (s : State) {k a : Nat} (v : Tail) (h : a ≠ k) : (s.setTail k v).tail a = s.tail a := FMap.get_set_ne _ _ _ h
theorem State.tail_modTail (s : State) (k : Nat) (f : Tail → Tail) (a : Nat) :
    (s.modTail k f).tail a = if a = k then f (s.tail k) else s.tail a := FMap.get_set _ _ _ _ _
@[simp] theorem State.tail_modTail_same (s : State) (k : Nat) (f : Tail → Tail) : (s.modTail k f).tail k = f (s.tail k) := FMap.get_set_same _ _ _ _
theorem State.tail_modTail_ne (s : State) {k a : Nat} (f : Tail → Tail) (h : a ≠ k) : (s.modTail k f).tail a = s.tail a := FMap.get_set_ne _ _ _ h

theorem State.die_setDie (s : State) (k : Nat) (v : Die) (a : Nat) :
    (s.setDie k v).die a = if a = k then v else s.die a := FMap.get_set _ _ _ _ _
@[simp] theorem State.die_setDie_same (s : State) (k : Nat) (v : Die) : (s.setDie k v).die k = v := FMap.get_set_same _ _ _ _
theorem State.die_setDie_ne (s : State) {k a : Nat} (v : Die) (h : a ≠ k) : (s.setDie k v).die a = s.die a := FMap.get_set_ne _ _ _ h
theorem State.die_modDie (s : State) (k : Nat) (f : Die → Die) (a : Nat) :
    (s.modDie k f).die a = if a = k then f (s.die k) else s.die a := FMap.get_set _ _ _ _ _
@[simp] theorem State.die_modDie_same (s : State) (k : Nat) (f : Die → Die) : (s.modDie k f).die k = f (s.die k) := FMap.get_set_same _ _ _ _
theorem State.die_modDie_ne (s : State) {k a : Nat} (f : Die → Die) (h : a ≠ k) : (s.modDie k f).die a = s.die a := FMap.get_set_ne _ _ _ h

/-! ## The parts that an update leaves alone -/

@[simp] theorem State.core_setWave (s : State) (k : Nat) (v : Wave) (a : Nat) : (s.setWave k v).core a = s.core a := rfl
@[simp] theorem State.core_modWave (s : State) (k : Nat) (v : Wave → Wave) (a : Nat) : (s.modWave k v).core a = s.core a := rfl
@[simp] theorem State.tail_setWave (s : State) (k : Nat) (v : Wave) (a : Nat) : (s.setWave k v).tail a = s.tail a := rfl
@[simp] theorem State.tail_modWave (s : State) (k : Nat) (v : Wave → Wave) (a : Nat) : (s.modWave k v).tail a = s.tail a := rfl
@[simp] theorem State.die_setWave (s : State) (k : Nat) (v : Wave) (a : Nat) : (s.setWave k v).die a = s.die a := rfl
@[simp] theorem State.die_modWave (s : State) (k : Nat) (v : Wave → Wave) (a : Nat) : (s.modWave k v).die a = s.die a := rfl
@[simp] theorem State.mem_setWave (s : State) (k : Nat) (v : Wave) : (s.setWave k v).mem = s.mem := rfl
@[simp] theorem State.mem_modWave (s : State) (k : Nat) (v : Wave → Wave) : (s.modWave k v).mem = s.mem := rfl
@[simp] theorem State.empties_setWave (s : State) (k : Nat) (v : Wave) : (s.setWave k v).empties = s.empties := rfl
@[simp] theorem State.empties_modWave (s : State) (k : Nat) (v : Wave → Wave) : (s.modWave k v).empties = s.empties := rfl
@[simp] theorem State.absent_setWave (s : State) (k : Nat) (v : Wave) : (s.setWave k v).absent = s.absent := rfl
@[simp] theorem State.absent_modWave (s : State) (k : Nat) (v : Wave → Wave) : (s.modWave k v).absent = s.absent := rfl
@[simp] theorem State.cells_setWave (s : State) (k : Nat) (v : Wave) : (s.setWave k v).cells = s.cells := rfl
@[simp] theorem State.cells_modWave (s : State) (k : Nat) (v : Wave → Wave) : (s.modWave k v).cells = s.cells := rfl
@[simp] theorem State.regions_setWave (s : State) (k : Nat) (v : Wave) : (s.setWave k v).regions = s.regions := rfl
@[simp] theorem State.regions_modWave (s : State) (k : Nat) (v : Wave → Wave) : (s.modWave k v).regions = s.regions := rfl
@[simp] theorem State.migs_setWave (s : State) (k : Nat) (v : Wave) : (s.setWave k v).migs = s.migs := rfl
@[simp] theorem State.migs_modWave (s : State) (k : Nat) (v : Wave → Wave) : (s.modWave k v).migs = s.migs := rfl
@[simp] theorem State.cores_setWave (s : State) (k : Nat) (v : Wave) : (s.setWave k v).cores = s.cores := rfl
@[simp] theorem State.cores_modWave (s : State) (k : Nat) (v : Wave → Wave) : (s.modWave k v).cores = s.cores := rfl
@[simp] theorem State.tails_setWave (s : State) (k : Nat) (v : Wave) : (s.setWave k v).tails = s.tails := rfl
@[simp] theorem State.tails_modWave (s : State) (k : Nat) (v : Wave → Wave) : (s.modWave k v).tails = s.tails := rfl
@[simp] theorem State.dies_setWave (s : State) (k : Nat) (v : Wave) : (s.setWave k v).dies = s.dies := rfl
@[simp] theorem State.dies_modWave (s : State) (k : Nat) (v : Wave → Wave) : (s.modWave k v).dies = s.dies := rfl
@[simp] theorem State.defer_setWave (s : State) (k : Nat) (v : Wave) : (s.setWave k v).defer = s.defer := rfl
@[simp] theorem State.defer_modWave (s : State) (k : Nat) (v : Wave → Wave) : (s.modWave k v).defer = s.defer := rfl
@[simp] theorem State.launches_setWave (s : State) (k : Nat) (v : Wave) : (s.setWave k v).launches = s.launches := rfl
@[simp] theorem State.launches_modWave (s : State) (k : Nat) (v : Wave → Wave) : (s.modWave k v).launches = s.launches := rfl
@[simp] theorem State.nextSeq_setWave (s : State) (k : Nat) (v : Wave) : (s.setWave k v).nextSeq = s.nextSeq := rfl
@[simp] theorem State.nextSeq_modWave (s : State) (k : Nat) (v : Wave → Wave) : (s.modWave k v).nextSeq = s.nextSeq := rfl
@[simp] theorem State.preds_setWave (s : State) (k : Nat) (v : Wave) : (s.setWave k v).preds = s.preds := rfl
@[simp] theorem State.preds_modWave (s : State) (k : Nat) (v : Wave → Wave) : (s.modWave k v).preds = s.preds := rfl
@[simp] theorem State.preempts_setWave (s : State) (k : Nat) (v : Wave) : (s.setWave k v).preempts = s.preempts := rfl
@[simp] theorem State.kept_setWave (s : State) (k : Nat) (v : Wave) : (s.setWave k v).kept = s.kept := rfl
@[simp] theorem State.preempts_modWave (s : State) (k : Nat) (v : Wave → Wave) : (s.modWave k v).preempts = s.preempts := rfl
@[simp] theorem State.kept_modWave (s : State) (k : Nat) (v : Wave → Wave) : (s.modWave k v).kept = s.kept := rfl
@[simp] theorem State.saved_setWave (s : State) (k : Nat) (v : Wave) : (s.setWave k v).saved = s.saved := rfl
@[simp] theorem State.saved_modWave (s : State) (k : Nat) (v : Wave → Wave) : (s.modWave k v).saved = s.saved := rfl
@[simp] theorem State.shadows_setWave (s : State) (k : Nat) (v : Wave) : (s.setWave k v).shadows = s.shadows := rfl
@[simp] theorem State.shadows_modWave (s : State) (k : Nat) (v : Wave → Wave) : (s.modWave k v).shadows = s.shadows := rfl
@[simp] theorem State.rasters_setWave (s : State) (k : Nat) (v : Wave) : (s.setWave k v).rasters = s.rasters := rfl
@[simp] theorem State.rasters_modWave (s : State) (k : Nat) (v : Wave → Wave) : (s.modWave k v).rasters = s.rasters := rfl
@[simp] theorem State.rays_setWave (s : State) (k : Nat) (v : Wave) : (s.setWave k v).rays = s.rays := rfl
@[simp] theorem State.rays_modWave (s : State) (k : Nat) (v : Wave → Wave) : (s.modWave k v).rays = s.rays := rfl
@[simp] theorem State.lehrs_setWave (s : State) (k : Nat) (v : Wave) : (s.setWave k v).lehrs = s.lehrs := rfl
@[simp] theorem State.lehrs_modWave (s : State) (k : Nat) (v : Wave → Wave) : (s.modWave k v).lehrs = s.lehrs := rfl
@[simp] theorem State.arbs_setWave (s : State) (k : Nat) (v : Wave) : (s.setWave k v).arbs = s.arbs := rfl
@[simp] theorem State.arbs_modWave (s : State) (k : Nat) (v : Wave → Wave) : (s.modWave k v).arbs = s.arbs := rfl
@[simp] theorem State.cdie_setWave (s : State) (k : Nat) (v : Wave) : (s.setWave k v).cdie = s.cdie := rfl
@[simp] theorem State.cdie_modWave (s : State) (k : Nat) (v : Wave → Wave) : (s.modWave k v).cdie = s.cdie := rfl
@[simp] theorem State.cur_setWave (s : State) (k : Nat) (v : Wave) : (s.setWave k v).cur = s.cur := rfl
@[simp] theorem State.cur_modWave (s : State) (k : Nat) (v : Wave → Wave) : (s.modWave k v).cur = s.cur := rfl
@[simp] theorem State.agenda_setWave (s : State) (k : Nat) (v : Wave) : (s.setWave k v).agenda = s.agenda := rfl
@[simp] theorem State.agenda_modWave (s : State) (k : Nat) (v : Wave → Wave) : (s.modWave k v).agenda = s.agenda := rfl
@[simp] theorem State.tick_setWave (s : State) (k : Nat) (v : Wave) : (s.setWave k v).tick = s.tick := rfl
@[simp] theorem State.tick_modWave (s : State) (k : Nat) (v : Wave → Wave) : (s.modWave k v).tick = s.tick := rfl
@[simp] theorem State.wave_setCore (s : State) (k : Nat) (v : Core) (a : Nat) : (s.setCore k v).wave a = s.wave a := rfl
@[simp] theorem State.wave_modCore (s : State) (k : Nat) (v : Core → Core) (a : Nat) : (s.modCore k v).wave a = s.wave a := rfl
@[simp] theorem State.tail_setCore (s : State) (k : Nat) (v : Core) (a : Nat) : (s.setCore k v).tail a = s.tail a := rfl
@[simp] theorem State.tail_modCore (s : State) (k : Nat) (v : Core → Core) (a : Nat) : (s.modCore k v).tail a = s.tail a := rfl
@[simp] theorem State.die_setCore (s : State) (k : Nat) (v : Core) (a : Nat) : (s.setCore k v).die a = s.die a := rfl
@[simp] theorem State.die_modCore (s : State) (k : Nat) (v : Core → Core) (a : Nat) : (s.modCore k v).die a = s.die a := rfl
@[simp] theorem State.mem_setCore (s : State) (k : Nat) (v : Core) : (s.setCore k v).mem = s.mem := rfl
@[simp] theorem State.mem_modCore (s : State) (k : Nat) (v : Core → Core) : (s.modCore k v).mem = s.mem := rfl
@[simp] theorem State.empties_setCore (s : State) (k : Nat) (v : Core) : (s.setCore k v).empties = s.empties := rfl
@[simp] theorem State.empties_modCore (s : State) (k : Nat) (v : Core → Core) : (s.modCore k v).empties = s.empties := rfl
@[simp] theorem State.absent_setCore (s : State) (k : Nat) (v : Core) : (s.setCore k v).absent = s.absent := rfl
@[simp] theorem State.absent_modCore (s : State) (k : Nat) (v : Core → Core) : (s.modCore k v).absent = s.absent := rfl
@[simp] theorem State.cells_setCore (s : State) (k : Nat) (v : Core) : (s.setCore k v).cells = s.cells := rfl
@[simp] theorem State.cells_modCore (s : State) (k : Nat) (v : Core → Core) : (s.modCore k v).cells = s.cells := rfl
@[simp] theorem State.regions_setCore (s : State) (k : Nat) (v : Core) : (s.setCore k v).regions = s.regions := rfl
@[simp] theorem State.regions_modCore (s : State) (k : Nat) (v : Core → Core) : (s.modCore k v).regions = s.regions := rfl
@[simp] theorem State.migs_setCore (s : State) (k : Nat) (v : Core) : (s.setCore k v).migs = s.migs := rfl
@[simp] theorem State.migs_modCore (s : State) (k : Nat) (v : Core → Core) : (s.modCore k v).migs = s.migs := rfl
@[simp] theorem State.waves_setCore (s : State) (k : Nat) (v : Core) : (s.setCore k v).waves = s.waves := rfl
@[simp] theorem State.waves_modCore (s : State) (k : Nat) (v : Core → Core) : (s.modCore k v).waves = s.waves := rfl
@[simp] theorem State.tails_setCore (s : State) (k : Nat) (v : Core) : (s.setCore k v).tails = s.tails := rfl
@[simp] theorem State.tails_modCore (s : State) (k : Nat) (v : Core → Core) : (s.modCore k v).tails = s.tails := rfl
@[simp] theorem State.dies_setCore (s : State) (k : Nat) (v : Core) : (s.setCore k v).dies = s.dies := rfl
@[simp] theorem State.dies_modCore (s : State) (k : Nat) (v : Core → Core) : (s.modCore k v).dies = s.dies := rfl
@[simp] theorem State.defer_setCore (s : State) (k : Nat) (v : Core) : (s.setCore k v).defer = s.defer := rfl
@[simp] theorem State.defer_modCore (s : State) (k : Nat) (v : Core → Core) : (s.modCore k v).defer = s.defer := rfl
@[simp] theorem State.launches_setCore (s : State) (k : Nat) (v : Core) : (s.setCore k v).launches = s.launches := rfl
@[simp] theorem State.launches_modCore (s : State) (k : Nat) (v : Core → Core) : (s.modCore k v).launches = s.launches := rfl
@[simp] theorem State.nextSeq_setCore (s : State) (k : Nat) (v : Core) : (s.setCore k v).nextSeq = s.nextSeq := rfl
@[simp] theorem State.nextSeq_modCore (s : State) (k : Nat) (v : Core → Core) : (s.modCore k v).nextSeq = s.nextSeq := rfl
@[simp] theorem State.preds_setCore (s : State) (k : Nat) (v : Core) : (s.setCore k v).preds = s.preds := rfl
@[simp] theorem State.preds_modCore (s : State) (k : Nat) (v : Core → Core) : (s.modCore k v).preds = s.preds := rfl
@[simp] theorem State.preempts_setCore (s : State) (k : Nat) (v : Core) : (s.setCore k v).preempts = s.preempts := rfl
@[simp] theorem State.kept_setCore (s : State) (k : Nat) (v : Core) : (s.setCore k v).kept = s.kept := rfl
@[simp] theorem State.preempts_modCore (s : State) (k : Nat) (v : Core → Core) : (s.modCore k v).preempts = s.preempts := rfl
@[simp] theorem State.kept_modCore (s : State) (k : Nat) (v : Core → Core) : (s.modCore k v).kept = s.kept := rfl
@[simp] theorem State.saved_setCore (s : State) (k : Nat) (v : Core) : (s.setCore k v).saved = s.saved := rfl
@[simp] theorem State.saved_modCore (s : State) (k : Nat) (v : Core → Core) : (s.modCore k v).saved = s.saved := rfl
@[simp] theorem State.shadows_setCore (s : State) (k : Nat) (v : Core) : (s.setCore k v).shadows = s.shadows := rfl
@[simp] theorem State.shadows_modCore (s : State) (k : Nat) (v : Core → Core) : (s.modCore k v).shadows = s.shadows := rfl
@[simp] theorem State.rasters_setCore (s : State) (k : Nat) (v : Core) : (s.setCore k v).rasters = s.rasters := rfl
@[simp] theorem State.rasters_modCore (s : State) (k : Nat) (v : Core → Core) : (s.modCore k v).rasters = s.rasters := rfl
@[simp] theorem State.rays_setCore (s : State) (k : Nat) (v : Core) : (s.setCore k v).rays = s.rays := rfl
@[simp] theorem State.rays_modCore (s : State) (k : Nat) (v : Core → Core) : (s.modCore k v).rays = s.rays := rfl
@[simp] theorem State.lehrs_setCore (s : State) (k : Nat) (v : Core) : (s.setCore k v).lehrs = s.lehrs := rfl
@[simp] theorem State.lehrs_modCore (s : State) (k : Nat) (v : Core → Core) : (s.modCore k v).lehrs = s.lehrs := rfl
@[simp] theorem State.arbs_setCore (s : State) (k : Nat) (v : Core) : (s.setCore k v).arbs = s.arbs := rfl
@[simp] theorem State.arbs_modCore (s : State) (k : Nat) (v : Core → Core) : (s.modCore k v).arbs = s.arbs := rfl
@[simp] theorem State.cdie_setCore (s : State) (k : Nat) (v : Core) : (s.setCore k v).cdie = s.cdie := rfl
@[simp] theorem State.cdie_modCore (s : State) (k : Nat) (v : Core → Core) : (s.modCore k v).cdie = s.cdie := rfl
@[simp] theorem State.cur_setCore (s : State) (k : Nat) (v : Core) : (s.setCore k v).cur = s.cur := rfl
@[simp] theorem State.cur_modCore (s : State) (k : Nat) (v : Core → Core) : (s.modCore k v).cur = s.cur := rfl
@[simp] theorem State.agenda_setCore (s : State) (k : Nat) (v : Core) : (s.setCore k v).agenda = s.agenda := rfl
@[simp] theorem State.agenda_modCore (s : State) (k : Nat) (v : Core → Core) : (s.modCore k v).agenda = s.agenda := rfl
@[simp] theorem State.tick_setCore (s : State) (k : Nat) (v : Core) : (s.setCore k v).tick = s.tick := rfl
@[simp] theorem State.tick_modCore (s : State) (k : Nat) (v : Core → Core) : (s.modCore k v).tick = s.tick := rfl
@[simp] theorem State.wave_setTail (s : State) (k : Nat) (v : Tail) (a : Nat) : (s.setTail k v).wave a = s.wave a := rfl
@[simp] theorem State.wave_modTail (s : State) (k : Nat) (v : Tail → Tail) (a : Nat) : (s.modTail k v).wave a = s.wave a := rfl
@[simp] theorem State.core_setTail (s : State) (k : Nat) (v : Tail) (a : Nat) : (s.setTail k v).core a = s.core a := rfl
@[simp] theorem State.core_modTail (s : State) (k : Nat) (v : Tail → Tail) (a : Nat) : (s.modTail k v).core a = s.core a := rfl
@[simp] theorem State.die_setTail (s : State) (k : Nat) (v : Tail) (a : Nat) : (s.setTail k v).die a = s.die a := rfl
@[simp] theorem State.die_modTail (s : State) (k : Nat) (v : Tail → Tail) (a : Nat) : (s.modTail k v).die a = s.die a := rfl
@[simp] theorem State.mem_setTail (s : State) (k : Nat) (v : Tail) : (s.setTail k v).mem = s.mem := rfl
@[simp] theorem State.mem_modTail (s : State) (k : Nat) (v : Tail → Tail) : (s.modTail k v).mem = s.mem := rfl
@[simp] theorem State.empties_setTail (s : State) (k : Nat) (v : Tail) : (s.setTail k v).empties = s.empties := rfl
@[simp] theorem State.empties_modTail (s : State) (k : Nat) (v : Tail → Tail) : (s.modTail k v).empties = s.empties := rfl
@[simp] theorem State.absent_setTail (s : State) (k : Nat) (v : Tail) : (s.setTail k v).absent = s.absent := rfl
@[simp] theorem State.absent_modTail (s : State) (k : Nat) (v : Tail → Tail) : (s.modTail k v).absent = s.absent := rfl
@[simp] theorem State.cells_setTail (s : State) (k : Nat) (v : Tail) : (s.setTail k v).cells = s.cells := rfl
@[simp] theorem State.cells_modTail (s : State) (k : Nat) (v : Tail → Tail) : (s.modTail k v).cells = s.cells := rfl
@[simp] theorem State.regions_setTail (s : State) (k : Nat) (v : Tail) : (s.setTail k v).regions = s.regions := rfl
@[simp] theorem State.regions_modTail (s : State) (k : Nat) (v : Tail → Tail) : (s.modTail k v).regions = s.regions := rfl
@[simp] theorem State.migs_setTail (s : State) (k : Nat) (v : Tail) : (s.setTail k v).migs = s.migs := rfl
@[simp] theorem State.migs_modTail (s : State) (k : Nat) (v : Tail → Tail) : (s.modTail k v).migs = s.migs := rfl
@[simp] theorem State.waves_setTail (s : State) (k : Nat) (v : Tail) : (s.setTail k v).waves = s.waves := rfl
@[simp] theorem State.waves_modTail (s : State) (k : Nat) (v : Tail → Tail) : (s.modTail k v).waves = s.waves := rfl
@[simp] theorem State.cores_setTail (s : State) (k : Nat) (v : Tail) : (s.setTail k v).cores = s.cores := rfl
@[simp] theorem State.cores_modTail (s : State) (k : Nat) (v : Tail → Tail) : (s.modTail k v).cores = s.cores := rfl
@[simp] theorem State.dies_setTail (s : State) (k : Nat) (v : Tail) : (s.setTail k v).dies = s.dies := rfl
@[simp] theorem State.dies_modTail (s : State) (k : Nat) (v : Tail → Tail) : (s.modTail k v).dies = s.dies := rfl
@[simp] theorem State.defer_setTail (s : State) (k : Nat) (v : Tail) : (s.setTail k v).defer = s.defer := rfl
@[simp] theorem State.defer_modTail (s : State) (k : Nat) (v : Tail → Tail) : (s.modTail k v).defer = s.defer := rfl
@[simp] theorem State.launches_setTail (s : State) (k : Nat) (v : Tail) : (s.setTail k v).launches = s.launches := rfl
@[simp] theorem State.launches_modTail (s : State) (k : Nat) (v : Tail → Tail) : (s.modTail k v).launches = s.launches := rfl
@[simp] theorem State.nextSeq_setTail (s : State) (k : Nat) (v : Tail) : (s.setTail k v).nextSeq = s.nextSeq := rfl
@[simp] theorem State.nextSeq_modTail (s : State) (k : Nat) (v : Tail → Tail) : (s.modTail k v).nextSeq = s.nextSeq := rfl
@[simp] theorem State.preds_setTail (s : State) (k : Nat) (v : Tail) : (s.setTail k v).preds = s.preds := rfl
@[simp] theorem State.preds_modTail (s : State) (k : Nat) (v : Tail → Tail) : (s.modTail k v).preds = s.preds := rfl
@[simp] theorem State.preempts_setTail (s : State) (k : Nat) (v : Tail) : (s.setTail k v).preempts = s.preempts := rfl
@[simp] theorem State.kept_setTail (s : State) (k : Nat) (v : Tail) : (s.setTail k v).kept = s.kept := rfl
@[simp] theorem State.preempts_modTail (s : State) (k : Nat) (v : Tail → Tail) : (s.modTail k v).preempts = s.preempts := rfl
@[simp] theorem State.kept_modTail (s : State) (k : Nat) (v : Tail → Tail) : (s.modTail k v).kept = s.kept := rfl
@[simp] theorem State.saved_setTail (s : State) (k : Nat) (v : Tail) : (s.setTail k v).saved = s.saved := rfl
@[simp] theorem State.saved_modTail (s : State) (k : Nat) (v : Tail → Tail) : (s.modTail k v).saved = s.saved := rfl
@[simp] theorem State.shadows_setTail (s : State) (k : Nat) (v : Tail) : (s.setTail k v).shadows = s.shadows := rfl
@[simp] theorem State.shadows_modTail (s : State) (k : Nat) (v : Tail → Tail) : (s.modTail k v).shadows = s.shadows := rfl
@[simp] theorem State.rasters_setTail (s : State) (k : Nat) (v : Tail) : (s.setTail k v).rasters = s.rasters := rfl
@[simp] theorem State.rasters_modTail (s : State) (k : Nat) (v : Tail → Tail) : (s.modTail k v).rasters = s.rasters := rfl
@[simp] theorem State.rays_setTail (s : State) (k : Nat) (v : Tail) : (s.setTail k v).rays = s.rays := rfl
@[simp] theorem State.rays_modTail (s : State) (k : Nat) (v : Tail → Tail) : (s.modTail k v).rays = s.rays := rfl
@[simp] theorem State.lehrs_setTail (s : State) (k : Nat) (v : Tail) : (s.setTail k v).lehrs = s.lehrs := rfl
@[simp] theorem State.lehrs_modTail (s : State) (k : Nat) (v : Tail → Tail) : (s.modTail k v).lehrs = s.lehrs := rfl
@[simp] theorem State.arbs_setTail (s : State) (k : Nat) (v : Tail) : (s.setTail k v).arbs = s.arbs := rfl
@[simp] theorem State.arbs_modTail (s : State) (k : Nat) (v : Tail → Tail) : (s.modTail k v).arbs = s.arbs := rfl
@[simp] theorem State.cdie_setTail (s : State) (k : Nat) (v : Tail) : (s.setTail k v).cdie = s.cdie := rfl
@[simp] theorem State.cdie_modTail (s : State) (k : Nat) (v : Tail → Tail) : (s.modTail k v).cdie = s.cdie := rfl
@[simp] theorem State.cur_setTail (s : State) (k : Nat) (v : Tail) : (s.setTail k v).cur = s.cur := rfl
@[simp] theorem State.cur_modTail (s : State) (k : Nat) (v : Tail → Tail) : (s.modTail k v).cur = s.cur := rfl
@[simp] theorem State.agenda_setTail (s : State) (k : Nat) (v : Tail) : (s.setTail k v).agenda = s.agenda := rfl
@[simp] theorem State.agenda_modTail (s : State) (k : Nat) (v : Tail → Tail) : (s.modTail k v).agenda = s.agenda := rfl
@[simp] theorem State.tick_setTail (s : State) (k : Nat) (v : Tail) : (s.setTail k v).tick = s.tick := rfl
@[simp] theorem State.tick_modTail (s : State) (k : Nat) (v : Tail → Tail) : (s.modTail k v).tick = s.tick := rfl
@[simp] theorem State.wave_setDie (s : State) (k : Nat) (v : Die) (a : Nat) : (s.setDie k v).wave a = s.wave a := rfl
@[simp] theorem State.wave_modDie (s : State) (k : Nat) (v : Die → Die) (a : Nat) : (s.modDie k v).wave a = s.wave a := rfl
@[simp] theorem State.core_setDie (s : State) (k : Nat) (v : Die) (a : Nat) : (s.setDie k v).core a = s.core a := rfl
@[simp] theorem State.core_modDie (s : State) (k : Nat) (v : Die → Die) (a : Nat) : (s.modDie k v).core a = s.core a := rfl
@[simp] theorem State.tail_setDie (s : State) (k : Nat) (v : Die) (a : Nat) : (s.setDie k v).tail a = s.tail a := rfl
@[simp] theorem State.tail_modDie (s : State) (k : Nat) (v : Die → Die) (a : Nat) : (s.modDie k v).tail a = s.tail a := rfl
@[simp] theorem State.mem_setDie (s : State) (k : Nat) (v : Die) : (s.setDie k v).mem = s.mem := rfl
@[simp] theorem State.mem_modDie (s : State) (k : Nat) (v : Die → Die) : (s.modDie k v).mem = s.mem := rfl
@[simp] theorem State.empties_setDie (s : State) (k : Nat) (v : Die) : (s.setDie k v).empties = s.empties := rfl
@[simp] theorem State.empties_modDie (s : State) (k : Nat) (v : Die → Die) : (s.modDie k v).empties = s.empties := rfl
@[simp] theorem State.absent_setDie (s : State) (k : Nat) (v : Die) : (s.setDie k v).absent = s.absent := rfl
@[simp] theorem State.absent_modDie (s : State) (k : Nat) (v : Die → Die) : (s.modDie k v).absent = s.absent := rfl
@[simp] theorem State.cells_setDie (s : State) (k : Nat) (v : Die) : (s.setDie k v).cells = s.cells := rfl
@[simp] theorem State.cells_modDie (s : State) (k : Nat) (v : Die → Die) : (s.modDie k v).cells = s.cells := rfl
@[simp] theorem State.regions_setDie (s : State) (k : Nat) (v : Die) : (s.setDie k v).regions = s.regions := rfl
@[simp] theorem State.regions_modDie (s : State) (k : Nat) (v : Die → Die) : (s.modDie k v).regions = s.regions := rfl
@[simp] theorem State.migs_setDie (s : State) (k : Nat) (v : Die) : (s.setDie k v).migs = s.migs := rfl
@[simp] theorem State.migs_modDie (s : State) (k : Nat) (v : Die → Die) : (s.modDie k v).migs = s.migs := rfl
@[simp] theorem State.waves_setDie (s : State) (k : Nat) (v : Die) : (s.setDie k v).waves = s.waves := rfl
@[simp] theorem State.waves_modDie (s : State) (k : Nat) (v : Die → Die) : (s.modDie k v).waves = s.waves := rfl
@[simp] theorem State.cores_setDie (s : State) (k : Nat) (v : Die) : (s.setDie k v).cores = s.cores := rfl
@[simp] theorem State.cores_modDie (s : State) (k : Nat) (v : Die → Die) : (s.modDie k v).cores = s.cores := rfl
@[simp] theorem State.tails_setDie (s : State) (k : Nat) (v : Die) : (s.setDie k v).tails = s.tails := rfl
@[simp] theorem State.tails_modDie (s : State) (k : Nat) (v : Die → Die) : (s.modDie k v).tails = s.tails := rfl
@[simp] theorem State.defer_setDie (s : State) (k : Nat) (v : Die) : (s.setDie k v).defer = s.defer := rfl
@[simp] theorem State.defer_modDie (s : State) (k : Nat) (v : Die → Die) : (s.modDie k v).defer = s.defer := rfl
@[simp] theorem State.launches_setDie (s : State) (k : Nat) (v : Die) : (s.setDie k v).launches = s.launches := rfl
@[simp] theorem State.launches_modDie (s : State) (k : Nat) (v : Die → Die) : (s.modDie k v).launches = s.launches := rfl
@[simp] theorem State.nextSeq_setDie (s : State) (k : Nat) (v : Die) : (s.setDie k v).nextSeq = s.nextSeq := rfl
@[simp] theorem State.nextSeq_modDie (s : State) (k : Nat) (v : Die → Die) : (s.modDie k v).nextSeq = s.nextSeq := rfl
@[simp] theorem State.preds_setDie (s : State) (k : Nat) (v : Die) : (s.setDie k v).preds = s.preds := rfl
@[simp] theorem State.preds_modDie (s : State) (k : Nat) (v : Die → Die) : (s.modDie k v).preds = s.preds := rfl
@[simp] theorem State.preempts_setDie (s : State) (k : Nat) (v : Die) : (s.setDie k v).preempts = s.preempts := rfl
@[simp] theorem State.kept_setDie (s : State) (k : Nat) (v : Die) : (s.setDie k v).kept = s.kept := rfl
@[simp] theorem State.preempts_modDie (s : State) (k : Nat) (v : Die → Die) : (s.modDie k v).preempts = s.preempts := rfl
@[simp] theorem State.kept_modDie (s : State) (k : Nat) (v : Die → Die) : (s.modDie k v).kept = s.kept := rfl
@[simp] theorem State.saved_setDie (s : State) (k : Nat) (v : Die) : (s.setDie k v).saved = s.saved := rfl
@[simp] theorem State.saved_modDie (s : State) (k : Nat) (v : Die → Die) : (s.modDie k v).saved = s.saved := rfl
@[simp] theorem State.shadows_setDie (s : State) (k : Nat) (v : Die) : (s.setDie k v).shadows = s.shadows := rfl
@[simp] theorem State.shadows_modDie (s : State) (k : Nat) (v : Die → Die) : (s.modDie k v).shadows = s.shadows := rfl
@[simp] theorem State.rasters_setDie (s : State) (k : Nat) (v : Die) : (s.setDie k v).rasters = s.rasters := rfl
@[simp] theorem State.rasters_modDie (s : State) (k : Nat) (v : Die → Die) : (s.modDie k v).rasters = s.rasters := rfl
@[simp] theorem State.rays_setDie (s : State) (k : Nat) (v : Die) : (s.setDie k v).rays = s.rays := rfl
@[simp] theorem State.rays_modDie (s : State) (k : Nat) (v : Die → Die) : (s.modDie k v).rays = s.rays := rfl
@[simp] theorem State.lehrs_setDie (s : State) (k : Nat) (v : Die) : (s.setDie k v).lehrs = s.lehrs := rfl
@[simp] theorem State.lehrs_modDie (s : State) (k : Nat) (v : Die → Die) : (s.modDie k v).lehrs = s.lehrs := rfl
@[simp] theorem State.arbs_setDie (s : State) (k : Nat) (v : Die) : (s.setDie k v).arbs = s.arbs := rfl
@[simp] theorem State.arbs_modDie (s : State) (k : Nat) (v : Die → Die) : (s.modDie k v).arbs = s.arbs := rfl
@[simp] theorem State.cdie_setDie (s : State) (k : Nat) (v : Die) : (s.setDie k v).cdie = s.cdie := rfl
@[simp] theorem State.cdie_modDie (s : State) (k : Nat) (v : Die → Die) : (s.modDie k v).cdie = s.cdie := rfl
@[simp] theorem State.cur_setDie (s : State) (k : Nat) (v : Die) : (s.setDie k v).cur = s.cur := rfl
@[simp] theorem State.cur_modDie (s : State) (k : Nat) (v : Die → Die) : (s.modDie k v).cur = s.cur := rfl
@[simp] theorem State.agenda_setDie (s : State) (k : Nat) (v : Die) : (s.setDie k v).agenda = s.agenda := rfl
@[simp] theorem State.agenda_modDie (s : State) (k : Nat) (v : Die → Die) : (s.modDie k v).agenda = s.agenda := rfl
@[simp] theorem State.tick_setDie (s : State) (k : Nat) (v : Die) : (s.setDie k v).tick = s.tick := rfl
@[simp] theorem State.tick_modDie (s : State) (k : Nat) (v : Die → Die) : (s.modDie k v).tick = s.tick := rfl

end Sys2Proof.Machine
end

