-- ==== Sys2Proof/Laws/Frame.lean ====
section
/-!
SUPPORT. Laws/Frame.lean: the shared operations of the slot instructions keep what `AluFrame` says is kept.
-/
namespace Sys2Proof.Machine

theorem AluFrame.refl (x : Sel) (s : State) : AluFrame x s s :=
  ⟨rfl, fun _ _ => rfl, rfl, fun _ _ => rfl, rfl, fun _ _ => rfl, rfl⟩

theorem AluFrame.trans {x : Sel} {s t u : State} (h : AluFrame x s t) (k : AluFrame x t u) : AluFrame x s u where
  rest := by rw [k.rest, h.rest]
  waves := fun a ha => (k.waves a ha).trans (h.waves a ha)
  own := k.own.trans h.own
  cores := fun a ha => (k.cores a ha).trans (h.cores a ha)
  core := k.core.trans h.core
  tails := fun a ha => (k.tails a ha).trans (h.tails a ha)
  tail := k.tail.trans h.tail

/-! ## Each operation -/

theorem AluFrame.modWave (x : Sel) (s : State) (f : Wave → Wave) (h : (f (s.wave x.wk)).still = (s.wave x.wk).still) :
    AluFrame x s (s.modWave x.wk f) where
  rest := rfl
  waves := fun a ha => State.wave_modWave_ne _ _ ha
  own := by simpa using h
  cores := fun _ _ => rfl
  core := rfl
  tails := fun _ _ => rfl
  tail := rfl

theorem AluFrame.modCore (x : Sel) (s : State) (f : Core → Core) (h : (f (s.core x.ck)).still = (s.core x.ck).still) :
    AluFrame x s (s.modCore x.ck f) where
  rest := rfl
  waves := fun _ _ => rfl
  own := rfl
  cores := fun a ha => State.core_modCore_ne _ _ ha
  core := by simpa using h
  tails := fun _ _ => rfl
  tail := rfl

theorem AluFrame.modTail (x : Sel) (s : State) (f : Tail → Tail) (hm : x.main = false)
    (h : (f (s.tail x.tk)).still = (s.tail x.tk).still) : AluFrame x s (s.modTail x.tk f) where
  rest := rfl
  waves := fun _ _ => rfl
  own := rfl
  cores := fun _ _ => rfl
  core := rfl
  tails := fun a ha => State.tail_modTail_ne _ _ (ha.resolve_left (by simp [hm]))
  tail := by simpa using h

theorem AluFrame.setStack (x : Sel) (s : State) (l : List DivEntry) : AluFrame x s (s.setStack x l) := by
  unfold State.setStack
  by_cases hm : x.main = true
  · rw [if_pos hm]; exact AluFrame.modWave _ _ _ rfl
  · rw [if_neg hm]; exact AluFrame.modTail _ _ _ (by simpa using hm) rfl

theorem AluFrame.modCtx (x : Sel) (s : State) (f : Ctx → Ctx) (h : ∀ c, (f c).still = c.still) :
    AluFrame x s (s.modCtx x f) := by
  unfold State.modCtx
  by_cases hm : x.main = true
  · rw [if_pos hm]; exact AluFrame.modWave _ _ _ (by simp only [Wave.still, h])
  · rw [if_neg hm]; exact AluFrame.modTail _ _ _ (by simpa using hm) (by simp only [Tail.still, h])

theorem AluFrame.setFlags (x : Sel) (s : State) (n : Nat) : AluFrame x s (s.setFlags x n) := by
  unfold State.setFlags
  by_cases hm : x.main = true
  · rw [if_pos hm]; exact AluFrame.modWave _ _ _ rfl
  · rw [if_neg hm]; exact AluFrame.modTail _ _ _ (by simpa using hm) rfl

theorem AluFrame.pending (x : Sel) (s : State) (l : List Nat) : AluFrame x s (s.pending x l) := AluFrame.modWave _ _ _ rfl

theorem Wave.still_foldl {α : Type} (f : Wave → α → Wave) (h : ∀ w a, (f w a).still = w.still) (l : List α) (w : Wave) :
    (l.foldl f w).still = w.still := by
  induction l generalizing w with
  | nil => rfl
  | cons a r ih => exact (ih _).trans (h w a)

theorem Wave.still_putN (w : Wave) (tick c l n v : Nat) : (w.putN tick c l n v).still = w.still :=
  Wave.still_foldl (fun (w : Wave) (i : Nat) => w.put tick (c + i) l (.ofNat 32 (v / 2 ^ (32 * i)))) (fun _ _ => rfl) _ w

theorem AluFrame.putD (cx : Cx) (o : Opnd) (n : Nat) (lanes : List Nat) (val : Nat → Nat) (s : State) :
    AluFrame cx.sel s (cx.putD o n lanes val s) := by
  have put : ∀ c, AluFrame cx.sel s (s.modWave cx.sel.wk (fun w => lanes.foldl (fun w l => w.putN s.tick c l n (val l)) w)) :=
    fun c => AluFrame.modWave _ _ _ (Wave.still_foldl _ (fun w _ => Wave.still_putN w _ _ _ _ _) _ _)
  cases o with
  | v r => exact (put r).trans (AluFrame.pending _ _ _)
  | k r => exact (put (420 + r)).trans (AluFrame.pending _ _ _)
  | q m => unfold Cx.putD; exact AluFrame.modCore _ _ _ (by rfl)
  | _ => exact AluFrame.refl _ _

theorem AluFrame.form (cx : Cx) (d : Opnd) (n : Nat) (on : Bool) (s : State) : AluFrame cx.sel s (cx.form d n on s) := by
  unfold Cx.form
  cases d with
  | v r =>
    simp only
    split
    · refine AluFrame.modWave _ _ _ ?_
      split <;> rfl
    · exact AluFrame.refl _ _
  | _ => exact AluFrame.refl _ _

theorem AluFrame.latch (cx : Cx) (s u : State) (us : List Use) : AluFrame cx.sel u (u.modWave cx.sel.wk (cx.latch s us)) := by
  refine AluFrame.modWave _ _ _ ?_
  unfold Cx.latch
  split <;> rfl

/-- Pops change the queue records alone. -/
theorem Core.still_pop (c : Core) (qi : Nat) : (c.pop qi).2.still = c.still := by
  unfold Core.pop
  simp only
  split <;> rfl

theorem Core.still_popAll (c : Core) (fs : List (Fld × Nat)) (act : List Nat) : (c.popAll fs act).2.still = c.still := by
  unfold Core.popAll
  have inner : ∀ (p : Fld × Nat) (ls : List Nat) (a : FMap Word × Core),
      (ls.foldl (fun acc l => (acc.1 ++ [(32 * Fld.idx p.1 + l, (Core.pop acc.2 p.2).1)], (Core.pop acc.2 p.2).2)) a).2.still
        = a.2.still := by
    intro p ls
    induction ls with
    | nil => exact fun a => rfl
    | cons l r ih => exact fun a => (ih _).trans (Core.still_pop _ _)
  have outer : ∀ (fs : List (Fld × Nat)) (a : FMap Word × Core),
      (fs.foldl (fun acc p => act.foldl (fun acc l =>
        (acc.1 ++ [(32 * Fld.idx p.1 + l, (Core.pop acc.2 p.2).1)], (Core.pop acc.2 p.2).2)) acc) a).2.still = a.2.still := by
    intro fs
    induction fs with
    | nil => exact fun a => rfl
    | cons p r ih => exact fun a => (ih _).trans (inner p act a)
  exact outer fs _

theorem AluFrame.commitPops (cx : Cx) (us : List Use) (s : State) : AluFrame cx.sel s (s.commitPops cx us) := by
  unfold State.commitPops
  simp only
  split
  · exact AluFrame.refl _ _
  · exact AluFrame.modCore _ _ _ (Core.still_popAll _ _ _)

theorem AluFrame.unheld (x : Sel) (s : State) : AluFrame x s (s.unheld x) := by
  unfold State.unheld
  refine (AluFrame.modCtx x s Ctx.unblock (fun c => rfl)).trans (AluFrame.modWave _ _ _ ?_)
  dsimp only
  split <;> rfl

theorem AluFrame.settled (x : Sel) (s : State) (b : DivEntry) (m : Bool) : AluFrame x s (s.settled x b m) := by
  unfold State.settled
  simp only
  split
  · refine (AluFrame.setStack _ _ _).trans (AluFrame.modWave _ _ _ ?_)
    generalize (!m && _) = b
    cases b <;> rfl
  · exact AluFrame.setStack _ _ _

end Sys2Proof.Machine
end

