-- ==== Sys2Proof/Laws/Regs.lean ====
section
/-!
SUPPORT. Laws/Regs.lean: what the registers of a wave read after each shared operation.
-/
namespace Sys2Proof.Machine

theorem regKey_inj {c l c' l' : Nat} (h : l < 32) (h' : l' < 32) : regKey c l = regKey c' l' ↔ c = c' ∧ l = l' := by
  unfold regKey
  omega

/-! ## Writes -/

theorem Wave.raw_put (w : Wave) (tick c l : Nat) (v : Word) (c' l' : Nat) (h : l < 32) (h' : l' < 32) :
    (w.put tick c l v).raw c' l' = if c' = c ∧ l' = l then v else w.raw c' l' := by
  have : (w.put tick c l v).raw c' l' = FMap.get 0 (FMap.set 0 w.regs (regKey c l) v) (regKey c' l') := rfl
  rw [this, FMap.get_set]
  simp only [regKey_inj h' h, Wave.raw]

/-- The first k words of a value of several registers. -/
theorem Wave.raw_putN (w : Wave) (tick c l n v c' l' : Nat) (h : l < 32) (h' : l' < 32) :
    (w.putN tick c l n v).raw c' l' =
      if l' = l ∧ c ≤ c' ∧ c' < c + n then .ofNat 32 (v / 2 ^ (32 * (c' - c))) else w.raw c' l' := by
  unfold Wave.putN
  induction n with
  | zero => simp
  | succ n ih =>
    rw [List.range_succ, List.foldl_append]
    simp only [List.foldl_cons, List.foldl_nil]
    rw [Wave.raw_put _ _ _ _ _ _ _ h h', ih]
    by_cases hc : c' = c + n ∧ l' = l
    · obtain ⟨rfl, rfl⟩ := hc
      simp
    · rw [if_neg hc]
      by_cases hd : l' = l ∧ c ≤ c' ∧ c' < c + n
      · rw [if_pos hd, if_pos ⟨hd.1, hd.2.1, by omega⟩]
      · rw [if_neg hd, if_neg (by omega)]

/-- A value per lane. -/
theorem Wave.raw_putLanes (w : Wave) (tick c n : Nat) (lanes : List Nat) (val : Nat → Nat) (c' l' : Nat)
    (h : ∀ l ∈ lanes, l < 32) (h' : l' < 32) :
    (lanes.foldl (fun w l => w.putN tick c l n (val l)) w).raw c' l' =
      if l' ∈ lanes ∧ c ≤ c' ∧ c' < c + n then .ofNat 32 (val l' / 2 ^ (32 * (c' - c))) else w.raw c' l' := by
  induction lanes generalizing w with
  | nil => simp
  | cons l r ih =>
    simp only [List.foldl_cons]
    rw [ih _ (fun a ha => h a (List.mem_cons_of_mem _ ha)), Wave.raw_putN _ _ _ _ _ _ _ _ (h l List.mem_cons_self) h']
    by_cases hr : l' ∈ r ∧ c ≤ c' ∧ c' < c + n
    · rw [if_pos hr, if_pos ⟨List.mem_cons_of_mem _ hr.1, hr.2⟩]
    · rw [if_neg hr]
      by_cases hl : l' = l ∧ c ≤ c' ∧ c' < c + n
      · obtain ⟨rfl, hc⟩ := hl
        rw [if_pos ⟨rfl, hc⟩, if_pos ⟨List.mem_cons_self, hc⟩]
      · rw [if_neg hl, if_neg]
        rintro ⟨ha, hc⟩
        rcases List.mem_cons.1 ha with ha | ha
        · exact hl ⟨ha, hc⟩
        · exact hr ⟨ha, hc⟩

theorem lanesOf_lt {m : Mask} {l : Nat} (h : l ∈ lanesOf m) : l < 32 := by
  simpa using (List.mem_filter.1 h).1

theorem State.active_lt {s : State} {x : Sel} {h : Hdr} {l : Nat} (hl : l ∈ s.active x h) : l < 32 :=
  lanesOf_lt (List.mem_filter.1 hl).1

/-! ## Operations that write no register, flag or push -/

/-- Registers, flags and pushes read alike. -/
structure SameVals (x : Sel) (s t : State) : Prop where
  raw : ∀ c l, (t.wave x.wk).raw c l = (s.wave x.wk).raw c l
  flags : (t.wave x.wk).fpflags = (s.wave x.wk).fpflags
  tail : (t.tail x.tk).flags = (s.tail x.tk).flags
  pushes : (t.core x.ck).pushes = (s.core x.ck).pushes

theorem SameVals.refl (x : Sel) (s : State) : SameVals x s s := ⟨fun _ _ => rfl, rfl, rfl, rfl⟩

theorem SameVals.trans {x : Sel} {s t u : State} (h : SameVals x s t) (k : SameVals x t u) : SameVals x s u :=
  ⟨fun c l => (k.raw c l).trans (h.raw c l), k.flags.trans h.flags, k.tail.trans h.tail, k.pushes.trans h.pushes⟩

theorem SameVals.modWave (x : Sel) (s : State) (f : Wave → Wave)
    (h : (f (s.wave x.wk)).regs = (s.wave x.wk).regs ∧ (f (s.wave x.wk)).fpflags = (s.wave x.wk).fpflags) :
    SameVals x s (s.modWave x.wk f) :=
  ⟨fun c l => by simp [Wave.raw, h.1], by simp [h.2], rfl, rfl⟩

theorem SameVals.modTail (x : Sel) (s : State) (f : Tail → Tail) (h : (f (s.tail x.tk)).flags = (s.tail x.tk).flags) :
    SameVals x s (s.modTail x.tk f) :=
  ⟨fun _ _ => rfl, rfl, by simp [h], rfl⟩

theorem SameVals.setStack (x : Sel) (s : State) (l : List DivEntry) : SameVals x s (s.setStack x l) := by
  unfold State.setStack
  split
  · exact SameVals.modWave _ _ _ ⟨rfl, rfl⟩
  · exact SameVals.modTail _ _ _ rfl

theorem SameVals.modCtx (x : Sel) (s : State) (f : Ctx → Ctx) : SameVals x s (s.modCtx x f) := by
  unfold State.modCtx
  split
  · exact SameVals.modWave _ _ _ ⟨rfl, rfl⟩
  · exact SameVals.modTail _ _ _ rfl

theorem SameVals.pending (x : Sel) (s : State) (l : List Nat) : SameVals x s (s.pending x l) := SameVals.modWave _ _ _ ⟨rfl, rfl⟩

theorem SameVals.form (cx : Cx) (d : Opnd) (n : Nat) (on : Bool) (s : State) : SameVals cx.sel s (cx.form d n on s) := by
  unfold Cx.form
  cases d with
  | v r =>
    simp only
    split
    · refine SameVals.modWave _ _ _ ?_
      split <;> exact ⟨rfl, rfl⟩
    · exact SameVals.refl _ _
  | _ => exact SameVals.refl _ _

theorem SameVals.latch (cx : Cx) (s u : State) (us : List Use) : SameVals cx.sel u (u.modWave cx.sel.wk (cx.latch s us)) := by
  refine SameVals.modWave _ _ _ ?_
  unfold Cx.latch
  split <;> exact ⟨rfl, rfl⟩

theorem SameVals.commitPops (cx : Cx) (us : List Use) (s : State) : SameVals cx.sel s (s.commitPops cx us) := by
  unfold State.commitPops
  simp only
  split
  · exact SameVals.refl _ _
  · refine ⟨fun _ _ => rfl, rfl, rfl, ?_⟩
    rw [State.core_modCore_same]
    have pop : ∀ (c : Core) (qi : Nat), (c.pop qi).2.pushes = c.pushes := by
      intro c qi
      unfold Core.pop
      simp only
      split <;> rfl
    have inner : ∀ (p : Fld × Nat) (ls : List Nat) (a : FMap Word × Core),
        (ls.foldl (fun acc l => (acc.1 ++ [(32 * Fld.idx p.1 + l, (Core.pop acc.2 p.2).1)], (Core.pop acc.2 p.2).2)) a).2.pushes
          = a.2.pushes := by
      intro p ls
      induction ls with
      | nil => exact fun a => rfl
      | cons l r ih => exact fun a => (ih _).trans (pop _ _)
    have outer : ∀ (fs : List (Fld × Nat)) (a : FMap Word × Core),
        (fs.foldl (fun acc p => cx.popl.foldl (fun acc l =>
          (acc.1 ++ [(32 * Fld.idx p.1 + l, (Core.pop acc.2 p.2).1)], (Core.pop acc.2 p.2).2)) acc) a).2.pushes = a.2.pushes := by
      intro fs
      induction fs with
      | nil => exact fun a => rfl
      | cons p r ih => exact fun a => (ih _).trans (inner p _ a)
    exact outer _ _

theorem SameVals.unheld (x : Sel) (s : State) : SameVals x s (s.unheld x) := by
  unfold State.unheld
  refine (SameVals.modCtx x s Ctx.unblock).trans (SameVals.modWave _ _ _ ?_)
  dsimp only
  split <;> exact ⟨rfl, rfl⟩

theorem SameVals.settled (x : Sel) (s : State) (b : DivEntry) (m : Bool) : SameVals x s (s.settled x b m) := by
  unfold State.settled
  simp only
  split
  · refine (SameVals.setStack _ _ _).trans (SameVals.modWave _ _ _ ?_)
    generalize (!m && _) = b
    cases b <;> exact ⟨rfl, rfl⟩
  · exact SameVals.setStack _ _ _

/-! ## The result -/

theorem putD_gets (cx : Cx) (d : Opnd) (n : Nat) (lanes : List Nat) (val : Nat → Nat) (s : State) (h : ∀ l ∈ lanes, l < 32) :
    Gets cx d n lanes val s (cx.putD d n lanes val s) := by
  cases d with
  | v r =>
    intro l hl j hj
    have : (cx.putD (.v r) n lanes val s).wave cx.sel.wk =
        { lanes.foldl (fun w l => w.putN s.tick r l n (val l)) (s.wave cx.sel.wk) with
          sb := ((cx.putD (.v r) n lanes val s).wave cx.sel.wk).sb } := by
      simp only [Cx.putD, State.pending, State.wave_modWave_same]
    rw [this]
    have := Wave.raw_putLanes (s.wave cx.sel.wk) s.tick r n lanes val (r + j) l h (h l hl)
    rw [if_pos ⟨hl, by omega, by omega⟩] at this
    simpa [Wave.raw] using this
  | k r =>
    intro l hl j hj
    have : (cx.putD (.k r) n lanes val s).wave cx.sel.wk =
        { lanes.foldl (fun w l => w.putN s.tick (420 + r) l n (val l)) (s.wave cx.sel.wk) with
          sb := ((cx.putD (.k r) n lanes val s).wave cx.sel.wk).sb } := by
      simp only [Cx.putD, State.pending, State.wave_modWave_same]
    rw [this]
    have := Wave.raw_putLanes (s.wave cx.sel.wk) s.tick (420 + r) n lanes val (420 + r + j) l h (h l hl)
    rw [if_pos ⟨hl, by omega, by omega⟩] at this
    simpa [Wave.raw] using this
  | q m => simp [Gets, Cx.putD]
  | _ => trivial

/-- Writing D writes no other register, and no flag. -/
theorem putD_kept (cx : Cx) (d : Opnd) (n : Nat) (lanes : List Nat) (val : Nat → Nat) (s : State) (h : ∀ l ∈ lanes, l < 32) :
    RegsKept cx.sel (destCodes d n) lanes s (cx.putD d n lanes val s) ∧ FlagsKept cx.sel s (cx.putD d n lanes val s) := by
  have fl : ∀ (c : Nat) (w : Wave), (lanes.foldl (fun w l => w.putN s.tick c l n (val l)) w).fpflags = w.fpflags := by
    intro c w
    induction lanes generalizing w with
    | nil => rfl
    | cons l r ih =>
      simp only [List.foldl_cons]
      rw [ih (fun a ha => h a (List.mem_cons_of_mem _ ha))]
      unfold Wave.putN
      generalize List.range n = ns
      induction ns generalizing w with
      | nil => rfl
      | cons i r' ih' => exact ih' _
  have key : ∀ c, RegsKept cx.sel ((List.range n).map (c + ·)) lanes s
        ((s.modWave cx.sel.wk (fun w => lanes.foldl (fun w l => w.putN s.tick c l n (val l)) w)).pending cx.sel ((List.range n).map (c + ·)))
      ∧ FlagsKept cx.sel s
        ((s.modWave cx.sel.wk (fun w => lanes.foldl (fun w l => w.putN s.tick c l n (val l)) w)).pending cx.sel ((List.range n).map (c + ·))) := by
    intro c
    refine ⟨fun c' l' hl' hd => ?_, ?_, rfl⟩
    · rw [(SameVals.pending _ _ _).raw, State.wave_modWave_same, Wave.raw_putLanes _ _ _ _ _ _ _ _ h hl', if_neg]
      rintro ⟨h1, h2, h3⟩
      rcases hd with hd | hd
      · exact hd (List.mem_map.2 ⟨c' - c, by simp; omega, by omega⟩)
      · exact hd h1
    · rw [(SameVals.pending _ _ _).flags, State.wave_modWave_same, fl]
  cases d with
  | v r => exact key r
  | k r => exact key (420 + r)
  | _ => exact ⟨fun _ _ _ _ => rfl, rfl, rfl⟩

end Sys2Proof.Machine
end

