-- ==== Sys2Proof/Laws/Issue.lean ====
section
/-!
SUPPORT. Laws/Issue.lean: what an instruction that executes comes to, and what completing it does.
-/
namespace Sys2Proof.Machine

/-! ## Through the gate -/

theorem ready_sel {i : Instr} {s : State} {x : Sel} (h : ready i s x = true) : s.cur = some x := by
  simp only [ready, Bool.and_eq_true, decide_eq_true_eq] at h
  exact h.1.1.1.1.1.1

theorem ready_running {i : Instr} {s : State} {x : Sel} (h : ready i s x = true) : s.running x = true := by
  simp only [ready, Bool.and_eq_true, decide_eq_true_eq] at h
  exact h.1.1.1.1.1.2

theorem ready_act {i : Instr} {s : State} {x : Sel} (h : ready i s x = true) : (cxOf i s x).act ≠ [] := by
  simp only [ready, Bool.and_eq_true, decide_eq_true_eq] at h
  have := h.1.1.2
  intro e
  have e' : s.active x (hdrOf i) = [] := e
  simp [e'] at this

theorem cxOf_act_lt {i : Instr} {s : State} {x : Sel} {l : Nat} (h : l ∈ (cxOf i s x).act) : l < 32 := State.active_lt h

@[simp] theorem cxOf_sel (i : Instr) (s : State) (x : Sel) : (cxOf i s x).sel = x := rfl
@[simp] theorem cxOf_run (i : Instr) (s : State) (x : Sel) : (cxOf i s x).run = s.run x := rfl

/-- What blocks no operand blocks no part of them. -/
theorem regsBlocked_filter {s : State} {x : Sel} {us : List Use} (h : s.regsBlocked x us = false) (p : Use → Bool) :
    s.regsBlocked x (us.filter p) = false := by
  have any : ∀ f : Use → Bool, us.any f = false → (us.filter p).any f = false := by
    intro f hf
    rw [List.any_eq_false] at hf ⊢
    exact fun u hu => hf u (List.mem_filter.1 hu).1
  unfold State.regsBlocked State.joinBlocked Wave.resultBlocked at h ⊢
  rw [Bool.or_eq_false_iff] at h ⊢
  refine ⟨?_, any _ h.2⟩
  cases ha : (x.main && (s.wave x.wk).state != 3) with
  | false => rfl
  | true =>
    have h1 := h.1
    rw [ha, Bool.true_and, List.any_eq_false] at h1
    rw [Bool.true_and, List.any_eq_false]
    intro t ht hc
    have h2 := h1 t ht
    dsimp only at h2 hc
    rw [Bool.and_eq_true] at h2 hc
    cases hu : us.any (overlaps (s.tail (x.ck * 32 + t)).fb.toNat (s.tail (x.ck * 32 + t)).fs.toNat) with
    | true => exact h2 ⟨hc.1, hu⟩
    | false => exact absurd hc.2 (by rw [any _ hu]; simp)

/-- The gate lets a ready instruction through. -/
theorem gate_ready {i : Instr} {s : State} {x : Sel} {h : Hdr} (hr : ready i s x = true) (hh : i.hdr? = some h) :
    gate i h s x = .go (cxOf i s x) {} := by
  have hd : hdrOf i = h := by simp [hdrOf, hh]
  simp only [ready, formed, unblocked, Bool.and_eq_true, Bool.not_eq_true', decide_eq_true_eq, hd, Bool.or_eq_false_iff] at hr
  obtain ⟨⟨⟨⟨⟨⟨h1, h2⟩, h3⟩, ⟨⟨⟨⟨f1, f2⟩, f3⟩, f4⟩, f5⟩, f6⟩, h4⟩, h5⟩, ⟨h6, h6'⟩, h7⟩ := hr
  have gok : (i.uses.filter (fun u => u.fld == .G)).all (accepts (s.handler x) (s.tailish x) (s.wave x.wk)) = true := by
    rw [List.all_eq_true] at f5 ⊢
    exact fun u hu => f5 u (List.mem_filter.1 hu).1
  have f6' : s.tailish x = false ∨ (tailForbids i = false ∧ (lanesOf (s.run x).mask).any (s.strays x (i.uses.filter (fun u => u.fld == .G))) = false) ∧
      (s.active x h).any (s.strays x i.uses) = false := by
    rcases ht : s.tailish x with _ | _
    · exact .inl rfl
    · rw [ht, Bool.true_and] at f6
      simp only [Bool.or_eq_false_iff] at f6
      exact .inr f6
  unfold gate
  simp only [gok, if_true, Bool.true_and]
  have pl : (if popsWhole i = true then lanesOf (s.run x).mask else s.active x h) = popLanes i s x := by
    simp only [popLanes, hd]
  rw [pl]
  have cx : (⟨x, h, s.run x, s.active x h,
      ((s.core x.ck).popAll (popFields (s.wave x.wk) i.uses) (popLanes i s x)).1, popLanes i s x, latency i⟩ : Cx) = cxOf i s x := by
    simp only [cxOf, hd]
  rw [cx]
  have g1 : (!i.wf || (s.tailish x && decide (h.sel ≠ .none)) || (graphForm i && x.mgmt)) = false := by
    rw [f1, f2, f3]; rfl
  have g3 : (!i.uses.all (accepts (s.handler x) (s.tailish x) (s.wave x.wk))) = false := by rw [f5]; rfl
  have g4 : (s.tailish x && (lanesOf (s.run x).mask).any (s.strays x (i.uses.filter (fun u => u.fld == .G)))) = false := by
    rcases f6' with e | e
    · rw [e]; rfl
    · rw [e.1.2, Bool.and_false]
  have g5 : (s.tailish x && tailForbids i) = false := by
    rcases f6' with e | e
    · rw [e]; rfl
    · rw [e.1.1, Bool.and_false]
  have g6 : (if s.tailish x = true then (s.active x h).filter (s.strays x i.uses) else []) = [] := by
    rcases f6' with e | e
    · rw [e]; rfl
    · split
      · exact List.filter_eq_nil_iff.2 (fun a ha => List.any_eq_false.1 e.2 a ha)
      · rfl
  rw [if_neg (by rw [g1]; simp), if_neg (by rw [regsBlocked_filter h6]; simp), if_neg (by rw [f4]; simp), if_neg (by rw [g3]; simp),
    if_neg (by rw [g4]; simp), if_neg (by rw [h6]; simp), if_neg (by rw [h4]; simp), if_neg (by rw [g5]; simp),
    if_neg (by rw [h5]; simp), if_neg (by rw [h6']; simp), g6, h5]
  rw [if_neg]
  rcases Bool.or_eq_true _ _ ▸ h7 with h7 | h7
  · simp [h7]
  · simp [h7]

/-- An instruction that misuses no operand comes to its plan. -/
theorem Plan.execWith_none (p : Plan) (i : Instr) (cx : Cx) (s : State) : p.execWith {} i cx s = p.exec i cx s := rfl

/-- A ready instruction comes to its plan. -/
theorem issue_ready {i : Instr} {s : State} {x : Sel} {h : Hdr} (hr : ready i s x = true) (hh : i.hdr? = some h)
    (body : Cx → State → Plan) :
    issue i h s body = .next ((body (cxOf i s x) s).exec i (cxOf i s x) s) := by
  unfold issue
  rw [ready_sel hr]
  simp only [ready_running hr, if_true, gate_ready hr hh, Plan.execWith_none]

/-! ## The plan -/

/-- With no cause and no wait the effect takes place in every active lane. -/
theorem Plan.exec_go (p : Plan) (i : Instr) (cx : Cx) (s : State) (hc : p.lowest cx.act = none) (hw : p.wait = none)
    (ha : cx.act ≠ []) (hf : p.fresh = false) :
    p.exec i cx s = (p.always cx.act (p.run cx.act ((s.latched cx i.uses).commitPops cx i.uses))).complete
      cx p.moved p.stays cx.mask := by
  unfold Plan.exec
  simp only [hc, hw, hf, Bool.false_eq_true, if_false]
  unfold Plan.effect
  rw [if_neg (by simpa using ha)]

theorem Plan.lowest_none {p : Plan} {act : List Nat} (hw : p.wave = none) (hl : ∀ l ∈ act, p.lane l = none) :
    p.lowest act = none := by
  unfold Plan.lowest
  have : act.filterMap (fun l => (p.lane l).map Prod.fst) = [] := by
    rw [List.filterMap_eq_nil_iff]
    intro l hl'
    rw [hl l hl']
    rfl
  rw [hw, this]
  rfl

/-! ## The stack -/

theorem stack_modWave (x : Sel) (s : State) (f : Wave → Wave) (h : (f (s.wave x.wk)).div.stack = (s.wave x.wk).div.stack) :
    (s.modWave x.wk f).stack x = s.stack x := by
  unfold State.stack
  split
  · simp [h]
  · rfl

theorem stack_modCtx (x : Sel) (s : State) (f : Ctx → Ctx) : (s.modCtx x f).stack x = s.stack x := by
  unfold State.modCtx
  split
  · exact stack_modWave _ _ _ rfl
  · rename_i hm
    simp [State.stack, hm]

@[simp] theorem stack_setStack (x : Sel) (s : State) (l : List DivEntry) : (s.setStack x l).stack x = l := by
  unfold State.setStack State.stack
  split
  · simp
  · simp

@[simp] theorem stack_modCore (x : Sel) (s : State) (k : Nat) (f : Core → Core) : (s.modCore k f).stack x = s.stack x := rfl

theorem stack_unheld (x : Sel) (s : State) : (s.unheld x).stack x = s.stack x := by
  unfold State.unheld
  rw [stack_modWave, stack_modCtx]
  dsimp only
  split <;> rfl

theorem stack_settled (x : Sel) (s : State) (b : DivEntry) (m : Bool) :
    (s.settled x b m).stack x = settle (s.wave x.wk).div.tmode (s.stack x) := by
  unfold State.settled
  simp only
  split
  · rw [stack_modWave, stack_setStack]
    generalize (!m && _) = b
    cases b <;> rfl
  · exact stack_setStack _ _ _

theorem stack_putD (cx : Cx) (d : Opnd) (n : Nat) (lanes : List Nat) (val : Nat → Nat) (s : State) :
    (cx.putD d n lanes val s).stack cx.sel = s.stack cx.sel := by
  have fl : ∀ (c : Nat) (w : Wave), (lanes.foldl (fun w l => w.putN s.tick c l n (val l)) w).div = w.div := by
    intro c w
    induction lanes generalizing w with
    | nil => rfl
    | cons l r ih =>
      simp only [List.foldl_cons]
      rw [ih]
      unfold Wave.putN
      generalize List.range n = ns
      induction ns generalizing w with
      | nil => rfl
      | cons i r' ih' => exact ih' _
  have key : ∀ c cs, ((s.modWave cx.sel.wk (fun w => lanes.foldl (fun w l => w.putN s.tick c l n (val l)) w)).pending cx.sel cs).stack
      cx.sel = s.stack cx.sel := by
    intro c cs
    unfold State.pending
    rw [stack_modWave _ _ _ rfl, stack_modWave _ _ _ (by rw [fl])]
  cases d with
  | v r => exact key r _
  | k r => exact key (420 + r) _
  | q m => rfl
  | _ => rfl

theorem stack_form (cx : Cx) (d : Opnd) (n : Nat) (on : Bool) (s : State) : (cx.form d n on s).stack cx.sel = s.stack cx.sel := by
  unfold Cx.form
  cases d with
  | v r =>
    simp only
    split
    · refine stack_modWave _ _ _ ?_
      split <;> rfl
    · rfl
  | _ => rfl

theorem core_form (cx : Cx) (d : Opnd) (n : Nat) (on : Bool) (s : State) (k : Nat) : (cx.form d n on s).core k = s.core k := by
  unfold Cx.form
  cases d with
  | v r => simp only; split <;> rfl
  | _ => rfl

theorem stack_latch (cx : Cx) (s u : State) (us : List Use) :
    (u.modWave cx.sel.wk (cx.latch s us)).stack cx.sel = u.stack cx.sel := by
  refine stack_modWave _ _ _ ?_
  unfold Cx.latch
  split <;> rfl

theorem stack_commitPops (cx : Cx) (us : List Use) (s : State) : (s.commitPops cx us).stack cx.sel = s.stack cx.sel := by
  unfold State.commitPops
  simp only
  split
  · rfl
  · rfl

theorem stack_setFlags (x : Sel) (s : State) (n : Nat) : (s.setFlags x n).stack x = s.stack x := by
  unfold State.setFlags
  split
  · exact stack_modWave _ _ _ rfl
  · rename_i hm
    simp [State.stack, hm]

/-! ## Completing -/

theorem Wave.still_binds {w w' : Wave} (h : w.still = w'.still) : w.binds = w'.binds := by
  have := congrArg Wave.binds h
  exact this

theorem Wave.still_tmode {w w' : Wave} (h : w.still = w'.still) : w.div.tmode = w'.div.tmode := by
  have := congrArg (fun w : Wave => w.div.tmode) h
  exact this

/-- A context that goes on at the next slot: registers, flags and pushes stay, and the stack advances and settles. -/
theorem complete_next (cx : Cx) (s : State) (eff : Mask)
    (hn : ∀ e ∈ (s.stack cx.sel).head?, (nextPc e.pc).isSome = true) :
    AluFrame cx.sel s (s.complete cx false false eff) ∧ SameVals cx.sel s (s.complete cx false false eff)
      ∧ GoesOn cx.sel s (s.complete cx false false eff) := by
  unfold State.complete
  simp only [Bool.false_eq_true, if_false]
  have hu : (s.unheld cx.sel).stack cx.sel = s.stack cx.sel := stack_unheld _ _
  have ht : ((s.unheld cx.sel).wave cx.sel.wk).div.tmode = (s.wave cx.sel.wk).div.tmode :=
    Wave.still_tmode (AluFrame.unheld cx.sel s).own
  unfold State.advance
  rw [hu]
  cases hs : s.stack cx.sel with
  | nil =>
    refine ⟨(AluFrame.unheld _ _).trans (AluFrame.settled _ _ _ _), (SameVals.unheld _ _).trans (SameVals.settled _ _ _ _), ?_⟩
    unfold GoesOn
    rw [stack_settled, hu, ht, hs]
  | cons e r =>
    have he := hn e (by rw [hs]; rfl)
    obtain ⟨p, hp⟩ := Option.isSome_iff_exists.1 he
    simp only [hp, Option.map_some]
    refine ⟨(AluFrame.unheld _ _).trans ((AluFrame.setStack _ _ _).trans (AluFrame.settled _ _ _ _)),
      (SameVals.unheld _ _).trans ((SameVals.setStack _ _ _).trans (SameVals.settled _ _ _ _)), ?_⟩
    unfold GoesOn
    rw [stack_settled, stack_setStack, hs]
    have hm : (((s.unheld cx.sel).setStack cx.sel ({ e with pc := p } :: r)).wave cx.sel.wk).div.tmode
        = (s.wave cx.sel.wk).div.tmode :=
      (Wave.still_tmode (AluFrame.setStack cx.sel (s.unheld cx.sel) _).own).trans ht
    rw [hm]
    simp only [hp, Option.getD_some]

/-- Where a slot follows, the RUN entry's next PC exists. -/
theorem inside_head {s : State} {x : Sel} (h : inside s x = true) :
    ∀ e ∈ (s.stack x).head?, (nextPc e.pc).isSome = true := by
  intro e he
  unfold inside State.run at h
  cases hs : s.stack x with
  | nil => simp [hs] at he
  | cons a r =>
    simp only [hs, List.head?_cons, Option.mem_def, Option.some.injEq] at he
    subst he
    simpa [hs] using h

theorem AluFrame.latched (cx : Cx) (s : State) (us : List Use) : AluFrame cx.sel s (s.latched cx us) := by
  unfold State.latched
  split
  · exact AluFrame.refl _ _
  · exact AluFrame.latch cx s s us

theorem SameVals.latched (cx : Cx) (s : State) (us : List Use) : SameVals cx.sel s (s.latched cx us) := by
  unfold State.latched
  split
  · exact SameVals.refl _ _
  · exact SameVals.latch cx s s us

theorem stack_latched (cx : Cx) (s : State) (us : List Use) : (s.latched cx us).stack cx.sel = s.stack cx.sel := by
  unfold State.latched
  split
  · rfl
  · exact stack_latch cx s s us

/-- The state in which an instruction takes effect: its latch is written and its pops have taken place. -/
def startOf (i : Instr) (s : State) (x : Sel) : State :=
  (s.latched (cxOf i s x) i.uses).commitPops (cxOf i s x) i.uses

theorem startOf_frame (i : Instr) (s : State) (x : Sel) : AluFrame x s (startOf i s x) :=
  (AluFrame.latched (cxOf i s x) s i.uses).trans (AluFrame.commitPops (cxOf i s x) _ _)

theorem startOf_tick (i : Instr) (s : State) (x : Sel) : (startOf i s x).tick = s.tick := by rw [(startOf_frame i s x).rest]

theorem startOf_vals (i : Instr) (s : State) (x : Sel) : SameVals x s (startOf i s x) :=
  (SameVals.latched (cxOf i s x) s i.uses).trans (SameVals.commitPops (cxOf i s x) _ _)

theorem startOf_stack (i : Instr) (s : State) (x : Sel) : (startOf i s x).stack x = s.stack x :=
  (stack_commitPops (cxOf i s x) _ _).trans (stack_latched (cxOf i s x) s i.uses)

theorem startOf_tmode (i : Instr) (s : State) (x : Sel) :
    ((startOf i s x).wave x.wk).div.tmode = (s.wave x.wk).div.tmode := Wave.still_tmode (startOf_frame i s x).own

/-! ## Queue records -/

theorem Core.pop_other (c : Core) {qi a : Nat} (h : a ≠ qi) :
    FMap.get {} (c.pop qi).2.queues a = FMap.get {} c.queues a ∧ (c.pop qi).2.pushes = c.pushes := by
  unfold Core.pop
  simp only
  split <;> exact ⟨FMap.get_set_ne _ _ _ h, rfl⟩

theorem Core.popAll_other (c : Core) (fs : List (Fld × Nat)) (act : List Nat) {a : Nat} (h : a ∉ fs.map Prod.snd) :
    FMap.get {} (c.popAll fs act).2.queues a = FMap.get {} c.queues a := by
  unfold Core.popAll
  have inner : ∀ (p : Fld × Nat), a ≠ p.2 → ∀ (ls : List Nat) (u : FMap Word × Core),
      FMap.get {} (ls.foldl (fun acc l => (acc.1 ++ [(32 * Fld.idx p.1 + l, (Core.pop acc.2 p.2).1)], (Core.pop acc.2 p.2).2)) u).2.queues a
        = FMap.get {} u.2.queues a := by
    intro p hp ls
    induction ls with
    | nil => exact fun u => rfl
    | cons l r ih => exact fun u => (ih _).trans (Core.pop_other _ hp).1
  have outer : ∀ (fs : List (Fld × Nat)), a ∉ fs.map Prod.snd → ∀ (u : FMap Word × Core),
      FMap.get {} (fs.foldl (fun acc p => act.foldl (fun acc l =>
        (acc.1 ++ [(32 * Fld.idx p.1 + l, (Core.pop acc.2 p.2).1)], (Core.pop acc.2 p.2).2)) acc) u).2.queues a
        = FMap.get {} u.2.queues a := by
    intro fs
    induction fs with
    | nil => exact fun _ u => rfl
    | cons p r ih =>
      intro hn u
      simp only [List.map_cons, List.mem_cons, not_or] at hn
      exact (ih hn.2 _).trans (inner p hn.1 act u)
  exact outer fs h _

theorem commitPops_queues (cx : Cx) (us : List Use) (s : State) {a : Nat}
    (h : a ∉ (popFields (s.wave cx.sel.wk) us).map Prod.snd) :
    FMap.get {} ((s.commitPops cx us).core cx.sel.ck).queues a = FMap.get {} (s.core cx.sel.ck).queues a := by
  unfold State.commitPops
  simp only
  split
  · rfl
  · simp only [State.core_modCore]
    exact Core.popAll_other _ _ _ h

theorem popFields_binds {w w' : Wave} (h : w.binds = w'.binds) (us : List Use) : popFields w us = popFields w' us := by
  unfold popFields Wave.bind
  rw [h]

/-- The state of effect differs from the state before in popped records alone, as far as queues go. -/
theorem startOf_queues (i : Instr) (s : State) (x : Sel) {a : Nat} (h : a ∉ (popFields (s.wave x.wk) i.uses).map Prod.snd) :
    FMap.get {} ((startOf i s x).core x.ck).queues a = FMap.get {} (s.core x.ck).queues a := by
  have hl : (s.latched (cxOf i s x) i.uses).core x.ck = s.core x.ck := by
    unfold State.latched
    split <;> rfl
  rw [← hl]
  exact commitPops_queues (cxOf i s x) i.uses _
    ((congrArg (fun l => a ∉ List.map Prod.snd l)
      (popFields_binds (Wave.still_binds (AluFrame.latched (cxOf i s x) s i.uses).own) i.uses)).mpr h)

@[simp] theorem core_setStack (x : Sel) (s : State) (l : List DivEntry) (k : Nat) : (s.setStack x l).core k = s.core k := by
  unfold State.setStack
  split <;> rfl

theorem core_unheld (x : Sel) (s : State) (k : Nat) : (s.unheld x).core k = s.core k := by
  unfold State.unheld State.modCtx
  split <;> rfl

theorem core_settled (x : Sel) (s : State) (b : DivEntry) (m : Bool) (k : Nat) : (s.settled x b m).core k = s.core k := by
  unfold State.settled
  simp only
  split
  · exact core_setStack x s _ k
  · exact core_setStack x s _ k

/-- Going on at the next slot leaves cores alone. -/
theorem core_complete (cx : Cx) (s : State) (eff : Mask) (hn : ∀ e ∈ (s.stack cx.sel).head?, (nextPc e.pc).isSome = true) (k : Nat) :
    (s.complete cx false false eff).core k = s.core k := by
  unfold State.complete State.advance
  simp only [Bool.false_eq_true, if_false, stack_unheld]
  cases hs : s.stack cx.sel with
  | nil => exact (core_settled _ _ _ _ _).trans (core_unheld _ _ _)
  | cons e r =>
    obtain ⟨p, hp⟩ := Option.isSome_iff_exists.1 (hn e (by rw [hs]; rfl))
    simp only [hp, Option.map_some]
    exact (core_settled _ _ _ _ _).trans ((core_setStack _ _ _ _).trans (core_unheld _ _ _))

/-- D changes no other record. -/
theorem putD_queues (cx : Cx) (d : Opnd) (n : Nat) (lanes : List Nat) (val : Nat → Nat) (s : State) {a : Nat}
    (h : ∀ m, d = .q m → bRec ((s.wave cx.sel.wk).bind m) ≠ a) :
    FMap.get {} ((cx.putD d n lanes val s).core cx.sel.ck).queues a = FMap.get {} (s.core cx.sel.ck).queues a := by
  cases d with
  | q m => simp only [Cx.putD, State.core_modCore]; exact FMap.get_set_ne _ _ _ (Ne.symm (h m rfl))
  | _ => rfl

theorem putD_pushes (cx : Cx) (d : Opnd) (n : Nat) (lanes : List Nat) (val : Nat → Nat) (s : State) (h : ∀ m, d ≠ .q m) :
    ((cx.putD d n lanes val s).core cx.sel.ck).pushes = (s.core cx.sel.ck).pushes := by
  cases d with
  | q m => exact absurd rfl (h m)
  | _ => rfl

/-- The queues over an effect between the start and the completion. -/
theorem queuesKept_of (i : Instr) (s u : State) (x : Sel) (d : Opnd) (eff : Mask) (hst : u.stack x = s.stack x) (hn : inside s x = true)
    (hq : ∀ a, (∀ m, d = .q m → bRec ((s.wave x.wk).bind m) ≠ a) →
      FMap.get {} (u.core x.ck).queues a = FMap.get {} ((startOf i s x).core x.ck).queues a)
    (hp : (∀ m, d ≠ .q m) → (u.core x.ck).pushes = ((startOf i s x).core x.ck).pushes) :
    QueuesKept i x d s (u.complete (cxOf i s x) false false eff) := by
  have hc := core_complete (cxOf i s x) u eff (by rw [cxOf_sel, hst]; exact inside_head hn)
  refine ⟨fun qi h1 h2 => ?_, fun h => ?_⟩
  · rw [hc, hq qi h2, startOf_queues i s x h1]
  · rw [hc, hp h, (startOf_vals i s x).pushes]

/-- An effect that leaves the stack and the kept part of the wave alone, once it completes. -/
theorem complete_goesOn (cx : Cx) (s u : State) (eff : Mask) (hs : u.stack cx.sel = s.stack cx.sel)
    (hf : AluFrame cx.sel s u) (hn : inside s cx.sel = true) :
    AluFrame cx.sel s (u.complete cx false false eff) ∧ SameVals cx.sel u (u.complete cx false false eff)
      ∧ GoesOn cx.sel s (u.complete cx false false eff) := by
  obtain ⟨h1, h2, h3⟩ := complete_next cx u eff (by rw [hs]; exact inside_head hn)
  refine ⟨hf.trans h1, h2, ?_⟩
  unfold GoesOn at h3 ⊢
  rw [h3, hs, Wave.still_tmode hf.own]

theorem Gets.mono {cx : Cx} {d : Opnd} {n : Nat} {lanes : List Nat} {val : Nat → Nat} {s s' t t' : State}
    (h : Gets cx d n lanes val s t) (h1 : (s.core cx.sel.ck).pushes = (s'.core cx.sel.ck).pushes)
    (h2 : (s.wave cx.sel.wk).binds = (s'.wave cx.sel.wk).binds) (h3 : s.tick = s'.tick) (k : SameVals cx.sel t t') :
    Gets cx d n lanes val s' t' := by
  cases d with
  | v r => intro l hl j hj; rw [k.raw]; exact h l hl j hj
  | k r => intro l hl j hj; rw [k.raw]; exact h l hl j hj
  | q m =>
    simp only [Gets] at h ⊢
    rw [k.pushes, h, h1]
    simp only [Wave.bind, h2, h3]
  | _ => trivial

/-- A plan without cause and wait whose effect gives D its value and leaves everything else alone computes it. -/
theorem computes_of_plan {i : Instr} {s : State} {x : Sel} {h : Hdr} {body : Cx → State → Plan} {d : Opnd} {n : Nat}
    {val : Nat → Nat} (he : exec i s = issue i h s body) (hr : ready i s x = true) (hh : i.hdr? = some h)
    (hn : inside s x = true) {p : Plan} (hp : body (cxOf i s x) s = p) (hlow : p.lowest (cxOf i s x).act = none)
    (hwait : p.wait = none) (hmoved : p.moved = false) (hstays : p.stays = false) (hfresh : p.fresh = false)
    (u : State) (hu : p.always (cxOf i s x).act (p.run (cxOf i s x).act (startOf i s x)) = u)
    (hst : u.stack x = (startOf i s x).stack x) (hf : AluFrame x (startOf i s x) u)
    (hg : Gets (cxOf i s x) d n (cxOf i s x).act val (startOf i s x) u)
    (hk : RegsKept x (destCodes d n) (cxOf i s x).act (startOf i s x) u) (hfl : FlagsKept x (startOf i s x) u)
    (hq : ∀ a, (∀ m, d = .q m → bRec ((s.wave x.wk).bind m) ≠ a) →
      FMap.get {} (u.core x.ck).queues a = FMap.get {} ((startOf i s x).core x.ck).queues a)
    (hpu : (∀ m, d ≠ .q m) → (u.core x.ck).pushes = ((startOf i s x).core x.ck).pushes) :
    Computes i s x d n val := by
  have e1 : exec i s = .next (p.exec i (cxOf i s x) s) := by rw [he, issue_ready hr hh, hp]
  have e2 : p.exec i (cxOf i s x) s = u.complete (cxOf i s x) false false (cxOf i s x).mask := by
    rw [Plan.exec_go p i (cxOf i s x) s hlow hwait (ready_act hr) hfresh, hmoved, hstays]
    exact congrArg (fun v : State => v.complete (cxOf i s x) false false (cxOf i s x).mask) hu
  have hv := startOf_vals i s x
  obtain ⟨c1, c2, c3⟩ := complete_goesOn (cxOf i s x) s u (cxOf i s x).mask (hst.trans (startOf_stack i s x))
    ((startOf_frame i s x).trans hf) hn
  have c2 : SameVals x u (u.complete (cxOf i s x) false false (cxOf i s x).mask) := c2
  refine ⟨_, e1.trans (by rw [e2]), ?_, ?_, ?_, c1, c3,
    queuesKept_of i s u x d _ (hst.trans (startOf_stack i s x)) hn hq hpu⟩
  · exact hg.mono hv.pushes (Wave.still_binds (startOf_frame i s x).own) (startOf_tick i s x) c2
  · intro c l hl hd
    rw [c2.raw, hk c l hl hd]
    exact hv.raw c l
  · exact ⟨c2.flags.trans (hfl.1.trans hv.flags), c2.tail.trans (hfl.2.trans hv.tail)⟩

/-- A plan that gives D one value per lane. -/
theorem computes_planD {i : Instr} {s : State} {x : Sel} {h : Hdr} {body : Cx → State → Plan} {d : Opnd} {n : Nat}
    {val : Nat → Nat} (he : exec i s = issue i h s body) (hr : ready i s x = true) (hh : i.hdr? = some h)
    (hn : inside s x = true) (lanes : Nat → State → State)
    (p : Plan) (hp : body (cxOf i s x) s = p) (hw : p.wave = none) (hl : p.lane = fun _ => none)
    (hwait : p.wait = none) (hm : p.moved = false) (hs : p.stays = false) (hfr : p.fresh = false) (ha : p.always = fun _ s => s)
    (hrun : ∀ ls u, p.run ls u = lanes ls.length ((cxOf i s x).putD d n ls val u))
    (hlf : ∀ k u, AluFrame x u (lanes k u)) (hlv : ∀ k u, SameVals x u (lanes k u)) (hls : ∀ k u, (lanes k u).stack x = u.stack x)
    (hlc : ∀ k u, (lanes k u).core x.ck = u.core x.ck) : Computes i s x d n val := by
  have hact : ∀ l ∈ (cxOf i s x).act, l < 32 := fun l hl => cxOf_act_lt hl
  have pk := putD_kept (cxOf i s x) d n (cxOf i s x).act val (startOf i s x) hact
  refine computes_of_plan he hr hh hn hp (Plan.lowest_none hw (fun l _ => by rw [hl])) hwait hm hs hfr
    (lanes (cxOf i s x).act.length ((cxOf i s x).putD d n (cxOf i s x).act val (startOf i s x))) ?_ ?_ ?_ ?_ ?_ ?_ ?_ ?_
  · rw [ha, hrun]
  · rw [hls]; exact stack_putD (cxOf i s x) _ _ _ _ _
  · exact (AluFrame.putD (cxOf i s x) _ _ _ _ _).trans (hlf _ _)
  · exact (putD_gets (cxOf i s x) d n _ val _ hact).mono rfl rfl rfl (hlv _ _)
  · intro c l h1 h2
    rw [(hlv _ _).raw]
    exact pk.1 c l h1 h2
  · exact ⟨(hlv _ _).flags.trans pk.2.1, (hlv _ _).tail.trans pk.2.2⟩
  · intro a h
    rw [hlc]
    refine putD_queues (cxOf i s x) _ _ _ _ _ (fun m hm => ?_)
    rw [cxOf_sel, Wave.bind, Wave.still_binds (startOf_frame i s x).own]
    exact h m hm
  · intro h
    rw [hlc]
    exact putD_pushes (cxOf i s x) _ _ _ _ _ h

/-! ## Float results -/

/-- The flags taken, and nothing else. -/
theorem setFlags_take (x : Sel) (s : State) (n : Nat) :
    (∀ c l, ((s.setFlags x n).wave x.wk).raw c l = (s.wave x.wk).raw c l) ∧
    ((s.setFlags x n).core x.ck).pushes = (s.core x.ck).pushes ∧ FlagsTake x s (s.setFlags x n) n := by
  unfold State.setFlags FlagsTake
  by_cases hm : x.main = true
  · simp [hm, Wave.raw]
  · simp [hm]

/-- With every enable 0 no flag traps. -/
theorem quiet_of_off (s : State) (cx : Cx) (res : Nat → Nat × Nat) (h : bits (s.wave cx.sel.wk).fpctl.toNat 12 8 = 0) :
    quiet s cx res = true := by
  simp [quiet, h]

/-- `planF` computes its values and flags. -/
theorem computes_F {i : Instr} {s : State} {x : Sel} {h : Hdr} {d : Opnd} {n : Nat} {res : Cx → State → Nat → Nat × Nat}
    (he : exec i s = issue i h s (fun cx s => planF cx s d n (res cx s))) (hr : ready i s x = true) (hh : i.hdr? = some h)
    (hn : inside s x = true) : ComputesF i s x d n (res (cxOf i s x) s) := by
  intro h0
  have hq : quiet s (cxOf i s x) (res (cxOf i s x) s) = true := by
    rcases h0 with h0 | h0
    · exact quiet_of_off s (cxOf i s x) (res (cxOf i s x) s) h0
    · exact h0
  have hact : ∀ l ∈ (cxOf i s x).act, l < 32 := fun l hl => cxOf_act_lt hl
  generalize hp : planF (cxOf i s x) s d n (res (cxOf i s x) s) = p
  have hl : p.lowest (cxOf i s x).act = none := by
    refine Plan.lowest_none (by rw [← hp]; rfl) (fun l hl => ?_)
    have := List.all_eq_true.1 hq l hl
    have hz : fpx (s.wave (cxOf i s x).sel.wk).fpctl (res (cxOf i s x) s l).2 = false := by
      simpa [fpx, bne] using this
    rw [← hp]
    simp only [planF, hz]
    rfl
  have e1 : exec i s = .next (p.exec i (cxOf i s x) s) := by rw [he, issue_ready hr hh, hp]
  have e2 := Plan.exec_go p i (cxOf i s x) s hl (by rw [← hp]; rfl) (ready_act hr) (by rw [← hp]; rfl)
  have hm : p.moved = false := by rw [← hp]; rfl
  have hs : p.stays = false := by rw [← hp]; rfl
  rw [hm, hs] at e2
  let u0 := (cxOf i s x).putD d n (cxOf i s x).act (fun l => (res (cxOf i s x) s l).1) (startOf i s x)
  let fl := flagsOf (cxOf i s x).act (fun l => (res (cxOf i s x) s l).2)
  let u := (u0.setFlags x fl).pending x [469, 470]
  have hu : p.always (cxOf i s x).act (p.run (cxOf i s x).act (startOf i s x)) = u := by rw [← hp]; rfl
  have e3 : exec i s = .next (u.complete (cxOf i s x) false false (cxOf i s x).mask) := by
    rw [e1, e2]
    exact congrArg (fun v : State => Host.Outcome.next (v.complete (cxOf i s x) false false (cxOf i s x).mask)) hu
  have pk := putD_kept (cxOf i s x) d n (cxOf i s x).act (fun l => (res (cxOf i s x) s l).1) (startOf i s x) hact
  have pg := putD_gets (cxOf i s x) d n (cxOf i s x).act (fun l => (res (cxOf i s x) s l).1) (startOf i s x) hact
  have ft := setFlags_take x u0 fl
  have pv := SameVals.pending x (u0.setFlags x fl) [469, 470]
  have hv := startOf_vals i s x
  have hf : AluFrame x s u := (startOf_frame i s x).trans ((AluFrame.putD (cxOf i s x) _ _ _ _ _).trans
    ((AluFrame.setFlags _ _ _).trans (AluFrame.pending _ _ _)))
  have hst : u.stack x = s.stack x := by
    rw [← startOf_stack i s x]
    refine (stack_modWave _ _ _ rfl).trans ((stack_setFlags _ _ _).trans ?_)
    exact stack_putD (cxOf i s x) _ _ _ _ _
  obtain ⟨c1, c2, c3⟩ := complete_goesOn (cxOf i s x) s u (cxOf i s x).mask hst hf hn
  have c2 : SameVals x u (u.complete (cxOf i s x) false false (cxOf i s x).mask) := c2
  have tagged : ∀ t : State, (∀ c l, (t.wave x.wk).raw c l = (u0.wave x.wk).raw c l) →
      (t.core x.ck).pushes = (u0.core x.ck).pushes →
      Gets (cxOf i s x) d n (cxOf i s x).act (fun l => (res (cxOf i s x) s l).1) s t := by
    intro t h1 h2
    have pg' := pg
    cases d with
    | v r => intro l hl j hj; exact (h1 _ _).trans (pg l hl j hj)
    | k r => intro l hl j hj; exact (h1 _ _).trans (pg l hl j hj)
    | q m =>
      simp only [Gets] at pg ⊢
      refine h2.trans (pg.trans ?_)
      have hb := Wave.still_binds (startOf_frame i s x).own
      rw [show (cxOf i s x).sel = x from rfl, hv.pushes]
      simp only [Wave.bind, hb, startOf_tick]
    | _ => trivial
  have qk : QueuesKept i x d s (u.complete (cxOf i s x) false false (cxOf i s x).mask) := by
    have hc : u.core x.ck = u0.core x.ck := by
      have : (u0.setFlags x fl).core x.ck = u0.core x.ck := by unfold State.setFlags; split <;> rfl
      exact this
    refine queuesKept_of i s u x d _ hst hn (fun a h => ?_) (fun h => ?_)
    · rw [hc]
      refine putD_queues (cxOf i s x) _ _ _ _ _ (fun m hm => ?_)
      rw [cxOf_sel, Wave.bind, Wave.still_binds (startOf_frame i s x).own]
      exact h m hm
    · rw [hc]; exact putD_pushes (cxOf i s x) _ _ _ _ _ h
  refine ⟨_, e3, tagged _ (fun c l => ?_) ?_, fun c l h1 h2 => ?_, ?_, c1, c3, qk⟩
  · rw [c2.raw, pv.raw, ft.1]
  · rw [c2.pushes, pv.pushes, ft.2.1]
  · rw [c2.raw, pv.raw, ft.1]
    exact (pk.1 c l h1 h2).trans (hv.raw c l)
  · have f3 := ft.2.2
    have k1 : (u0.wave x.wk).fpflags = (s.wave x.wk).fpflags := pk.2.1.trans hv.flags
    have k2 : (u0.tail x.tk).flags = (s.tail x.tk).flags := pk.2.2.trans hv.tail
    unfold FlagsTake at f3 ⊢
    rw [c2.flags, pv.flags, c2.tail, pv.tail]
    by_cases hm : x.main = true
    · rw [if_pos hm] at f3 ⊢
      rw [f3, k1]; rfl
    · rw [if_neg hm] at f3 ⊢
      refine ⟨by rw [f3.1, k2]; rfl, by rw [f3.2, k1]⟩

/-- `planD` computes its values. -/
theorem computes_D {i : Instr} {s : State} {x : Sel} {h : Hdr} {d : Opnd} {n : Nat} {val : Cx → State → Nat → Nat}
    (he : exec i s = issue i h s (fun cx s => planD cx d n (val cx s))) (hr : ready i s x = true) (hh : i.hdr? = some h)
    (hn : inside s x = true) : Computes i s x d n (val (cxOf i s x) s) :=
  computes_planD he hr hh hn (fun _ s => s) _ rfl rfl rfl rfl rfl rfl rfl rfl (fun _ _ => rfl) (fun _ _ => AluFrame.refl _ _)
    (fun _ _ => SameVals.refl _ _) (fun _ _ => rfl) (fun _ _ => rfl)

/-- `planA` computes its values, whatever form it gives D. -/
theorem computes_A {i : Instr} {s : State} {x : Sel} {h : Hdr} {d : Opnd} {n : Nat} {on : Cx → State → Bool}
    {val : Cx → State → Nat → Nat}
    (he : exec i s = issue i h s (fun cx s => planA cx d n (on cx s) (val cx s))) (hr : ready i s x = true)
    (hh : i.hdr? = some h) (hn : inside s x = true) : Computes i s x d n (val (cxOf i s x) s) :=
  computes_planD he hr hh hn (fun _ u => (cxOf i s x).form d n (on (cxOf i s x) s) u) _ rfl rfl rfl rfl rfl rfl rfl rfl (fun _ _ => rfl)
    (fun _ _ => AluFrame.form (cxOf i s x) _ _ _ _) (fun _ _ => SameVals.form (cxOf i s x) _ _ _ _) (fun _ _ => stack_form (cxOf i s x) _ _ _ _)
    (fun _ _ => core_form (cxOf i s x) _ _ _ _ _)

theorem Computes.congr {i : Instr} {s : State} {x : Sel} {d : Opnd} {n : Nat} {val val' : Nat → Nat}
    (h : Computes i s x d n val) (he : ∀ l ∈ (cxOf i s x).act, val l = val' l) : Computes i s x d n val' := by
  obtain ⟨t, h1, h2, h3⟩ := h
  refine ⟨t, h1, ?_, h3⟩
  cases d with
  | v r => intro l hl j hj; rw [← he l hl]; exact h2 l hl j hj
  | k r => intro l hl j hj; rw [← he l hl]; exact h2 l hl j hj
  | q m =>
    simp only [Gets] at h2 ⊢
    rw [h2]
    congr 3
    exact List.map_congr_left (fun l hl => by rw [he l hl])
  | _ => trivial

end Sys2Proof.Machine
end

