-- ==== Sys2Proof/Laws/Mem.lean ====
section
/-!
SUPPORT. Laws/Mem.lean: every operation on memory keeps its canonical form, and what a byte reads as after it.
-/
namespace Sys2Proof.Machine

/-! ## The canonical form -/

theorem memCanon_congr {s t : State} (h : t.mem = s.mem) : memCanon t = memCanon s := by simp [memCanon, h]

theorem memCanon_reset : memCanon State.reset = true := rfl

/-- A fold of steps each of which keeps the form keeps it. -/
theorem memCanon_foldl {α : Type} (f : State → α → State) (hf : ∀ s a, memCanon s = true → memCanon (f s a) = true) (l : List α) (s : State)
    (h : memCanon s = true) : memCanon (l.foldl f s) = true := by
  induction l generalizing s with
  | nil => exact h
  | cons a r ih => exact ih _ (hf s a h)

theorem memCanon_storeByte {s : State} (h : memCanon s = true) (pa : Nat) (b : Byte) : memCanon (s.storeByte pa b) = true := by
  have key : ∀ (l : List Migration) (m : FMap Byte), FMap.wf memDefault m = true → FMap.wf memDefault (l.foldl (fun m g =>
      if g.old ≤ pa ∧ pa < g.old + g.size then FMap.set memDefault m (g.new + (pa - g.old)) b else m) m) = true := by
    intro l
    induction l with
    | nil => exact fun m hm => hm
    | cons g r ih =>
      intro m hm
      refine ih _ ?_
      beta_reduce
      split
      · exact FMap.wf_set hm _ _
      · exact hm
  exact key _ _ (FMap.wf_set h pa b)

@[simp] theorem storeCells_mem (s : State) (pa : Nat) (bs : List Byte) : (s.storeCells pa bs).mem = s.mem := by
  unfold State.storeCells
  split
  · rfl
  · rename_i hne
    clear hne
    generalize (List.range (bs.length / 4 + 2)).map (fun i => pa / 4 + i) = l
    induction l generalizing s with
    | nil => rfl
    | cons w r ih =>
      rw [List.foldl_cons, ih]
      split
      · rfl
      · split <;> rfl

@[simp] theorem answer_mem (s : State) : s.answer.mem = s.mem := by unfold State.answer; split <;> rfl

theorem memCanon_storePhys {s : State} (h : memCanon s = true) (pa : Nat) (bs : List Byte) : memCanon (s.storePhys pa bs) = true := by
  have h2 := memCanon_foldl (fun (t : State) (p : Nat × Byte) => t.storeByte (s.canon pa + p.1) p.2) (fun s p hs => memCanon_storeByte hs _ _)
    ((List.range bs.length).zip bs) (s.storeCells (s.canon pa) bs) (by rw [memCanon_congr (storeCells_mem s _ bs)]; exact h)
  unfold State.storePhys
  simp only
  split
  · exact h2
  · exact h2

theorem memCanon_writePhys {s : State} (h : memCanon s = true) (pa : Nat) (bs : List Byte) : memCanon (s.writePhys pa bs) = true := by
  rw [State.writePhys, memCanon_congr (answer_mem _)]
  exact memCanon_storePhys h pa bs

/-! ## Accesses by way of translation and carved regions -/

theorem becomesResident_mem (s : State) (root : Nat) (t : Tlb) : (s.becomesResident root t).mem = s.mem := by
  unfold State.becomesResident
  simp only
  split
  · exact answer_mem _
  · rfl

@[simp] theorem hold_mem (s : State) (ck root va : Nat) : (s.hold ck root va).mem = s.mem := by
  unfold State.hold
  split
  · split
    · exact becomesResident_mem _ _ _
    · rfl
  · rfl

@[simp] theorem fillLine_mem (s : State) (a : Ag) (ri va : Nat) : (s.fillLine a ri va).mem = s.mem := by
  unfold State.fillLine
  simp only
  split
  · rfl
  · rw [answer_mem]

@[simp] theorem touch_mem (s : State) (a : Ag) (va : Nat) (l : Loc) : (s.touch a va l).mem = s.mem := by
  unfold State.touch
  split
  · split
    · exact hold_mem _ _ _ _
    · rfl
  · exact fillLine_mem _ _ _ _

@[simp] theorem setEmpty_mem (s : State) (l : Loc) : (s.setEmpty l).mem = s.mem := by cases l <;> rfl

theorem memCanon_writeLoc {s : State} (h : memCanon s = true) (a : Ag) (l : Loc) (n v : Nat) : memCanon (s.writeLoc a l n v) = true := by
  cases l with
  | phys pa => exact memCanon_writePhys h _ _
  | copy ri va =>
    rw [memCanon_congr (t := s.writeLoc a (.copy ri va) n v) (s := s) ?_]
    · exact h
    · exact (answer_mem _).trans (fillLine_mem s a ri va)

theorem memCanon_writeAt {s : State} (h : memCanon s = true) (a : Ag) (p : Place) (n v : Nat) : memCanon (s.writeAt a p n v) = true := by
  unfold State.writeAt
  split
  · exact memCanon_writeLoc h _ _ _ _
  · exact h

/-! ## Atomics and late stores keep the canonical form -/

theorem memCanon_modWave {s : State} (h : memCanon s = true) (k : Nat) (f : Wave → Wave) : memCanon (s.modWave k f) = true :=
  (memCanon_congr (show (s.modWave k f).mem = s.mem from rfl)).trans h

theorem memCanon_addCell {s : State} (h : memCanon s = true) (pa : Nat) (c : Cell) (b : Nat) : memCanon (s.addCell pa c b) = true :=
  (memCanon_congr (show (s.addCell pa c b).mem = s.mem by simp [State.addCell])).trans h

theorem memCanon_atomAt {s : State} (h : memCanon s = true) (a : Ag) (p : Place) (n kind aop b : Nat) :
    memCanon (s.atomAt a p n kind aop b) = true := by
  unfold State.atomAt
  split
  · split
    · exact memCanon_addCell h _ _ _
    · exact memCanon_writeAt h _ _ _ _
  · exact memCanon_writeAt h _ _ _ _

theorem memCanon_atomKeeps {s : State} (h : memCanon s = true) (a : Ag) (p : Place) (n : Nat) : memCanon (s.atomKeeps a p n) = true := by
  unfold State.atomKeeps
  split
  · exact memCanon_writePhys h _ _
  · rename_i ri va
    dsimp only
    refine (memCanon_congr (s := s) ?_).trans h
    rw [answer_mem]
    exact fillLine_mem s a ri va
  · exact h

theorem memCanon_casAt {s : State} (h : memCanon s = true) (a : Ag) (p : Place) (n v : Nat) : memCanon (s.casAt a p n v) = true := by
  unfold State.casAt
  split
  · exact memCanon_writeAt h _ _ _ _
  · exact memCanon_atomKeeps h _ _ _

theorem memCanon_perform {s : State} (h : memCanon s = true) (x : Sel) (e : Late) : memCanon (s.perform x e) = true := by
  unfold State.perform
  dsimp only
  split
  · exact h
  · split
    · exact memCanon_writeAt h _ _ _ _
    · have h1 : ∀ (p : Place) (k a : Nat), memCanon (if a = 9 then s.casAt (s.agent x) p e.n e.v
          else s.atomAt (s.agent x) p e.n k a e.v) = true := fun p k a => by
        split
        · exact memCanon_casAt h _ _ _ _
        · exact memCanon_atomAt h _ _ _ _ _ _
      split
      · exact h1 _ _ _
      · exact memCanon_modWave (h1 _ _ _) _ _

theorem memCanon_performAll {s : State} (h : memCanon s = true) (x : Sel) (ok : Late → Bool) : memCanon (s.performAll x ok) = true := by
  unfold State.performAll
  dsimp only
  split
  · exact h
  · exact memCanon_foldl _ (fun _ e h => memCanon_perform h x e) _ _ (memCanon_modWave h _ _)

theorem memCanon_inOrder {s : State} (h : memCanon s = true) (x : Sel) (ps : List (LatePlace × Nat)) :
    memCanon (s.inOrder x ps) = true := by
  unfold State.inOrder
  split
  · exact memCanon_performAll h _ _
  · exact h

/-- A lane's store keeps the form, whether it is performed now or later. -/
theorem memCanon_storeLane {s : State} (h : memCanon s = true) (x : Sel) (ag : Ag) (acc lane : Nat) (p : Place) (n v : Nat) :
    memCanon (s.storeLane x ag acc lane p n v) = true := by
  refine memCanon_foldl _ (fun s q h => ?_) _ _ h
  unfold State.storePiece
  split
  · exact memCanon_modWave h _ _
  · exact memCanon_writeAt (memCanon_inOrder h _ _) _ _ _ _

theorem memCanon_writeV {s : State} (h : memCanon s = true) (root va n v : Nat) : memCanon (s.writeV root va n v) = true := by
  have key : ∀ (l : List (Nat × Nat)) (a : State × Nat), memCanon a.1 = true → memCanon (l.foldl (fun (a : State × Nat) p =>
      (match a.1.pageAt root p.1 .wr with
        | .ok pa => a.1.writePhys pa (toBytes p.2 (v / 2 ^ (8 * a.2)))
        | .error _ => a.1, a.2 + p.2)) a).1 = true := by
    intro l
    induction l with
    | nil => exact fun a ha => ha
    | cons p r ih =>
      intro a ha
      refine ih _ ?_
      beta_reduce
      split
      · exact memCanon_writePhys ha _ _
      · exact ha
  exact key _ _ h

/-! ## Cells, and what is lost with the power -/

theorem declareCell_mem (s : State) (launch : Option Nat) (pa : Nat) : (s.declareCell launch pa).2.mem = s.mem := by
  unfold State.declareCell
  split
  · rfl
  · split <;> rfl

theorem memCanon_freeCell {s : State} (h : memCanon s = true) (pa : Nat) : memCanon (s.freeCell pa) = true := by
  unfold State.freeCell
  split
  · exact h
  · exact memCanon_foldl _ (fun s i hs => memCanon_storeByte hs _ _) _ _ h

theorem wf_filter {m : FMap Byte} (h : FMap.wf memDefault m = true) (f : Nat × Byte → Bool) : FMap.wf memDefault (List.filter f m) = true := by
  simp only [FMap.wf, Bool.and_eq_true, List.all_eq_true] at *
  exact ⟨FMap.sorted_filter h.1 f, fun q hq => h.2 q (List.mem_filter.mp hq).1⟩

theorem memCanon_powerOff {s : State} (h : memCanon s = true) : memCanon s.powerOff = true := wf_filter h _

/-! ## What a byte reads as -/

/-- Where no reduction cell stands and no migration is open, a byte that is stored reads back, and every other byte as before. -/
theorem byte_storeByte (s : State) (pa a : Nat) (b : Byte) (hc : s.cells = []) (hm : s.migs = []) :
    (s.storeByte pa b).byte a = if a = pa then b else s.byte a := by
  have h1 : (s.storeByte pa b).mem = FMap.set memDefault s.mem pa b := by simp [State.storeByte, hm]
  have h2 : (s.storeByte pa b).cells = [] := hc
  have h3 : (s.storeByte pa b).migs = [] := hm
  simp [State.byte, State.canon, h1, h2, h3, hc, hm, FMap.get_set]

theorem storeByte_cells (s : State) (pa : Nat) (b : Byte) : (s.storeByte pa b).cells = s.cells := rfl
theorem storeByte_migs (s : State) (pa : Nat) (b : Byte) : (s.storeByte pa b).migs = s.migs := rfl

/-- A store of bytes with no cell and no migration about: each byte of it reads back, every other byte as before. -/
theorem byte_writePhys (s : State) (pa : Nat) (bs : List Byte) (a : Nat) (hc : s.cells = []) (hm : s.migs = []) :
    (s.writePhys pa bs).byte a = if pa ≤ a ∧ a < pa + bs.length then (bs[a - pa]?).getD 0 else s.byte a := by
  have e : s.storeCells pa bs = s := by simp [State.storeCells, hc]
  have ec : s.canon pa = pa := by simp [State.canon, hm]
  have key : ∀ (n k : Nat) (l : List Byte) (u : State), l.length = n → u.cells = [] → u.migs = [] →
      let t := ((List.range' k n).zip l).foldl (fun (s : State) p => s.storeByte (pa + p.1) p.2) u
      t.cells = [] ∧ t.byte a = if pa + k ≤ a ∧ a < pa + k + n then (l[a - (pa + k)]?).getD 0 else u.byte a := by
    intro n
    induction n with
    | zero =>
      intro k l u hl hu _
      obtain rfl := List.length_eq_zero_iff.mp hl
      exact ⟨hu, by simp [show ¬ (pa + k ≤ a ∧ a < pa + k) by omega]⟩
    | succ n ih =>
      intro k l u hl hu hu'
      obtain ⟨b, r, rfl⟩ := List.exists_cons_of_length_eq_add_one hl
      rw [List.range'_succ, List.zip_cons_cons, List.foldl_cons]
      obtain ⟨h1, h2⟩ := ih (k + 1) r (u.storeByte (pa + k) b) (by simpa using hl) hu hu'
      refine ⟨h1, h2.trans ?_⟩
      rw [byte_storeByte u _ _ _ hu hu']
      by_cases hk : a = pa + k
      · subst hk; simp [show ¬ (pa + (k + 1) ≤ pa + k) by omega]
      · by_cases hr : pa + (k + 1) ≤ a ∧ a < pa + (k + 1) + n
        · rw [if_pos hr, if_pos (by omega), show a - (pa + k) = (a - (pa + (k + 1))) + 1 by omega, List.getElem?_cons_succ]
        · rw [if_neg hr, if_neg hk, if_neg (by omega)]
  obtain ⟨h1, h2⟩ := key bs.length 0 bs s rfl hc hm
  rw [← List.range_eq_range'] at h1 h2
  have hb : (s.writePhys pa bs).byte a =
      (((List.range bs.length).zip bs).foldl (fun (s : State) p => s.storeByte (pa + p.1) p.2) s).byte a := by
    have hw : ∀ t : State, t.answer.byte a = t.byte a := fun t => by unfold State.answer; split <;> rfl
    rw [State.writePhys, hw]
    unfold State.storePhys
    simp only [ec, e]
    split <;> rfl
  rw [hb, h2]
  simp
end Sys2Proof.Machine
end

