-- ==== Sys2Proof/Laws/Ops.lean ====
section
/-!
SUPPORT. Laws/Ops.lean: what the shared operations of stops, returns, posts and the divergence state can do, each said
once.
-/
namespace Sys2Proof.Machine

/-! ## Taking a trap and returning from it (R249, R268) -/

theorem State.unblockAll_eq (s : State) (ck w : Nat) :
    ∃ f : Ctx → Ctx, (s.unblockAll ck w).waves = (s.modWave (ck * 64 + w) (fun v => { v with main := f v.main })).waves ∧
      s.unblockAll ck w = { s with waves := (s.unblockAll ck w).waves, tails := (s.unblockAll ck w).tails } := by
  refine ⟨Ctx.leave, ?_⟩
  unfold State.unblockAll
  generalize s.modWave (ck * 64 + w) (fun v => { v with main := v.main.leave }) = u,
    hu : s.modWave (ck * 64 + w) (fun v => { v with main := v.main.leave }) = u
  have hs : u = { s with waves := u.waves, tails := u.tails } := by rw [← hu]; rfl
  clear hu
  generalize s.tailsOf ck w = l
  induction l generalizing u with
  | nil => exact ⟨rfl, hs⟩
  | cons a r ih =>
    have h := ih (u.modTail (ck * 32 + a) (fun t => { t with ctx := t.ctx.leave })) (by rw [hs]; rfl)
    exact ⟨h.1, h.2⟩

/-- What a stop does: the record of `StoppedAs`, and nothing but the wave, the tails of its core, and the requests that wait
for a word change. -/
theorem State.stop_stoppedAs (s : State) (x : Sel) (tr : Trap) : StoppedAs x (s.stop x tr) tr := by
  simp [StoppedAs, State.stop]

theorem State.stop_rest (s : State) (x : Sel) (tr : Trap) :
    s.stop x tr = { s with
      waves := (s.stop x tr).waves, tails := (s.stop x tr).tails, defer := (s.stop x tr).defer } := by
  obtain ⟨_, -, h⟩ := s.unblockAll_eq x.ck x.wave
  unfold State.stop State.withdraw State.modWave State.setWave
  rw [h]

/-- A stop keeps the registers, the divergence state and the flags of the wave. -/
theorem State.stop_keeps (s : State) (x : Sel) (tr : Trap) :
    ((s.stop x tr).wave x.wk).regs = (s.wave x.wk).regs ∧ ((s.stop x tr).wave x.wk).div = (s.wave x.wk).div ∧
      ((s.stop x tr).wave x.wk).parked = (s.wave x.wk).parked ∧
      ((s.stop x tr).wave x.wk).fpflags = (s.wave x.wk).fpflags := by
  have hk : x.ck * 64 + x.wave = x.wk := rfl
  have h : (s.unblockAll x.ck x.wave).wave x.wk = { s.wave x.wk with main := (s.wave x.wk).main.leave } := by
    unfold State.unblockAll
    generalize s.tailsOf x.ck x.wave = l
    rw [hk]
    generalize hu : s.modWave x.wk (fun v => { v with main := v.main.leave }) = u
    have hs : u.wave x.wk = { s.wave x.wk with main := (s.wave x.wk).main.leave } := by simp [← hu]
    clear hu
    induction l generalizing u with
    | nil => exact hs
    | cons a r ih => exact ih _ hs
  have hw : ((s.unblockAll x.ck x.wave).withdraw x.ck x.wave).wave x.wk = (s.unblockAll x.ck x.wave).wave x.wk := rfl
  simp [State.stop, hw, h]

/-- What a return does: the wave runs again, in handler mode if it was redirected, and nothing else of it changes. -/
theorem State.resume_wave (s : State) (wk : Nat) (redo : Option Mask) :
    (s.resume wk redo).wave wk = { s.wave wk with
      state := if (s.wave wk).parked.isSome then 3 else 0, cause := 0, number := 0, async := false, posted := false
      redo := match redo with | some m => (s.wave wk).redo.set (~~~0) (s.wave wk).wctx m | none => (s.wave wk).redo } := State.wave_modWave_same _ _ _

theorem State.resume_rest (s : State) (wk : Nat) (redo : Option Mask) :
    s.resume wk redo = { s with waves := (s.resume wk redo).waves } := rfl

/-! ## A post to the fault buffer (R274, R276) -/

/-- With the page noted as absent (R235), a post that merges changes nothing; one that finds the buffer off or full sets OVF alone and answers all ones; any
other appends one entry. -/
theorem State.post_cases (s0 s : State) (die core : Nat) (root : Option Nat) (ctx kind va : Nat) (hs : s0.noteAbsent root va = s) :
    (∃ i, s.fbFind die (va / 4096 * 4096) = some i ∧
      s0.post die core root ctx kind va = (ticketOf (s.die die).fbgen.toNat i, s)) ∨
    (s.fbFind die (va / 4096 * 4096) = none ∧ (fbEnabled (s.die die) = false ∨ 1024 ≤ fbCount (s.die die)) ∧
      s0.post die core root ctx kind va = (2 ^ 32 - 1, s.setDie die { s.die die with fbovf := true })) ∨
    (s.fbFind die (va / 4096 * 4096) = none ∧ fbEnabled (s.die die) = true ∧ fbCount (s.die die) < 1024 ∧
      s0.post die core root ctx kind va = (ticketOf (s.die die).fbgen.toNat ((s.die die).fbtail.toNat % 1024),
        (s.writePhys (fbAt (s.die die) ((s.die die).fbtail.toNat % 1024))
          (toBytes 16 (fbEntry die core ctx kind (s.die die).fbgen.toNat (va / 4096 * 4096)))).setDie die
          { s.die die with fbtail := (s.die die).fbtail + 1 })) := by
  cases hf : s.fbFind die (va / 4096 * 4096) with
  | some i => exact .inl ⟨i, rfl, by simp [State.post, hs, hf]⟩
  | none =>
    refine .inr ?_
    by_cases hc : fbEnabled (s.die die) = false ∨ 1024 ≤ fbCount (s.die die)
    · exact .inl ⟨rfl, hc, by
        have : (!fbEnabled (s.die die) || decide (1024 ≤ fbCount (s.die die))) = true := by simpa using hc
        simp [State.post, hs, hf, this]⟩
    · have h1 : fbEnabled (s.die die) = true := by simp_all
      have h2 : ¬ 1024 ≤ fbCount (s.die die) := fun h => hc (.inr h)
      exact .inr ⟨rfl, h1, by omega, by simp [State.post, hs, hf, h1, h2]⟩

/-! ## The divergence state (R87) -/

/-- The top joins the group below it. -/
theorem settleStep_below {tm : Mask} {t : DivEntry} {r l' : List DivEntry} (h : (match r with
      | [] => none
      | b :: r' =>
        if b.kind == 1 && b.pc == t.pc && b.depth == t.depth && agree tm (b.mask ||| t.mask) then
          some ({ b with mask := b.mask ||| t.mask } :: r')
        else none) = some l') :
    ∃ b r', r = b :: r' ∧ b.kind = 1 ∧ b.pc = t.pc ∧ b.depth = t.depth ∧ l' = { b with mask := b.mask ||| t.mask } :: r' := by
  cases r with
  | nil => simp at h
  | cons b r' =>
    simp only at h
    split at h
    · rename_i hc
      simp only [Bool.and_eq_true, beq_iff_eq] at hc
      exact ⟨b, r', rfl, hc.1.1.1, hc.1.1.2, hc.1.2, (Option.some.inj h).symm⟩
    · simp at h

/-- What one pass of the loop can do: the top goes, the top becomes RUN, or the top joins the group below. -/
theorem settleStep_cases {tm : Mask} {l l' : List DivEntry} (h : settleStep tm l = some l') :
    ∃ t r, l = t :: r ∧ ((t.mask == 0) = true ∧ l' = r ∨ t.kind ≠ 0 ∧ l' = { t with kind := 0, bbc := 0 } :: r ∨
      t.kind = 0 ∧ (l' = r ∨ ∃ b r', r = b :: r' ∧ b.kind = 1 ∧ b.pc = t.pc ∧ b.depth = t.depth ∧
        l' = { b with mask := b.mask ||| t.mask } :: r')) := by
  cases l with
  | nil => simp [settleStep] at h
  | cons t r =>
    refine ⟨t, r, rfl, ?_⟩
    simp only [settleStep] at h
    by_cases h0 : (t.mask == 0) = true
    · rw [if_pos h0] at h
      exact .inl ⟨h0, (Option.some.inj h).symm⟩
    · rw [if_neg h0] at h
      by_cases h1 : t.kind ≠ 0
      · rw [if_pos h1] at h
        exact .inr (.inl ⟨h1, (Option.some.inj h).symm⟩)
      · rw [if_neg h1] at h
        refine .inr (.inr ⟨by simpa using h1, ?_⟩)
        cases hj : r.find? (fun j => j.kind == 2 && t.mask &&& ~~~j.mask == 0) with
        | some j =>
          rw [hj] at h
          simp only at h
          split at h
          · exact .inl (Option.some.inj h).symm
          · exact .inr (settleStep_below h)
        | none =>
          rw [hj] at h
          simp only [Bool.false_eq_true, ↓reduceIte] at h
          exact .inr (settleStep_below h)

/-- A settled top entry has lanes and runs. -/
theorem settled_top {tm : Mask} {t : DivEntry} {r : List DivEntry} (h : settleStep tm (t :: r) = none) :
    (t.mask == 0) = false ∧ t.kind = 0 := by
  simp only [settleStep] at h
  split at h
  · simp at h
  · rename_i h0
    split at h
    · simp at h
    · rename_i h1
      exact ⟨by simpa using h0, by simpa using h1⟩

end Sys2Proof.Machine
end

