-- ==== Sys2Proof/Tests/Slice0.lean ====
section
/-!
SUPPORT. Tests/Slice0.lean: the model's own tests. First ill-formed terms, each refused by the check that it breaks; then
words of the spec and what they decode to; then the spec's worked examples; then, for every statement with hypotheses,
concrete states and operands that meet them.
-/
namespace Sys2Proof.Tests
open Sys2Proof.Machine Sys2Proof.Rule

-- One theorem at a time: each of them is a small evaluation, and many at once need a stack each.
set_option Elab.async false

/-! ## Builders -/

def h0 : Hdr := ⟨.none, false, .none, 0⟩

/-- An operand for a field that the instruction uses, none otherwise. -/
def used (i : Instr) (f : Fld) (o : Opnd) : Opnd := if i.operands.any (fun u => u.fld == f) then o else .none

def iR (mk : IntR → Instr) (ty : Ty) (sub : BitVec 8 := 0) : Instr :=
  let i := mk ⟨h0, ty, sub, .v 4, .v 8, .v 12, .v 16⟩
  mk ⟨h0, ty, sub, used i .D (.v 4), used i .A (.v 8), used i .B (.v 12), used i .C (.v 16)⟩
def iI (mk : IntI → Instr) (ty : Ty) (imm : Word) (sub : BitVec 8 := 0) : Instr :=
  let i := mk ⟨h0, ty, sub, .v 4, .v 8, imm⟩
  mk ⟨h0, ty, sub, used i .D (.v 4), used i .A (.v 8), imm⟩
def fR (mk : FltR → Instr) (ty : Ty) : Instr :=
  let i := mk ⟨h0, ty, .dflt, false, false, .v 4, .v 8, .v 12, .v 16⟩
  mk ⟨h0, ty, .dflt, false, false, used i .D (.v 4), used i .A (.v 8), used i .B (.v 12), used i .C (.v 16)⟩
def fI (mk : FltI → Instr) (ty : Ty) (imm : Word) : Instr := mk ⟨h0, ty, .dflt, false, false, .v 4, .v 8, imm⟩
def pR (mk : PlainR → Instr) : Instr := mk ⟨h0, 0, .none, .none, .none, .none⟩
def pI (mk : PlainI → Instr) (imm : Word) : Instr := mk ⟨h0, 0, .none, .none, imm⟩
/-- A memory access of 32 bits at v8 (a pair where the space is global) plus an offset. -/
def mF (mk : MemF → Instr) (scope : Scope) (size : MSize) (flags : BitVec 8 := 0) (off : BitVec 21 := 0) : Instr :=
  let i := mk ⟨h0, .v 4, .v 8, .none, scope, size, flags, .v 20, off⟩
  mk ⟨h0, used i .D (.v 4) |> (fun o => if o = .none then used i .C (.v 4) else o), used i .A (.v 8), .none, scope, size, flags,
    used i .FLAG (.v 20), off⟩
def xF (mk : XF → Instr) (d a b : Opnd) (eng : BitVec 45) : Instr := mk ⟨h0, d, a, b, eng⟩

/-- A wave of core 0 of die 0 with four lanes, at address 0, and its one group. -/
def x0 : Sel := ⟨0, 0, 0, 63⟩
def w0 : Wave := { valid := true, n := 384, gid := 1, div := { stack := [runE 0 0 0xF] } }
def c0 : Core := { groups := [{ id := 1, waves := [0], skib := 32, nb := 16 }] }
def at0 (w : Wave) (c : Core) : State := { (({} : State).setWave 0 w).setCore 0 c with cur := some x0 }
def s0 : State := at0 w0 c0

/-- A wave of management core 0 of die 0: handler mode, physical addresses. -/
def xm : Sel := ⟨0, 96, 0, 63⟩
def atM (w : Wave) (c : Core) : State := { (({} : State).setWave xm.wk w).setCore xm.ck c with cur := some xm }
def sm : State := atM w0 {}

/-- Each executes, with a slot after it. -/
def run (s : State) (x : Sel) (l : List Instr) : Bool := l.all (fun i => ready i s x && inside s x)
/-- What an answer holds. -/
def after (o : Host.Outcome State Fault Refusal) (p : State → Bool) : Bool := match o with | .next t => p t | _ => false

/-! ## Ill-formed terms -/

/-- R44: a field in use without an operand, an unused field with one, a reserved operand code. -/
theorem test_wf_fields : [Instr.add ⟨h0, .s32, 0, .v 5, .none, .v 7, .none⟩, .add ⟨h0, .s32, 0, .v 5, .v 2, .v 7, .v 1⟩, .nop ⟨h0, 0, .v 1, .none, .none, .none⟩,
    .movRi ⟨h0, .b32, 0, .v 5, .v 2, 1⟩, .add ⟨h0, .s32, 0, .v 420, .v 2, .v 7, .none⟩].all (fun i => !i.fieldsOk && !i.wf) = true := by decide +kernel
/-- R41. -/
theorem test_wf_guard : (⟨.none, true, .none, 0⟩ : Hdr).guardOk = false ∧ (Instr.nop ⟨⟨.none, true, .none, 0⟩, 0, .none, .none, .none, .none⟩).wf = false := by
  decide +kernel
/-- R42: ENT without SEL, ENT 3, a field the format lacks, 511 or an h name selected, a field that is not read as a value. -/
theorem test_wf_hold : [Instr.add ⟨⟨.none, false, .none, 1⟩, .s32, 0, .v 5, .v 2, .v 7, .none⟩, .add ⟨⟨.none, false, .A, 3⟩, .s32, 0, .v 5, .v 2, .v 7, .none⟩,
    .addRi ⟨⟨.none, false, .B, 0⟩, .s32, 0, .v 5, .v 2, 1⟩, .add ⟨⟨.none, false, .C, 0⟩, .s32, 0, .v 5, .v 2, .v 7, .none⟩,
    .add ⟨⟨.none, false, .A, 0⟩, .s32, 0, .v 5, .h 1, .v 7, .none⟩, .aftest ⟨⟨.none, false, .A, 0⟩, .b32, 0, .v 5, .v 2, .none, .none⟩,
    .baton ⟨⟨.none, false, .A, 0⟩, 0, .v 20, .v 41, 1⟩].all (fun i => !i.holdOk && !i.wf) = true := by decide +kernel
/-- R103, R104: types, SAT, WIDE, PART and IMM32 of group 000. -/
theorem test_wf_integer : [iR .add .f32, iR .add .b32 1, iR .add .s32 2, iR .mul .s64 2, iR .mul .s32 3, iR .div .n32 1, iR .mulhi .b32, iR .neg .n32,
    iR .addc .s32, iR .sad .s32, iR .dot4 .s8 2, iR .and .s32, iI .shlRi .b32 256, iR .shr .b32, iI .bfxRi .n32 0x10000, iI .bfiRi .b32 0x10000,
    iI .bpickRi .b32 0x100000, iR .bfn .s32, iR .mov .s32, iI .movRi .b32 1 1, iI .movRi .b64 1 3, iR .lea .b32, iR .sadd .n32 32, iR .afset .s32,
    iR .aftest .n32, iR .afclr .s32].all (fun i => !i.modOk && !i.wf) = true := by decide +kernel
/-- R118, R133, R147, R148: types, RND, FTZ, SAT and COND of floats, compares and conversions. -/
theorem test_wf_float : [fR .fadd .s32, Instr.fmin ⟨h0, .f32, .rz, false, false, .v 4, .v 8, .v 12, .none⟩, .fmin ⟨h0, .f32, .dflt, false, true, .v 4, .v 8, .v 12, .none⟩,
    .fabs ⟨h0, .f32, .dflt, true, false, .v 4, .v 8, .none, .none⟩, fR .fdiv .f16, fR .fsqrt .bf16, fR .frsq .f16, fR .fex2 .f64, fR .ftanh .f64,
    fR .ffrac .f16x2, fR .fdot2 .f32, fI .faddRi .f16 0x10000, .cvt ⟨h0, .s32, .s32, .dflt, false, .v 4, .v 8, .none, .none⟩,
    .cvt ⟨h0, .f32, .f16, .rz, false, .v 4, .v 8, .none, .none⟩, .cvt ⟨h0, .s8, .s64, .rn, false, .v 4, .v 8, .none, .none⟩,
    .fpack ⟨h0, .f32, .f16x2, .dflt, false, .v 4, .v 8, .v 12, .none⟩, .fsplit ⟨h0, .f32, .bf16x2, .dflt, true, .v 4, .v 8, .none, .none⟩,
    .cmp ⟨h0, .s32, .lt, true, .v 4, .v 8, .v 12, .none⟩, .cmp ⟨h0, .b32, .lt, false, .v 4, .v 8, .v 12, .none⟩,
    .cmp ⟨h0, .s8, .eq, false, .v 4, .v 8, .v 12, .none⟩].all (fun i => !i.modOk && !i.wf) = true := by decide +kernel
/-- R153 to R176, R179: lanes and control. -/
theorem test_wf_control : [iR .lxch .b32 4, iI .lxchRi .b32 32 1, iR .vote .b32 4, iR .lred .b32 2, iR .lscan .f32 1, iR .elect .b64, iI .rdlaneRi .b32 32,
    .br ⟨h0, 1, 1, .none, 0⟩, .brc ⟨h0, 1, 1, .v 1, 2⟩, .brany ⟨h0, 1, 1, .v 1, 0⟩, .jtab ⟨h0, .none, .v 1, .v 2, 0⟩, .call ⟨h0, 1, 1, .none, 0⟩, .call ⟨h0, 1, 0, .v 4, 0⟩,
    .callt ⟨h0, .none, .v 1, .v 2, 0⟩, pI .lpad 0x10000, pI .baton 0].all (fun i => !i.modOk && !i.wf) = true := by decide +kernel
/-- R219 to R245: memory. -/
theorem test_wf_memory : [mF .ld .grp .b32, mF .ld .lane .b32 0x10, mF .st .lane .s8, mF .pf .lane .b32, .ldt ⟨h0, .v 4, .v 8, .v 12, 0⟩, mF .atom .lane .b32,
    mF .atoms .die .b32, mF .red .die .b32 0x06, mF .atom .die .n8, mF .cas .die .b32 1, mF .futld .grp .b64, mF .futst .obs .b64, mF .fence .die .n8 0 4,
    mF .acq .lane .b64, mF .rel .obs .b64, xF .sbind (.v 4) (.v 8) (.v 12) 0, xF .rcell (.v 4) (.v 8) .none 1, pI .phase 8].all
    (fun i => !i.modOk && !i.wf) = true := by decide +kernel
/-- R198 to R213, R248: queues, barriers, owner bits, counters. -/
theorem test_wf_queues : [xF .qbind .none (.sp .zero) .none 0, xF .qfree .none .none .none 1, Instr.qstat ⟨h0, 0x20, .v 4, .none, .none, .none⟩,
    xF .barInit .none .none .none 0, xF .barSync .none .none .none 1, xF .barExpect (.v 4) (.v 8) .none 0, xF .own .none (.v 4) .none 0,
    pI .waitc 0x1000000].all (fun i => !i.modOk && !i.wf) = true := by decide +kernel
/-- R261, R290, R322, R405: engines, graph and system. -/
theorem test_wf_engines : [xF .cpy .none (.v 2) .none 0x40000000, xF .cpy .none (.v 2) .none 0x04000000, xF .cpy .none (.v 2) (.v 4) 0, xF .cpyx .none .none .none 1, xF .cpyst (.v 4) .none .none 0x40000000000, xF .mxgo .none (.v 16) .none 1,
    xF .mxgrd .none (.v 1) .none 8, xF .mxrd .none (.v 1) .none 2, xF .mxwr .none (.v 1) .none 2, xF .recld (.v 4) .none .none 0x20, xF .emit .none (.v 4) .none 0x100,
    xF .nend .none .none .none 1, xF .edgest (.v 4) .none .none 8, xF .svdiv (.k 0) (.k 2) .none 1, xF .qsave (.k 0) (.k 2) .none 0x20, xF .bsave (.k 0) (.k 2) .none 0x100,
    xF .kmov (.k 0) .none (.k 1) 0x10, xF .hret .none .none .none 2, xF .srd (.k 0) .none .none 0x10000, xF .halt .none .none .none 1].all
    (fun i => !i.modOk && !i.wf) = true := by decide +kernel
/-- Events whose unit does not exist. -/
theorem test_wf_events : [Instr.fbFlush 2, .futureAnswer 0 32, .bankHot 0 512, .wakeRequest 0 512 (.unit 0) true, .wakeRequest 2 0 (.unit 0) true, .issueTurn 0 99 0, .waveEnd 0 0 64, .loadComplete 2 0 0 0,
    .sleepExpire 0 0 0 40, .queuePush 0 99, .barrierDoneMsg 0 0 256, .tailEnd 0 0 32, .copyStop 0 0 4, .mxnodeRecord 0 96 0 0, .gatherFull 2 0 0, .rayTake 0 12 0 0,
    .vftWrite .punty 4 0 0, .vfselWrite .punty 4 0, .gddrRetrain 2 0 true, .linkReplay .ucie 0 32, .managementWaveStart 0 3 0 8].all
    (fun i => !i.modOk && !i.wf) = true := by decide +kernel

/-! ## Words -/

theorem test_decode_words : Obligations.DecodeWords := by unfold Obligations.DecodeWords; decide +kernel

/-- Words that the spec's program listings and rules write out: R173's branch, R137, R222, R237, R290, R326, R408, R248. -/
theorem test_decode_control : decode 0x60BFE0000000040000702800 = .ok (.brc ⟨h0, 4, 7, .v 5, 0⟩) := by decide +kernel
theorem test_decode_float : decode 0x20FFE0018000202C40000000 = .ok (.ffma ⟨h0, .f32, .rz, false, false, .v 3, .v 0, .v 1, .v 2⟩) := by decide +kernel
theorem test_decode_memory : (match decode 0x803FE0020080C10081200010 with | .ok (.ld f) => f.d == .v 4 | _ => false) = true := by decide +kernel
theorem test_decode_copy : (match decode 0xC03FE0FF8380410080000000 with | .ok (.cpy f) => f.a == .v 14 | _ => false) = true := by decide +kernel
theorem test_decode_matrix : decode 0xC43FE0FF843FE00000000000 = .ok (xF .mxgo .none (.v 16) .none 0) := by decide +kernel
theorem test_decode_graph : decode 0xC87FE0FF813FE00000000023 = .ok (xF .emit .none (.v 4) .none 0x23) := by decide +kernel
theorem test_decode_waitc : decode 0xA47FE0FFFFC03FFC00000000 = .ok (pI .waitc 0xFFF000) := by decide +kernel

/-- R66, R44, R52, R53, R54: an unassigned opcode, a reserved bit, a rounding mode, a condition and a size that are none. -/
theorem test_decode_refuses : [0x7FBFE0028080FFF400000000, 0x003FE0028080FFF400000001, 0x20FFE0018000202CE0000000, 0x443FE00202019FF4F0000000,
    0x803FE0020080C3C081200010].map decode = [.error .unassigned, .error .reserved, .error .noRound, .error .noCond, .error .noSize] := by decide +kernel
/-- R43, R58 to R65: words written out field by field, one for each format that no example of the spec shows. -/
theorem test_decode_compare : decode 0x443FE00202019FF420000000 = .ok (.cmp ⟨h0, .s32, .lt, false, .v 4, .v 8, .v 12, .none⟩) := by decide +kernel
/-- `addRi`: OP 0x040, D 4, A 8, IMM32 1, MOD 0x400 (`.s32`). -/
theorem test_decode_immediate : decode 0x103FE0020200000000500000 = .ok (.addRi ⟨h0, .s32, 0, .v 4, .v 8, 1⟩) := by decide +kernel
/-- R40, R42: a guard negated and an operand held. -/
theorem test_decode_header : decode 0x000056028080FFF400000000 = .ok (.add ⟨⟨.v 2, true, .A, 2⟩, .s32, 0, .v 5, .v 2, .v 7, .none⟩) := by decide +kernel
theorem test_encode_words : [encode (.nop ⟨h0, 0, .none, .none, .none, .none⟩), encode (xF .emit .none (.v 4) .none 0x23)] =
    [0x603FE0FFFFFFFFF000000000, 0xC87FE0FF813FE00000000023] := by decide +kernel

/-! ## Statements about instructions that work in registers -/

theorem witness_IntegerArithmetic : run s0 x0 [iR .add .s32, iI .addRi .s32 1, iR .sub .n64, iI .subRi .b32 1, iR .mulhi .s32, iR .mul .s32 2,
    iI .mulRi .n32 3 2, iR .mad .s64, iR .div .s32 1, iI .divRi .n32 0, iR .rem .s64, iI .remRi .s32 2, iR .neg .s32, iR .abs .s64, iR .min .n32,
    iI .minRi .s32 1, iR .max .s32, iI .maxRi .n64 1, iR .clamp .s32, iR .addc .n32, iR .subb .n32, iR .sad .s8, iR .dot4 .s8 1] = true := by decide +kernel
theorem witness_BitInstructions : run s0 x0 [iR .and .b32, iI .andRi .b64 1, iR .or .b32, iI .orRi .b32 1, iR .xor .b64, iI .xorRi .b32 1,
    iR .not .b32, iR .andn .b32, iR .bfn .b64 0xE8, iR .popc .b64, iR .clz .b32, iR .ctz .b32, iR .brev .b32, iR .shl .b32, iI .shlRi .b64 255,
    iR .shr .s32, iI .shrRi .n64 32, iR .rot .b32, iI .rotRi .b32 33, iR .bfx .s32, iI .bfxRi .n32 0x2108, iR .bfi .b32, iI .bfiRi .b32 0x0808,
    iR .bpick .b32, iI .bpickRi .b32 0x53] = true := by decide +kernel
theorem witness_MovesAndAddresses : run s0 x0 [iR .mov .b64, iI .movRi .b64 5 2, iI .movRi .b32 5, iR .sel .b32, iR .lea .n32 4, iI .leaRi .s32 8 31,
    iR .sadd .n32 5, iI .saddRi .b32 1 0, iR .afset .n32, iI .afsetRi .b32 4, iR .aftest .b64, iR .afclr .b32] = true := by decide +kernel
theorem witness_Compares : run s0 x0 [.cmp ⟨h0, .s32, .lt, false, .v 4, .v 8, .v 12, .none⟩, .cmpRi ⟨h0, .b64, .eq, false, .v 4, .v 8, 1⟩,
    .cmpm ⟨h0, .n64, .ge, false, .v 4, .v 8, .v 12, .none⟩, .cmpmRi ⟨h0, .s32, .ne, false, .v 4, .v 8, 1⟩,
    .cmp ⟨h0, .f32, .lt, true, .v 4, .v 8, .v 12, .none⟩, .cmpRi ⟨h0, .f16, .eq, false, .v 4, .v 8, 1⟩,
    .cmpm ⟨h0, .f64, .ge, false, .v 4, .v 8, .v 12, .none⟩, .cmpmRi ⟨h0, .bf16, .ne, false, .v 4, .v 8, 1⟩] = true := by decide +kernel
theorem witness_FloatArithmetic : run s0 x0 [fR .fadd .f32, fI .faddRi .f32 0x3F800000, fR .fsub .f64, fI .fsubRi .f16 1, fR .fmul .bf16,
    fI .fmulRi .f16x2 1, fR .ffma .f32, fR .fdot2 .f16x2] = true := by decide +kernel
theorem witness_FloatOrderAndSigns : run s0 x0 [fR .fmin .f32, fI .fminRi .f32 1, fR .fmax .f64, fI .fmaxRi .f16 1, fR .fclamp .f32, fR .fabs .f32,
    fR .fneg .f64, fR .fcsgn .f16x2] = true := by decide +kernel
theorem witness_FloatFunctions : run s0 x0 [fR .fdiv .f32, fR .fsqrt .f64, fR .frcp .f32, fR .frsq .f32, fR .fex2 .f16, fR .flg2 .f32, fR .fsin .f32,
    fR .fcos .f16, fR .ftanh .bf16, fR .ffloor .f32, fR .fceil .f64, fR .ftrunc .f16, fR .frint .f32, fR .ffrac .f32, fR .fscale .f32,
    fR .fgetexp .f64, fR .fclass .f32] = true := by decide +kernel
theorem witness_Conversions : run s0 x0 [.cvt ⟨h0, .s32, .f32, .rn, true, .v 4, .v 8, .none, .none⟩, .cvt ⟨h0, .f64, .f16, .dflt, false, .v 4, .v 8, .none, .none⟩,
    .cvt ⟨h0, .n8, .s64, .dflt, false, .v 4, .v 8, .none, .none⟩, .fpack ⟨h0, .f16x2, .f32, .rz, false, .v 4, .v 8, .v 12, .none⟩,
    .fsplit ⟨h0, .f32, .bf16x2, .dflt, false, .v 4, .v 8, .none, .none⟩] = true := by decide +kernel
theorem witness_Lanes : run s0 x0 [iR .lxch .b32 1, iI .lxchRi .b64 (-31) 1, iR .vote .b32 2, iR .lmatch .b32, iR .elect .b32, iR .lred .s32 2, iR .lred .f32 1,
    iR .lscan .n32 8, iR .rdlane .b32, iI .rdlaneRi .b64 31, iR .wrlane .b32] = true := by decide +kernel
theorem witness_TrapsAndSleep : run s0 x0 [pR .nop, pI .lpad 7, pI .sleep 0, pI .sleep 0xFFFF, pI .trap 1, pI .brk 0xFFFF] = true := by decide +kernel
/-! ## Control -/

/-- A line at address 0 whose slot 1 is a target and slot 2 a landing pad with label 7 (a target too), and a table at 0x100 that names slot 2. -/
def lineC : Nat := makeLine 6 0 [0, 0, (encode (pI .lpad 7)).toNat]
def mC : State := (({} : State).writePhys 0 (toBytes 64 lineC)).writePhys 0x100 (toBytes 8 2)
/-- v8 is 1 in lanes 0 and 1, v10 is 0x100 in every lane, v12:v13 and v14:v15 are addresses by lane. -/
def regsM : FMap Word := [256, 257].map (fun k => (k, 1)) ++ (List.range 4).map (fun l => (320 + l, 0x100)) ++ (List.range 4).map (fun l => (384 + l, .ofNat 32 (0x1000 + 8 * l)))
def wM : Wave := { valid := true, n := 384, regs := regsM, div := { stack := [runE 0 0 0xF] } }
def sC : State := { mC.setWave xm.wk wM with cur := some xm }
def brc1 : BrF := ⟨h0, 1, 2, .v 8, 0⟩

theorem witness_Branching : run sC xm [.br ⟨h0, 1, 0, .none, 0⟩, .brc brc1, .brc ⟨h0, 1, 0, .v 9, 1⟩, .brany ⟨h0, 1, 0, .v 8, 0⟩, .brall ⟨h0, 1, 0, .v 10, 1⟩, .brall ⟨h0, 1, 0, .v 8, 0⟩] = true ∧
    target (sC.run xm).pc 1 = some 1 ∧ sC.checkTarget xm 1 none = none ∧ target (sC.run xm).pc 2 = some 2 ∧
    taken (.brc brc1) brc1 sC xm = [0, 1] ∧ taken (.brany ⟨h0, 1, 0, .v 9, 0⟩) ⟨h0, 1, 0, .v 9, 0⟩ sC xm = [] := by decide +kernel
theorem witness_BadBranchTarget : run sC xm [.br ⟨h0, -1, 0, .none, 0⟩, .br ⟨h0, 3, 0, .none, 0⟩] = true ∧ target (sC.run xm).pc (-1) = none ∧
    target (sC.run xm).pc 3 = some 3 ∧ sC.checkTarget xm 3 none = some (2, none) := by decide +kernel
/-- Index v9, table v10, LABEL 7, BOUND 1, and a join in the low bits of the jump. -/
def jt (low : Nat) : XF := ⟨h0, .none, .v 9, .v 10, .ofNat 45 (7 * 2 ^ 29 + 2 ^ 18 + low)⟩
theorem witness_JumpTable : run sC xm [.jtab (jt 0), .jtab (jt 2)] = true ∧
    ((cxOf (.jtab (jt 0)) sC xm).act.all (fun l => sC.tableEntry (cxOf (.jtab (jt 0)) sC xm) (jt 0) l == .goes 2)) = true := by decide +kernel
def call0 : BrF := ⟨h0, 1, 0, .none, 0⟩
/-- On-chip entries full, and no spill area. -/
def sFull : State := { mC.setWave xm.wk { wM with div := { wM.div with rets := (List.range 4).map (fun l => (l, { oncnt := 4 })) } } with cur := some xm }
theorem witness_Calls : run sC xm [.call call0, .callt (jt 0)] = true ∧ ((List.range 4).all (fun l => sC.canPush xm l)) = true ∧
    run sFull xm [.call call0] = true ∧ sFull.checkTarget xm 1 none = none ∧ sFull.canPush xm 0 = false := by decide +kernel
/-- A tail of wave 0 in tail slot 5. -/
def xt : Sel := ⟨0, 0, 0, 5⟩
def tl5 : Tail := { valid := true, wave := 0, fb := 4, fs := 40, lanes := 3, stack := [runE 0 0 3] }
def sT : State := { (s0.setTail xt.tk tl5) with cur := some xt }
theorem witness_ReturnsAndExits : run sFull xm [pR .ret, pR .exit] = true ∧ run sT xt [pR .ret] = true := by decide +kernel

/-! ## Memory -/

def ldM : MemF := ⟨h0, .v 4, .v 12, .none, .lane, .b32, 0, .none, 0⟩
def stM : MemF := ⟨h0, .v 4, .v 12, .none, .lane, .b32, 0, .v 20, 0⟩
def ldsM : MemF := ⟨h0, .v 4, .v 14, .none, .lane, .b32, 0, .none, 0⟩
/-- A clustered group: its window is its own scratchpad. -/
def sK : State := at0 { w0 with gid := 1 } { c0 with groups := [{ id := 1, waves := [0], skib := 32, nb := 16, nc := 1, clu := true }] }
theorem witness_LoadsAndStores : run sC xm [.ld ldM, .st stM, .pf { ldM with d := .none, size := .n8 }, .lds ldsM, .sts ldsM] = true ∧
    ((List.range 4).all (fun l => (globHit .rd (.ld ldM) ldM sC xm l).cause .none == none && (globHit .wr (.st stM) stM sC xm l).cause (.v 20) == none
      && (scrHit (.lds ldsM) ldsM sC xm l).cause .none == none)) = true ∧
    run sK x0 [.ldc ldsM, .stc ldsM] = true ∧ ((List.range 4).all (fun l => (cluHit (.ldc ldsM) ldsM sK x0 l).cause .none == none)) = true := by decide +kernel
/-- A base that is misaligned in lanes 2 and 3. -/
def ldBad : MemF := { ldM with base := .v 8, size := .b32 }
def stsBad : MemF := { ldsM with base := .v 8 }
theorem witness_AccessCauses : run sC xm [.ld ldBad, .st ldBad, .lds stsBad, .sts stsBad] = true ∧
    (List.range 4).map (fun l => ((globHit .rd (.ld ldBad) ldBad sC xm l).cause .none).map Prod.fst) = [some 5, some 5, none, none] ∧
    (List.range 4).map (fun l => ((globHit .wr (.st ldBad) ldBad sC xm l).cause .none).map Prod.fst) = [some 5, some 5, none, none] ∧
    (List.range 4).map (fun l => ((scrHit (.lds stsBad) stsBad sC xm l).cause .none).map Prod.fst) = [some 5, some 5, none, none] ∧
    run s0 x0 [.ldc ldsM, .stc ldsM] = true ∧ ((cluHit (.ldc ldsM) ldsM s0 x0 0).cause .none).map Prod.fst = some 8 := by decide +kernel
theorem witness_AddressChecks : s0.handler x0 = false ∧ (s0.groupOf x0).skib = 32 ∧ (s0.groupOf x0).clu = false ∧
    (s0.agent x0).root = some 0 ∧ (s0.agent x0).launch = none ∧ s0.translate (s0.agent x0).ck 0 64 = none := by decide +kernel
/-- A view at 0x1000 of one dimension, 4 words long, in memory at 0x2000; its address stands in v30:v31. -/
def wV : Wave := { wM with regs := regsM ++ (List.range 4).map (fun l => (32 * 30 + l, 0x2000)) }
def sV : State := { (mC.writePhys 0x2000 (toBytes 64 (0x1000 + 4 * 2 ^ 64 + 4 * 2 ^ 96))).setWave xm.wk wV with cur := some xm }
/-- NCRD 1, ESZ 2 (32 bits), one element, no flag. -/
def tz : XF := ⟨h0, .v 4, .v 8, .v 30, .ofNat 45 (2 ^ 42 + 511 * 2 ^ 27)⟩
theorem witness_TensorAccesses : run sV xm [.ldt tz, .stt tz] = true ∧ tz.tnN = 1 ∧ tz.tnBytes = 4 ∧
    sV.gHit (sV.agent xm) (src (.ldt tz) sV xm .B tz.b 2 0) 64 .rd false = .ok (.glob (.phys 0x2000)) ∧
    ((List.range 4).all (fun l => match elemHit tz sV xm .wr (sV.readAt (sV.agent xm) (.glob (.phys 0x2000)) 64) l 0 with
      | some h => h.cause tz.tFlag == none | none => true)) = true ∧
    run sC xm [.ldt { tz with b := .v 8 }] = true ∧
    (sC.gHit (sC.agent xm) (src (.ldt { tz with b := .v 8 }) sC xm .B (.v 8) 2 0) 64 .rd false).cause .none = some (5, some 1) := by decide +kernel
/-- `.add` and `.cas` of 32 bits, device scope. -/
def atM1 : MemF := ⟨h0, .v 4, .v 12, .none, .dev, .b32, 0x10, .none, 0⟩
def atS1 : MemF := ⟨h0, .v 4, .v 14, .none, .grp, .b32, 0x10, .none, 0⟩
def caM1 : MemF := { atM1 with flags := 0 }
theorem witness_AtomicInstructions : (atM1.kind, atM1.aop) = (1, 0) ∧ run sC xm [.atom atM1, .red atM1, .atoms atS1, .cas caM1, .cass { atS1 with flags := 0 }] = true ∧
    run sK x0 [.atomc { atS1 with scope := .clu }] = true ∧
    ((List.range 4).all (fun l => globAtom .rdwr (.atom atM1) atM1 sC xm l == .ok (.glob (.phys (0x1000 + 8 * l))) && (scrAtom (.atoms atS1) atS1 sC xm l).cause .none == none
      && (cluAtom (.atomc { atS1 with scope := .clu }) { atS1 with scope := .clu } sK x0 l).cause .none == none)) = true := by decide +kernel
/-- One lane. -/
def s1 : State := { mC.setWave xm.wk { wM with div := { stack := [runE 0 0 1] } } with cur := some xm }
def rc : XF := ⟨h0, .v 4, .v 12, .none, 0⟩
theorem witness_ReductionCells : run s1 xm [.rcell rc, .rcfree { rc with d := .none }] = true ∧ (cxOf (.rcell rc) s1 xm).act = [0] ∧
    cellWord true (.rcell rc) rc s1 xm 0 = .ok (.glob (.phys 0x1000)) ∧ cellWord false (.rcfree { rc with d := .none }) { rc with d := .none } s1 xm 0 = .ok (.glob (.phys 0x1000)) ∧ F32.val false 0x3F800000 = .fin false (2 ^ 23) (-23) := by decide +kernel
def fu : MemF := ⟨h0, .v 4, .v 12, .none, .dev, .b64, 0, .v 20, 0⟩
def sE : State := { s1 with empties := [(0x200, true)] }
theorem witness_Futures : run sC xm [.futst { fu with flag := .none }, .futtry fu, .futld fu] = true ∧ run s1 xm [.futclr { fu with flag := .none, d := .none }] = true ∧
    ((List.range 4).all (fun l => globAtom .rdwr (.futld fu) fu sC xm l == .ok (.glob (.phys (0x1000 + 8 * l))))) = true ∧ run sE xm [.futld fu] = true ∧
    globAtom .rdwr (.futld fu) fu sE xm 0 = .ok (.glob (.phys 0x1000)) ∧ FMap.get false sE.empties (0x1000 / 8) = true ∧ (sE.ctx xm).fut = none ∧
    sE.deferred (sE.homeDie 0x1000 * 32 + homeSlice 0x1000) = 0 := by decide +kernel
def sb : XF := ⟨h0, .v 4, .v 12, .v 16, .ofNat 45 (2 ^ 21)⟩
def ac : MemF := ⟨h0, .v 4, .v 12, .none, .dev, .b64, 0, .none, 0⟩
theorem witness_ObjectsAndFences : run sC xm [.sbind sb, .sbind { sb with a := .v 8 }, .sfree { sb with d := .none, a := .none, eng := 0 }, .acq ac, .rel ac, .rel { ac with d := .none },
      mF .fence .dev .n8 0 3] = true ∧ sb.len = 1 ∧
    src (.sbind sb) sC xm .A sb.a 2 0 % 64 = 0 ∧ src (.sbind { sb with a := .v 8 }) sC xm .A (.v 8) 2 0 % 64 = 1 ∧
    ((List.range 4).all (fun l => (objHit (.acq ac) ac sC xm .rd l).cause .none == none && (objHit (.rel ac) ac sC xm .rdwr l).cause .none == none)) = true := by decide +kernel
def rg (b : Opnd) : XF := ⟨h0, .none, .v 12, b, 0⟩
/-- A carved line of the wave's launch with one dirty byte. -/
def sR : State := { sC with regions := [{ die := 0, launch := 3, vbase := 0x1000, size := 0x1000, rd := true, wr := true, fill := true, wbend := true, lines := [(0, { dirty := 1, data := 7 })] }] }
theorem witness_Ranges : run sC xm [.rwb (rg (.v 16)), .rwb (rg (.v 8)), .rinv (rg (.v 16)), .rinv (rg (.v 8)), .icinv (rg (.v 16)), .icinv (rg (.v 8)), pI .phase 5] = true ∧
    (rangeA (.rwb (rg (.v 16))) (rg (.v 16)) sC xm, rangeL (.rwb (rg (.v 16))) (rg (.v 16)) sC xm) = (0x1000, 0) ∧
    rangeL (.rwb (rg (.v 8))) (rg (.v 8)) sC xm = 1 ∧ sC.dirtyLines (sC.agent xm) 0x1000 0 = [] := by decide +kernel
def rq : MemF := ⟨h0, .v 4, .v 12, .none, .lane, .n8, 0, .none, 0⟩
theorem witness_Residency : run sC xm [.resreq rq] = true ∧ ((List.range 4).all (fun l => match sC.resHit (sC.agent xm) (addr (.resreq rq) rq sC xm 2 l) with
    | .ok _ => true | _ => false)) = true := by decide +kernel
/-! ## Batons, joins, queues, barriers -/

def bt : PlainI := ⟨h0, 0, .v 20, .v 8, 2⟩
/-- The top entry of lane 0 to 3 lends v8 to v15. -/
def wB : Wave := { w0 with div := { w0.div with rets := (List.range 4).map (fun l => (l, { oncnt := 1, ent := [(0, ⟨1, 8, 8⟩)] })) } }
def sB : State := at0 wB c0
/-- No tail slot of the core is free: each belongs to wave 1. -/
def sBfull : State := (List.range 32).foldl (fun s k => s.setTail k { valid := true, wave := 1 }) sB
theorem witness_Batons : sT.tailish xt = true ∧ run sT xt [.baton bt] = true ∧ sB.tailish x0 = false ∧ run sB x0 [.baton bt] = true ∧
    run sBfull x0 [.baton bt] = true ∧ (∀ l ∈ (cxOf (.baton bt) sB x0).act, lendsFrame bt sB x0 l) ∧ freeSlot sB x0 0 ∧
    (∀ k < 32, (sBfull.tail (x0.ck * 32 + k)).valid = true) ∧ (cxOf (.baton bt) s0 x0).act = [0, 1, 2, 3] ∧
    (∀ l ∈ [0, 1, 2, 3], ¬ lendsFrame bt s0 x0 l) := by
  unfold lendsFrame freeSlot
  decide +kernel
/-- A live tail of the wave, and 3 loads outstanding. -/
def sJ : State := ((s0.setTail 5 tl5).modWave 0 (fun w => { w with main := { w.main with ld := 3 } }))
theorem witness_JoinsAndCounterWaits : run s0 x0 [pR .fjoin, pI .waitc 0xFFFFFF] = true ∧ run sJ x0 [pR .fjoin, pI .waitc 0] = true ∧
    (sJ.tail 5).wave = 0 ∧ sJ.count x0 .ld = 3 ∧ (∀ c ∈ [Cnt.ld, .st, .cp, .mx], s0.count x0 c = 0) := by decide +kernel

/-- BASE in v9 is 0; queue name 3, DEPTH 32, DIR 0, role 1 (producer). -/
def qb : XF := ⟨h0, .none, .v 9, .none, .ofNat 45 (3 * 2 ^ 40 + 32 * 2 ^ 27 + 2 ^ 23)⟩
def rec0 : QRec := { valid := true, depth := 32, base := 0, ccnt := 1, gid := 1 }
/-- The group's record 7 at BASE 0, and the wave's name 3 bound to it as consumer. -/
def sQ : State := at0 { w0 with binds := [(3, .ofNat 16 (2 ^ 15 + 2 * 2 ^ 13 + 7 * 2 ^ 7))] } { c0 with queues := [(7, rec0)] }
def sQ0 : State := at0 w0 { c0 with queues := [(7, rec0)] }
def sQp : State := sQ.modCore 0 (fun c => { c with pushes := [⟨7, 0, [1], 0⟩] })
def qfr : Instr := .qfree { qb with a := .none, eng := .ofNat 45 (3 * 2 ^ 40) }
def qst : Instr := .qstat ⟨h0, 3, .v 4, .none, .none, .none⟩
theorem witness_Queues : run s0 x0 [.qbind qb, qst, qfr] = true ∧ run sQ0 x0 [.qbind qb] = true ∧ run sQ x0 [.qbind qb, qfr, qst] = true ∧
    run sQp x0 [qfr] = true ∧
    (sQ0.core 0).joins 1 0 = some (7, rec0) ∧ (s0.core 0).joins 1 0 = none ∧ bnd ((sQ.wave 0).bind 3) = true ∧ bnd ((s0.wave 0).bind 3) = false ∧
    (sQp.core 0).pushing 0 7 = true ∧ (sQ.core 0).pushing 0 7 = false := by decide +kernel
theorem witness_QueueBind : mayBind qb s0 x0 0 ∧ mayBind qb sQ0 x0 0 := by
  refine ⟨⟨by decide +kernel, by decide +kernel, by decide +kernel, by decide +kernel, by decide +kernel, ?_⟩,
    by decide +kernel, by decide +kernel, by decide +kernel, by decide +kernel, by decide +kernel, ?_⟩
  · rw [show (s0.core x0.ck).joins (s0.wave x0.wk).gid 0 = none by decide +kernel]
    exact ⟨⟨0, by decide +kernel⟩, by decide +kernel⟩
  · rw [show (sQ0.core x0.ck).joins (sQ0.wave x0.wk).gid 0 = some (7, rec0) by decide +kernel]
    exact ⟨by decide +kernel, by decide +kernel, by decide +kernel⟩

/-! ## Barriers -/

/-- Barrier 1 of the group; v8 is 1 in lanes 0 and 1, v9 is 0. COUNT 1, or EXPARR 3; ARV of an expectation. -/
def bf (arv : Bool) (a : Opnd) (d : Opnd := .none) : XF := ⟨h0, d, a, .none, .ofNat 45 (2 ^ 37 + (if arv then 2 ^ 35 else 0))⟩
def bi : XF := { bf false .none with eng := .ofNat 45 (2 ^ 37 + 3 * 2 ^ 23) }
def bs : XF := bf false .none
def barAll : List Instr := [.barInit bi, .barArrive (bf false .none (.v 4)), .barExpect (bf false (.v 8)), .barExpect (bf true (.v 8) (.v 4)),
  .barWait (bf false (.v 8)), .barWait (bf false (.v 9)), .barTest (bf false (.v 8) (.v 4)), .barSync bs]
/-- A group with 16 barriers at 32, the one named 1 in the given state. -/
def atBar (b : Bar) (m : Ctx := {}) (held : List Held := []) : State :=
  at0 { w0 with main := m, regs := [(256, 1), (257, 1), (288, 5)] } { c0 with groups := [{ id := 1, waves := [0], skib := 32, nb := 16, bbase := 32 }], bars := [(33, b)], held := held }
def sF : State := atBar { kind := 1, exparr := 3, arr := 3 }
def sF1 : State := atBar { kind := 1, exparr := 3, arr := 1 }
def sF0 : State := atBar { kind := 1, exparr := 3, arr := 0, bytes := 4 }
/-- The wave has arrived in PHASE 0 (waiting), and PHASE is now 0 or 1. -/
def sFw : State := atBar { kind := 1, exparr := 3, arr := 2 } { sync := some (some 0) }
def sFd : State := atBar { kind := 1, exparr := 3, arr := 3, phase := 1 } { sync := some (some 0) }
/-- A cluster that straddles both dies: its home record is that of core 0 of each. -/
def sFs : State := at0 w0 { c0 with groups := [{ id := 1, waves := [0], skib := 32, nb := 16, bbase := 32, clu := true, cid := 5, nc := 2, straddle := true }],
                                    bars := [(33, { kind := 2, exparr := 3, arr := 1 })] }
theorem witness_Barriers : [s0, sF, sF1, sF0].all (fun s => run s x0 barAll) = true ∧ run sFw x0 [.barSync bs] = true ∧ run sFd x0 [.barSync bs] = true ∧
    ([sF, sF1, sF0, sFw, sFd].all (fun s => s.barAt x0 1 false == some (0, 33))) = true ∧ s0.barAt x0 1 false = none ∧
    sF.blockedOn 0 33 = false ∧ tokenOf (.barWait (bf false (.v 8))) (bf false (.v 8)) sF x0 = 1 ∧ (sF.bar 0 33).phase = 0 ∧
    tokenOf (.barWait (bf false (.v 9))) (bf false (.v 9)) sF x0 = 5 ∧ (sF.ctx x0).sync = none ∧ (sFw.ctx x0).sync = some (some 0) ∧
    (sFs.otherHome 0 33).isSome = true ∧ sFs.barAt x0 1 true = some (0, 33) ∧
    run sFs x0 [.barArrive { bf false .none (.v 4) with eng := .ofNat 45 (2 ^ 37 + 2 ^ 36) }] = true := by decide +kernel
theorem witness_PlainBar : plainBar sF 0 33 ∧ plainBar sF1 0 33 := by unfold plainBar; decide +kernel

/-! ## The copy engine and the matrix unit -/

/-- Channel 1, no barrier, no slot; the same with a barrier that the group does not have. -/
def cp0 : XF := ⟨h0, .none, .v 14, .v 10, .ofNat 45 (2 ^ 43 + 2 ^ 40)⟩
def cpBar : XF := { cp0 with eng := .ofNat 45 (2 ^ 43 + 2 ^ 40 + 2 ^ 31) }
def k0 : CopyCmd := { kind := 0, wave := 0, gid := 1, at_ := 0, dst := none, bar := none, gslot := none }
def chAt (c : Chan) : State := at0 { w0 with regs := [(256, 1), (257, 1), (288, 0)] } { c0 with chans := [(1, c)] }
/-- One register and channel 1; `own` of one granule from v9 (to the engine) or of 33. -/
def cE (mk : XF → Instr) (a d : Opnd) (eng : Nat := 2 ^ 43) : Instr := mk ⟨h0, d, a, .none, .ofNat 45 eng⟩
/-- A command whose tile is the first granule of the scratchpad. -/
def kT : CopyCmd := { k0 with shape := { dims := [⟨0, 2, 4, 0, 2⟩], e := 4, u := 4, nb := 8, gaddr := 0x1000 }, nb := 8, read := true, started := true }
theorem witness_CopyInstructions : run s0 x0 [.cpy cp0, .cpys cp0, .cpyd cp0, .cpy cpBar] = true ∧ s0.barAt x0 0 false = none ∧
    run (chAt { queue := List.replicate 16 k0 }) x0 [.cpy cp0, cE .cpyx .none (.v 4), cE .cpyst .none (.v 4), cE .cpyst .none (.v 4) (2 ^ 43 + 1)] = true ∧
    (chAt { queue := List.replicate 16 k0 }).engAhead x0 1 = false ∧
    run (chAt {}) x0 [cE .cpywp (.v 8) .none, cE .cpywp (.v 9) .none, cE .cpyx .none (.v 4), cE .cpyst .none (.v 4), cE .own (.v 8) .none 1, cE .own (.v 9) .none 33,
      cE .own (.v 9) .none (2 ^ 44 + 1)] = true ∧
    ((chAt {}).groupOf x0).sd = 32768 ∧ ((chAt { queue := [kT] }).core 0).covered 0 = true ∧ (sQ.core 0).inRing 0 1024 = true ∧
    run (chAt { queue := [kT] }) x0 [cE .own (.v 9) .none 1] = true ∧ run sQ x0 [cE .own (.v 9) .none (2 ^ 44 + 1)] = true := by decide +kernel
/-- Channel 0 of management core 0, whose wave is physical. -/
def chM (c : Chan) (owner : FMap Bool := []) : State := ({} : State).setCore (coreKey 0 96) { groups := [{ id := 1, waves := [0], skib := 32 }], chans := [(0, c)], owner := owner }
theorem witness_CopyMoves : (chanOf (chM { entering := [k0] }) 0 96 0).entering = [k0] ∧ (chanOf (chM { queue := [kT, k0] }) 0 96 0).queue = [kT] ++ k0 :: [] ∧
    ({ kT with cancel := true } : CopyCmd).dropped = true ∧ kT.dropped = false ∧ ({ k0 with code := 1 } : CopyCmd).dropped = false ∧
    FMap.get false ((chM { queue := [kT] } [(0, true)]).core (coreKey 0 96)).owner ((((chM { queue := [kT] }).core (coreKey 0 96)).tileBase kT + 128 * kT.lines) / 1024) = true ∧
    (∀ j < 2, (chM { queue := [kT] } [(0, true)]).elemAt ((chM { queue := [kT] }).agent ⟨0, 96, 0, 63⟩) (kT.shape.elem j).2 4 .rd = .ok (.phys (0x1000 + 4 * j))) := by
  decide +kernel
theorem witness_CopyShapes : (shapeOf 0 (0x1000 + 2 * 2 ^ 104 + 2 * 2 ^ 112) [2 * 2 ^ 32 + 4 * 2 ^ 64 + 2 * 2 ^ 160] [0]).isSome = true := by decide +kernel

def mxAt (m : Mx) (q : FMap QRec := []) : State := at0 w0 { c0 with mx := m, owner := [(0, true), (1, true)], queues := q }
/-- A BF16 job of one row, one column and 16 products; guarded in slot 0; with A from a queue; with a reserved format. -/
def job : MxItem := { kind := 0, wave := 0, gid := 1, at_ := 0, blk := 2 ^ 128 + 2 ^ 144 + 16 * 2 ^ 160 }
def jobG : MxItem := { job with blk := job.blk + 2 ^ 279 }
def jobQ : MxItem := { job with blk := job.blk + 2 ^ 183 }
def jobBad : MxItem := { job with blk := job.blk + 3 * 2 ^ 176 }
def clr : MxItem := { job with kind := 3, blk := 0 }
def resT : MxItem := { kind := 5, wave := 0, gid := 1, at_ := 0, off := 2, eng := 1 }
theorem witness_MatrixInstructions : [s0, mxAt { queue := List.replicate 8 job }].all (fun s => run s x0 [xF .mxgo .none (.v 16) .none 0, xF .mxst .none (.v 16) .none 0,
      xF .mxrd .none (.v 9) .none 0, xF .mxwr .none (.v 9) .none 1, xF .mxclr .none .none .none 0, xF .mxgrd .none (.v 9) .none 2, xF .mxovf (.v 4) .none .none 1,
      xF .mxcan (.v 4) .none .none 0]) = true := by decide +kernel
theorem witness_MatrixMoves : [job, jobG, jobQ, clr].all (fun i => (mxAt { queue := [i] } [(4, { valid := true, dir := 1, depth := 32, base := 0x2000, count := 1, gid := 1 })]).mxCode 0 0 i == none) = true ∧
    (mxAt { queue := [jobBad] }).mxCode 0 0 jobBad = some 1 ∧ (jobG.guarded, jobQ.aq, jobQ.oq, job.aq, job.guarded) = (true, true, false, false, false) ∧
    ((mxAt {} [(4, { valid := true, dir := 1, count := 1 })]).core 0).dirRec 1 = some 4 ∧
    ((mxAt { queue := [resT], slot := some (0, 2) }).core (coreKey 0 0)).mx.slot = some (resT.wave, resT.off) := by decide +kernel
theorem witness_MatrixArithmetic : ∃ p ∈ [(FV.nan, FV.nan)], p.1 = .nan ∨ p.2 = .nan := ⟨_, List.mem_singleton_self _, .inl rfl⟩
/-! ## Graph and system instructions -/

/-- A wave of a launch whose node 0 has records of 16 bytes and an edge to node 1, and whose lane 0 has a record. -/
def nodes2 : List Node := [{ edges := [some ⟨2, 1⟩] }, {}]
def la0 : Launch := { seq := 3, nodes := nodes2, lset := [0], banked := true }
def atNode (f : FunelWave) (l : Launch) : State :=
  { at0 { w0 with funel := { f with launch := some 3, batchn := 4, recs := List.replicate 4 [1, 2, 3, 4], depths := [0, 0, 0, 0], resq := [(0, 8)] }, regs := [(32 * 10, 9), (32 * 10 + 3, 9)] } c0 with launches := [l] }
def sN : State := atNode {} la0
/-- Four words, edge 0; the same for edge 1, which the node does not have. -/
def em : XF := ⟨h0, .none, .v 16, .none, .ofNat 45 3⟩
def em1 : XF := { em with eng := .ofNat 45 (3 + 2 ^ 5) }
theorem witness_GraphInstructions : run sN x0 [xF .recld (.v 4) (.v 9) .none 0, xF .recld (.v 4) (.v 10) .none 0, xF .rngld (.v 4) .none .none 0, .emit em, .emit em1,
      xF .emitn .none (.v 16) (.v 9) 3, xF .nend .none .none .none 0, xF .edgest (.v 4) .none .none 0, xF .xzopen .none .none .none 0,
      xF .xzwait .none .none .none 0] = true ∧
    (sN.wave 0).funel.launch = some 3 ∧ (sN.launch? 3).isSome = true ∧ (cxOf (.emit em) sN x0).act = [0, 1, 2, 3] ∧ FMap.get 0 (sN.launch 3).stamps 0 < 2 ^ 32 := by decide +kernel
theorem witness_Appends : (∀ l < 4, mayAppend sN x0 4 l 0) ∧ ∀ l < 4, ¬ mayAppend sN x0 4 l 1 := by
  refine ⟨fun l hl => ⟨by decide, ⟨2, 1⟩, ?_⟩, fun l hl h => ?_⟩
  · revert l; decide +kernel
  · obtain ⟨-, d, hd, -⟩ := h
    exact absurd (hd.symm.trans (show (sN.nodeOf x0).2.edge 1 = none by decide +kernel)) (by simp)

/-- Selector in v9 (core 0, wave 0), or v16 (a selector that names none); blocks at 0x1000 by lane F; a wave of core 0. -/
def wSub : Wave := { w0 with state := 1 }
def atSub (w : Wave) (block : Nat) (m : Wave := wM) : State := { (mC.writePhys 0x1000 (toBytes 64 block)).setCore 0 { c0 with bars := [(0, { kind := 1, exparr := 2, arr := 2 })] } with
  waves := [(0, w), (xm.wk, { m with regs := m.regs ++ [(32 * 16, 2 ^ 20)] })], cur := some xm }
def sS : State := atSub wSub 3
/-- D v4, A v12 (or v8, misaligned), B a selector. -/
def sysI (mk : XF → Instr) (b : Opnd := .v 9) (a : Opnd := .v 12) (d : Opnd := .v 4) (eng : Nat := 0) : Instr := mk ⟨h0, d, a, b, .ofNat 45 eng⟩
def saves : List (XF → Instr) := [.svdiv, .rsdiv, .qsave, .qrest, .bsave, .brest]
/-- Handler mode of a wave of core 0 whose parked state has a slot to go on at. -/
def wH : Wave := { w0 with state := 3, parked := some { stack := [runE 0 0 0xF] } }
def sH : State := at0 wH c0
theorem witness_SystemSaves : run sS xm (saves.flatMap (fun mk => [sysI mk, sysI mk (.v 16), sysI mk (.v 9) (.v 8), sysI mk .none])) = true ∧
    run sH x0 (saves.flatMap (fun mk => [sysI mk .none, sysI mk])) = true ∧
    subjectOf (sysI .svdiv) sS xm (.v 9) = some x0 ∧ subjectOf (sysI .svdiv (.v 16)) sS xm (.v 16) = none ∧ (sS.wave 0).stopped = true ∧
    sS.drained x0 = true ∧ blockFail (sS.pieces (sS.agent xm) 0x1000 0x1240 .wr) = none ∧
    (sS.readBlock (sS.agent xm) 0x1000 32 % 2 ^ 16, (atSub wSub 7).readBlock (sS.agent xm) 0x1000 32 % 2 ^ 16) = (3, 7) ∧
    sS.groupBar x0 0 = some (0, 0) ∧ sS.groupBar x0 200 = none ∧
    (atSub wSub (3 + 2 ^ 66)).readBlock (sS.agent xm) 0x1000 32 / 2 ^ 66 % 4 = ((atSub wSub 0).bar 0 0).kind := by decide +kernel
/-- The block of a ring of 32 words at BASE 0, DIR 0, with a producer. -/
def qBlock : Nat := 3 + 2 ^ 31 + 2 ^ 29 + 2 ^ 64 + 32 * 2 ^ 99
def sSq : State := atSub wSub qBlock
theorem witness_QueueRestore : inLimits (savedRecord (sSq.readBlock (sSq.agent xm) 0x1000 32)) 1 ∧
    mayJoin sSq x0 0 0 32 0 ∧ (sSq.readBlock (sSq.agent xm) 0x1000 32).testBit 31 = true ∧ sSq.readBlock (sSq.agent xm) 0x1000 32 / 2 ^ 29 % 4 = 1 := by
  refine ⟨by unfold inLimits; decide +kernel, ⟨by decide +kernel, by decide +kernel, by decide +kernel, by decide +kernel, ?_⟩, by decide +kernel, by decide +kernel⟩
  rw [show (sSq.core x0.ck).joins (sSq.wave x0.wk).gid 0 = none by decide +kernel]
  exact ⟨⟨0, by decide +kernel⟩, by decide +kernel⟩

theorem witness_HandlerReturns : run sS xm [sysI .kmov (.v 9) .none, sysI .kmov (.v 16) .none, sysI .kmov (.v 9) (.v 8) .none 8, sysI .hret (.v 9) .none .none,
      sysI .hret (.v 9) .none .none 1, sysI .hret (.v 16) .none .none, sysI .hret .none .none .none, sysI .halt .none .none .none] = true ∧
    run sH x0 [sysI .kmov (.v 9) .none, sysI .hret .none .none .none, sysI .hret (.v 9) .none .none, sysI .halt .none .none .none] = true ∧
    (sS.wave 0).state = 1 ∧ (sS.wave 0).div.stack ≠ [] ∧ (sS.wave 0).faultpc = (sS.run x0).pc ∧ (sS.wave 0).wctx = 0 := by decide +kernel
theorem sound_one : soundStack [runE 0 0 0xF] := ⟨⟨_, _, rfl, by decide, by decide⟩, by decide, by decide⟩
theorem sound_of {s : State} {x : Sel} (h : soundStack (s.wave x.wk).div.stack) (ht : s.tailsOf x.ck x.wave = [])
    (hb : (s.wave x.wk).binds = []) (hn : ∀ i < (s.groupOf x).nb, (match s.groupBar x i with | some (ck, k) => decide ((s.bar ck k).arr ≤ (s.bar ck k).exparr) | none => true) = true) :
    soundToResume s x := ⟨fun _ => h, by simp [ht], by simp [ht], by simp [hb], fun i hi ck k hg => by
      have := hn i hi
      rw [hg] at this
      simpa using this⟩
/-- The handler's wave with its parked state live. -/
def sLive : State := sH.modWave 0 (fun w => { w with div := wH.parked.getD {}, parked := none })
theorem witness_SoundToResume : soundToResume sS x0 ∧ ¬ soundToResume (atSub { wSub with div := { stack := [pendE 0 0 1] } } 3) x0 ∧ soundToResume sLive x0 := by
  refine ⟨sound_of sound_one (by decide +kernel) (by decide +kernel) (by decide +kernel), fun h => ?_,
    sound_of sound_one (by decide +kernel) (by decide +kernel) (by decide +kernel)⟩
  obtain ⟨⟨t, r, he, hk, -⟩, -⟩ := h.1 (by decide +kernel)
  have : pendE 0 0 1 = t := (List.cons.inj (show [pendE 0 0 1] = t :: r from he)).1
  subst this
  exact absurd hk (by decide)
/-- `srd`, `swr` of registers 0, 2, 3, 6. -/
def srs (mk : XF → Instr) (n : Nat) : Instr := match mk ⟨h0, .none, .none, .none, .ofNat 45 n⟩ with
  | .srd f => .srd { f with d := .v 4 } | .swr f => .swr { f with a := .v 12 } | i => i
def sTq : State := sS.modCore xm.ck (fun c => { c with trapq := [⟨false, 3, 0, 0, 0⟩] })
theorem witness_SystemRegisters : run sS xm ([0, 1, 2, 3, 4, 5, 6, 9].map (srs .srd) ++ [0, 2, 3, 6].map (srs .swr) ++ [sysI .mcack .none .none .none]) = true ∧ run sTq xm [srs .srd 0] = true ∧
    run sH x0 [srs .srd 1, srs .srd 0, srs .swr 2, sysI .mcack .none .none .none] = true ∧ (sTq.core xm.ck).trapq ≠ [] := by decide +kernel
/-- A window offset of 4 in v8 of lanes 0 and 1, or of 2 ^ 24; one of 1. -/
def sW (o : Word) : State := sS.modWave xm.wk (fun w => { w with regs := (List.range 4).map (fun l => (256 + l, o)) })
theorem witness_WindowAccesses : [(4, 1), (8, 2)].all (fun p => run (sW (.ofNat 32 p.1)) xm [sysI .winrd (.v 9) (.v 8) (.v 4) (p.2 - 1), sysI .winwr (.v 9) (.v 8) (.v 4) (p.2 - 1)]) = true ∧
    run (sW (2 ^ 24)) xm [sysI .winrd (.v 9) (.v 8)] = true ∧ run (sW 1) xm [sysI .winrd (.v 9) (.v 8), sysI .winwr .none (.v 8)] = true ∧
    coreOf (sysI .winrd) (sW 4) xm (.v 9) = some 0 ∧ run sH x0 [sysI .winrd .none (.v 8), sysI .winwr (.v 9) (.v 8)] = true ∧
    ((sS.wave 0).state, (sS.wave 0).wctx, (sS.wave 0).cause) = (1, 0, 0) := by decide +kernel
theorem witness_Invalidations : run sS xm [sysI .tlbinv (.v 9) (.v 12) .none, sysI .tlbinv .none .none .none 1, sysI .tlbinv (.v 9) (.v 8) .none,
    sysI .l1inv (.v 9) (.v 12) .none, sysI .l1inv .none .none .none 1, sysI .l1inv (.v 9) (.v 8) .none] = true := by decide +kernel
theorem witness_PrivilegedForms : (sysI .svdiv).wf = true ∧ privForm (sysI .svdiv) = true ∧ s0.handler x0 = false ∧ s0.running x0 = true ∧ s0.tailish x0 = false := by decide +kernel
/-! ## Events -/

/-- A load outstanding; a store of the main context. -/
def sAcc : State := at0 { w0 with main := { ld := 1, st := 1 }, accs := [{ id := 1, ctx := 63, load := true, writes := [(132, 5)] }, { id := 2, ctx := 63, load := false, writes := [] }] } c0
def sMsg : State := (sFs.setBar 0 33 { kind := 2, exparr := 3, arr := 0, rwait := true, sent := [7] }).setCore 99 { c0 with
  groups := [{ id := 1, waves := [0], skib := 32, nb := 16, bbase := 32, clu := true, cid := 5, nc := 2, straddle := true }], bars := [(33, { kind := 2, exparr := 3, arr := 3 })] }
def sSlp : State := at0 { w0 with main := { sleep := some 5 } } c0
def sDef : State := { s0 with defer := [{ slice := 0, addr := 0x1000, who := x0, lane := 0, copy := none, got := some 5 }] }
theorem witness_CoreEvents : (s0.chosen 0 0 0).isSome = true ∧ sC.chosen 0 96 1 = none ∧ (match sC.line xm 0 with | .ok d => lwpOk d | .error _ => false) = true ∧
    ((sAcc.wave 0).access? 1 true).isSome = true ∧ ((sAcc.wave 0).access? 2 false).isSome = true ∧ (s0.wave 0).access? 1 true = none ∧
    (sQp.core 0).pushes ≠ [] ∧ sMsg.otherHome 0 33 = some (99, 33) ∧ (sMsg.bar 0 33).sent ≠ [] ∧ (sSlp.ctx x0).sleep = some 5 ∧ sDef.defer ≠ [] ∧
    (s0.ctx x0).blk = none := by decide +kernel
/-- A tail and a wave that have ended, and a group without waves. -/
def sEnd : State := (at0 { w0 with div := {} } c0).setTail 3 { valid := true, wave := 9 }
def sGrp : State := ({} : State).setCore 0 c0
def sStop : State := at0 { w0 with pend := [⟨63, 9, none, 0⟩] } c0
def sPre : State := { s0 with preempts := [⟨0, [0, 0]⟩] }
def wTrap : Wave := { w0 with state := 1, cause := 3 }
theorem witness_StopsAndEnds : ((sEnd.tail 3).valid, (sEnd.tail 3).stack, (sEnd.tail 3).ctx) = (true, [], {}) ∧ sEnd.waveOver 0 0 = true ∧
    s0.waveOver 0 0 = false ∧ sGrp.groupOver 0 0 1 = true ∧ s0.groupOver 0 0 1 = false ∧ (sStop.wave 0).mustStop = true ∧ (s0.wave 0).mustStop = false ∧
    (at0 { w0 with stopReq := true } c0).waves.any (fun p => p.2.mustStop && p.2.pend.isEmpty) = true ∧
    (at0 wTrap c0).storesDrained 0 0 = true ∧ (at0 wTrap c0).postsFirst 0 0 0 = true ∧ (atM { wTrap with gid := 0 } {}).storesDrained xm.ck 0 = true ∧
    ({} : State).coreEmpty 0 0 = true ∧ s0.coreEmpty 0 0 = false := by decide +kernel

/-- Launch 3 with records at node 0 on die 0: `k` of them, of batches of 8 (or a range of 20). -/
def rcd (v : Word) : Rcd := { words := [v, 0, 0, 0] }
def whole : Rcb := { cores := 192, gran := 100000, banks := 512 }
def nG : Node := { gwaves := 2, regg := 16, l1g := 4, rcb := whole }
def laG (kind : Nat) (rs : List Rcd) (n : Node) : Launch := { seq := 3, root := 0, cmask := 1 + 2 ^ 96, nodes := [{ n with kind := kind }], lset := [0, 0], banked := true, queues := [(0, rs)], path := List.replicate 4 whole }
def sG (l : Launch) : State := { ({} : State) with launches := [l], cdie := { stage := 3 } }
def full : Launch := laG 0 (List.replicate 16 (rcd 1)) nG
def part : Launch := laG 0 (List.replicate 3 (rcd 1)) { nG with linger := 5 }
def rng : Launch := laG 1 [rcd 20] nG
theorem witness_GatherEvents : [full, part, rng].all (fun l => (sG l).launch? 3 == some l && (sG l).forms l && (sG l).mayForm 0) = true ∧
    (sG part).closed part 0 = true ∧ (sG (laG 1 [rcd 0] nG)).forms (laG 1 [rcd 0] nG) = true ∧
    (sG (laG 0 [rcd 1] { nG with clu := 1 })).mayForm 0 = true ∧ (sG full).stealable full 0 1 = true ∧ (sG rng).stealable rng 0 1 = false ∧
    (sG (laG 1 (List.replicate 16 (rcd 20)) nG)).stealable (laG 1 (List.replicate 16 (rcd 20)) nG) 0 1 = true ∧
    0 < (sG full).dieSlots 1 ∧ (sG full).formable full 0 1 = false ∧ (sG full).formable full 0 0 = true := by decide +kernel
theorem witness_SoundLaunches : soundLaunches (sG full) := by
  refine ⟨by decide +kernel, fun l hl => ?_⟩
  obtain rfl : l = full := by simpa [sG] using hl
  refine ⟨by decide +kernel, fun n => ?_⟩
  rcases n with _ | n
  · decide +kernel
  · exact (by decide +kernel : ({} : Node).depth ≤ 1024)
/-- The oldest record has lingered. -/
theorem witness_Lingered : Lingered { sG part with dies := [(0, { watch := 100 })] } part 0 0 := ⟨by decide, rcd 1, by decide +kernel, by decide +kernel⟩
def placed0 : Launch := { full with queues := [], formed := [⟨0, 0, 0, [⟨8, List.replicate 8 [1, 0, 0, 0], List.replicate 8 0, none⟩]⟩], nextGno := 1 }
theorem witness_GroupPlacement : (match (sG placed0).nextPlaced 0 with | some (l, f) => l.seq == 3 && f.gno == 0 && ((sG placed0).placeable l f).isSome | none => false) = true ∧
    (sG placed0).candidates 0 ≠ [] ∧ ((sG full).pickCore full 0 1 0 (fun _ => true)).isSome = true ∧
    ((sG full).spot nG 1 0 0 0).isSome = true := by decide +kernel

/-! ## Launches -/

/-- An entry at 0x10000 that names an LRCB at 0x20000, with IRQ; the same, misaligned. -/
def sRing (a : Nat) : State := { ({} : State).writePhys 0x10000 (toBytes 16 (a + 2 ^ 64)) with cdie := { stage := 3, lrbase := 0x10000, lrtail := 1 } }
theorem witness_RingEntries : (sRing 0x20000).memOk 0x10000 16 = true ∧ (sRing 0x20000).memOk 0x20000 128 = true ∧ (sRing 0x20000).readPhys 0x10000 16 / 2 ^ 65 = 0 ∧
    ({ sRing 0 with cdie := { (sRing 0).cdie with lrbase := .ofNat 64 (2 ^ 56) } }.memOk (2 ^ 56) 16) = false ∧ 2 ≤ (sRing 0).cdie.stage ∧ (sRing 0).cdie.lrhead ≠ (sRing 0).cdie.lrtail ∧
    (sRing 0).cdie.arrived = [] := by decide +kernel
/-- An arrival whose LRCB is all zeros, and so rejected. -/
def sArr : State := { ({} : State) with cdie := { stage := 3, arrived := [⟨0x20000, false, 0⟩] } }
/-- A launch of one node, built from files 17 and 20: four RCBs, a graph image, a launch record and a page table of one 1 GiB page. -/
def sLaunch (lflags : Nat) : State :=
  [(0x20000, 8, 0x20080), (0x20008, 1, 3), (0x20020, 8, 0x30000), (0x20028, 8, 0x32000), (0x20039, 1, lflags),
   (0x20080, 8, 0x20100), (0x20088, 1, 2), (0x200A0, 8, 0x40000), (0x200C4, 2, 5),
   (0x20100, 8, 0x20180), (0x20108, 1, 1), (0x20120, 1, 1), (0x20188, 2, 0x3F00), (0x2018C, 2, 192), (0x20190, 2, 6144), (0x20192, 2, 1024),
   (0x30000, 4, 0x10001), (0x3004C, 4, 0x04100008), (0x30058, 1, 1), (0x30060, 1, 1), (0x30064, 1, 8), (0x300A8, 1, 4),
   (0x40000, 8, 0x41001), (0x41000, 8, 0x42001), (0x42000, 8, 0xE2F)].foldl (fun s w => s.writePhys w.1 (toBytes w.2.1 w.2.2)) sArr
/-- It passes every check, and the Funel keeps its structures. -/
theorem witness_KeptStructures : (match (sLaunch 0).checkLaunch 0x20000 with | .ok l => l.root == 0x40000 && l.ctxid == 5 && l.nodes.length == 1 | _ => false) = true ∧
    (match (sLaunch 2).checkLaunch 0x20000 with
      | .ok l => (((sLaunch 2).keepLaunch l).kept.rcbs.map Prod.fst == [0x20180, 0x20100, 0x20080]) && (((sLaunch 2).keepLaunch l).kept.images.map (fun i => i.addr) == [0x30000])
      | _ => false) = true := by decide +kernel
/-- A launch without nodes or carved regions that waits for its banks. -/
def laBank : Launch := { seq := 3, lset := [0, 0], first := [1, 0, 0, 0] }
theorem add_none (lim : Nat) (ok : Nat → Bool) (l : List Nat) : addBanks lim 0 ok l = l := by
  unfold addBanks
  induction bankOrder with
  | nil => rfl
  | cons b r ih => simp
theorem arr_path : sArr.readPath (sArr.freshOf 0x20000) [3, 2, 1, 0] 0x20000 = .error 1 := by decide +kernel
theorem witness_Arrivals : sArr.checkLaunch 0x20000 = .error { code := 1 } ∧ ((sG laBank).bankLaunch laBank).isSome = true := by
  refine ⟨?_, ?_⟩
  · unfold State.checkLaunch
    simp only [arr_path]
  · simp [State.bankLaunch, State.takeLaunchBanks, State.takeBanks, add_none, show laBank.queueBanks = 0 from rfl, show laBank.carves = [] from rfl,
      show (sG laBank).banksAllowed laBank = true by decide +kernel]
    split <;> rfl
def laEnd : Launch := { laG 0 [] nG with lrcb := 0x20000 }
def laDep : Launch := { laEnd with seq := 4, pred := some 3, lrcb := 0x21000 }
theorem witness_LaunchEnds : (sG laEnd).launchOver laEnd = true ∧ (sG full).launchOver full = false ∧ laEnd.retired = false ∧ (sG laEnd).launch? 3 = some laEnd ∧
    ({ sG laEnd with launches := [laEnd, laDep] }.launch? 4) = some laDep ∧ (s0.wave 0).valid = true := by decide +kernel
/-! ## Fixed units: the spec's worked examples, and states in which units act -/

/-- One page of 1 GiB from address 0 on, mapped to itself, under the root 0x100000 (R354, R355). -/
def mPT : State := [(0x100000, 0x101001), (0x101000, 0x102001), (0x102000, 0xE3F)].foldl (fun s p => s.writePhys p.1 (toBytes 8 p.2)) ({} : State)
theorem test_walk : (mPT.translate 0 0x100000 0x12345678).map (fun t => [t.va, t.size, t.pa]) = some [0, 2 ^ 30, 0] := by decide +kernel

/-- FP32 values of the examples: 0, 0.25, 0.5, 1, 2, 4, 32, 36, 100. -/
def f0 : Nat := 0
def fq : Nat := 0x3E800000
def fh : Nat := 0x3F000000
def f1 : Nat := 0x3F800000
def f2 : Nat := 0x40000000
def f4 : Nat := 0x40800000
def f32 : Nat := 0x42000000
def f36 : Nat := 0x42100000
/-- Words packed, the first lowest. -/
def pack (l : List Nat) : Nat := l.foldr (fun w v => w + 2 ^ 32 * v) 0
/-- The pass descriptor of the example: WIDTH 64, HEIGHT 32, DENS 0, the pattern, GEOCAP 2, TLCAP 4, ZWRITE, CLRZ 1.0; areas from 0x200000 on. -/
def desc0 : Nat := 0x200000 + 0x210000 * 2 ^ 64 + 0x220000 * 2 ^ 128 + 2 * 2 ^ 288 + 4 * 2 ^ 320 + 64 * 2 ^ 352 + 32 * 2 ^ 368 + 8 * 2 ^ 408 + f1 * 2 ^ 416 + 0x2D290D09 * 2 ^ 1024
/-- A vertex with Z and constant red or green. -/
def vertex (x y z r g : Nat) : Nat := pack [x, y, z, r + g * 2 ^ 16, 0x3C00 * 2 ^ 16]
def tri (x0 x1 z r g flags : Nat) : Nat := 0x300000 + flags * 2 ^ 64 + vertex x0 f0 z r g * 2 ^ 128 + vertex x1 f0 z r g * 2 ^ 384 + vertex x0 f4 z r g * 2 ^ 640
def words (n v : Nat) : List Word := (List.range n).map (fun i => .ofNat 32 (v / 2 ^ (32 * i)))
def tri0 : List Word := words 32 (tri f0 f4 fh 0x3C00 0 0)
def tri1 : List Word := words 32 (tri f32 f36 fh 0x3C00 0 0)
def tri2 : List Word := words 32 (tri f0 f4 fq 0 0x3C00 1)
/-- The fields of a sample record: X, Y, Z, COL, COVER, TRI. -/
def sampleFields (v : Nat) : List Nat := [fld v 0 2, fld v 2 2, fld v 4 4, fld v 8 2, fld v 10 2, fld v 12 2, fld v 14 2, fld v 26 2, fld v 28 4]
/-- R435: sample 0 of tile 0 after T0 and T2, and of tile 1 after T1. -/
theorem test_raster_samples :
    sampleFields ([(0, tri0), (2, tri2)].foldl (applyTri desc0 0 0) (clearSample desc0 0 0, 0)).1 = [1, 1, 0x3E800000, 0, 0x3C00, 0, 0x3C00, 1, 2] ∧
    sampleFields (applyTri desc0 1 0 (clearSample desc0 1 0, 0) (1, tri1)).1 = [33, 1, 0x3F000000, 0x3C00, 0, 0, 0x3C00, 1, 1] ∧
    (applyTri desc0 0 1 (clearSample desc0 0 1, 0) (0, tri0)).2 = 0 ∧
    (binnedTiles desc0 (packWords tri0), binnedTiles desc0 (packWords tri1), descOk desc0) = ([0], [1], true) := by decide +kernel

/-- The ray of the example, and its triangles A and B. -/
def ray0 : Nat := 0x01200000 + pack [fq, fq, f0, f0, f0, f1, f0, 0x42C80000] * 2 ^ 64 + 0x55 * 2 ^ 448
def triA : Nat := pack [f0, f0, f4, f1, f0, f4, f0, f1, f4, 7]
def triB : Nat := pack [f0, f0, f4, f2, f0, f4, f0, f2, f4, 3]
theorem test_ray_triangles : (triMeets ray0 triA 0x01200100).map (fun h => (h.t, h.prim, h.u, h.v, h.back)) = some (f4, 7, 0x3400, 0x3400, true) ∧
    (triMeets ray0 triB 0x01200130).map (fun h => (h.t, h.prim, h.u, h.v, h.back)) = some (f4, 3, 0x3000, 0x3000, true) ∧
    boxMeets ray0 0x42C80000 (pack [f0, f0, f4, f1, f1, f4]) = true ∧ triMeets (ray0 + 4 * 2 ^ 320) triA 0 = none ∧ rayAtOnce ray0 = none := by decide +kernel
/-- The hierarchy of the example, in memory. -/
def mRay : State := [(0x01200000, 128, pack [f0, f0, f4, f1, f1, f4, f0, f0, f4, f2, f2, f4] + 0x8000000001200100 * 2 ^ 768 + 0x4000000001200080 * 2 ^ 832),
  (0x01200080, 128, pack [f0, f0, f4, f2, f2, f4] + 0x8000000001200130 * 2 ^ 768), (0x01200100, 48, triA), (0x01200130, 48, triB)].foldl
  (fun s p => s.writePhys p.1 (toBytes p.2.1 p.2.2)) mPT
/-- R453: the whole traversal. -/
theorem test_ray_result : (let a := mRay.visits 0x100000 ray0 8 (mRay.travStart 0x100000 ray0)
    (a.best.map (fun h => (h.t, h.prim, h.u, h.v, h.addr)), a.stop, a.todo)) = (some (f4, 3, 0x3000, 0x3000, 0x01200130), none, []) := by decide +kernel
/-- E3: after one leaf the resume record has LEVEL 1, TRAIL 1, TMAX 4.0 and HTRI A. -/
theorem test_ray_resume : (let v := packWords (resumeRecord ray0 (mRay.visits 0x100000 ray0 2 (mRay.travStart 0x100000 ray0)))
    (fld v 40 1, fld v 41 1, fld v 44 4, fld v 36 4, fld v 48 8)) = (8, 1, 1, f4, 0x01200100) := by decide +kernel

/-! ## Statements about the fixed units -/

/-- A launch with a raster node, and one record of T0 in it; the unit of die 0 serves the node. -/
def root0 : Nat := 0x100000
def laRas (kind : Nat) (rs : List (List Word)) : Launch := { seq := 3, root := root0, nodes := [{ kind := kind, rsz := 64, ru := 1, edges := [some ⟨1, 1⟩, some ⟨1, 1⟩] }, { rsz := 64 }],
                                                             lset := [0, 0], banked := true, queues := [(0, rs.map (fun w => { words := w }))] }
def sRas (u : Raster) (l : Launch) : State := { mPT.writePhys 0x300000 (toBytes 256 desc0) with launches := [l], rasters := [(0, u)], cdie := { stage := 3 } }
def serving (p : Option Pass) (ended : Bool := false) : Raster := { serves := some (3, 0), pass := p, ended := ended }
def pass0 : Pass := { addr := 0x300000, desc := desc0 }
theorem witness_RasterUnit : ((sRas (serving none) (laRas 2 [tri0])).rasterNode 0).isSome = true ∧ ((laRas 2 [tri0]).nextStamp 0).isSome = true ∧
    (sRas (serving none) (laRas 2 [tri0])).forms (laRas 2 [tri0]) = true ∧ (sRas {} (laRas 2 [])).rasterNode 0 = none ∧
    (sRas (serving none) (laRas 2 [tri0])).badPage root0 0x300000 256 .rd = none ∧ (sRas (serving none) (laRas 2 [tri0])).readV root0 0x300000 256 = desc0 ∧
    (sRas (serving none) (laRas 2 [tri0])).areaFail root0 pass0 = none ∧ ({} : State).badPage root0 0x300000 256 .rd = some (.fault, 0x300000) ∧
    (sRas (serving (some pass0) true) (laRas 2 [])).passRoom (laRas 2 []) 0 0 2 ≠ none ∧ (laRas 2 []).target 0 0 = some 1 := by decide +kernel
theorem witness_Fragments : (triPoints (packWords tri0)).isSome = true ∧ (match triPoints (packWords tri0) with
    | some [p0, p1, p2] => (coverage [p0, p1, p2] (centre (samplePixel desc0 0 0))).isSome && decide (turn (plane p0) (plane p1) (plane p2) ≠ 0) | _ => false) = true := by decide +kernel
theorem witness_Samples : fld desc0 48 1 ≤ 2 ∧ fld desc0 44 2 ≤ 8192 ∧ 32 ≤ fld desc0 44 2 ∧ (∀ e < 64, fld desc0 (128 + e) 1 < 64) := by decide +kernel

theorem witness_RayRecords : goodRay ray0 ∧ ¬ goodRay (ray0 + 1) := by
  unfold goodRay
  decide +kernel
theorem witness_Vectors : (List.range 3).all (fun i => (match F32.val false (fld ray0 (8 + 4 * i) 4) with | .fin _ _ _ => true | _ => false) &&
    (match F32.val false (fld ray0 (20 + 4 * i) 4) with | .fin _ _ _ => true | _ => false) && (match F32.val false (fld triA (4 * i) 4) with | .fin _ _ _ => true | _ => false)) = true := by decide +kernel
/-- A ray record waits, or is in flight in unit 2. -/
def sRay (rs : List Nat) (fly : Bool) (pre : Bool := false) : State :=
  { mRay with launches := [laRas 3 (rs.map (words 16))], cdie := { stage := 3 }, preempts := if pre then [⟨0, [0, 0]⟩] else []
              rays := if fly then [(0, { units := [(2, [{ id := 7, launch := 3, node := 0, rcd := { words := words 16 ray0 }, home := 0 }])], next := 8 })] else [] }
theorem witness_RayUnits : ((sRay [ray0] false).reserve (laRas 3 [words 16 ray0]) 0 0 1).isSome = true ∧ (sRay [ray0] false).forms (laRas 3 [words 16 ray0]) = true ∧
    (((sRay [] true).raysAt 0).find 2 7).isSome = true ∧ ((sRay [] true).raysAt 0).find 2 6 = none ∧ (sRay [] true true).preempted 0 = true ∧
    (let a := (sRay [] true).visits root0 ray0 2 ((sRay [] true).travStart root0 ray0); (a.stop, a.todo.length)) = (none, 1) := by decide +kernel
theorem witness_TakesRecords : takesRecords [{ words := words 16 ray0 }] 1 := ⟨_, [], rfl, fun _ => rfl, fun h => absurd (.inl (by decide +kernel)) h⟩
theorem witness_Acceptance : mRay.badPage root0 0x01200100 48 .rd = none ∧ fld (mRay.readV root0 0x01200100 48) 40 8 = 0 ∧ mRay.badPage root0 0x01200000 128 .rd = none ∧
    refType 0x4000000001200080 = 1 ∧ refType 0x8000000001200100 = 2 ∧ ({} : State).badPage root0 0x01200100 48 .rd = some (.fault, 0x01200100) := by decide +kernel

/-- A network of one layer with K 16, N 1 and no bias, at 0x400000; A at 0x410000, W at 0x420000, OUT at 0x430000; M 1. -/
def mNet : State := (mPT.writePhys 0x400000 (toBytes 64 1)).writePhys 0x400040 (toBytes 64 (0x420000 + 16 * 2 ^ 128 + 2 ^ 144))
def mxr : Nat := 0x400000 + 0x410000 * 2 ^ 64 + 0x430000 * 2 ^ 128 + 2 ^ 192
theorem witness_MatrixNode : (match mNet.mxNetwork root0 mxr with | .ok l => l == [0] | .error _ => false) = true ∧
    (match ({} : State).mxNetwork root0 mxr with | .error e => e == (2, none) | .ok _ => false) = true ∧
    ({ mNet with launches := [laRas 4 [words 16 mxr]], cdie := { stage := 3 } }.reserve (laRas 4 [words 16 mxr]) 0 0 1).isSome = true ∧
    { mNet with launches := [laRas 4 [words 16 mxr]], cdie := { stage := 3 } }.forms (laRas 4 [words 16 mxr]) = true := by decide +kernel
theorem witness_BadRecord : badRecord (mxr + 1) ∧ ¬ badRecord mxr := by
  unfold badRecord
  decide +kernel

/-! ## Pre-emption and the fabric -/

/-- The wave of launch 3 is stopped by the pre-emption of context 0. -/
def sPr (w : Wave) (watch : Dword := 0) : State := { at0 { w with funel := { launch := some 3 } } { c0 with groups := [{ id := 1, launch := some 3, waves := [0], skib := 32, nb := 16 }] } with
  launches := [{ la0 with cmask := 1 }], preempts := [⟨0, [0, 0]⟩], dies := [(0, { watch := watch })] }
def wPr : Wave := { w0 with state := 2 }
theorem witness_Redirects : (sPr wPr).preempted 0 = true ∧ (sPr wPr).storesDrained 0 0 = true ∧
    (sPr { wPr with main := { st := 1 }, accs := [{ id := 1, ctx := 63, load := false, writes := [] }] } 3000).storesDrained 0 0 = false ∧
    s0.preempted 0 = false ∧ (s0.wave 0).liveLanes ≠ 0 := by decide +kernel
theorem witness_SoundWaves : soundWaves s0 := by unfold soundWaves; decide +kernel
/-- A group of launch 3 was saved, and the context runs again. -/
def laSv : Launch := { full with queues := [] }
def sSv : State := { sG laSv with saved := [{ launch := 3, die := 0, first := 0, gno := 0, gi := 0, area := 0x5000, funel := { launch := some 3, batchn := 4 } }] }
theorem witness_Restores : sSv.launch? 3 = some laSv ∧ sSv.preempted 0 = false ∧
    (sSv.pickCore laSv 0 1 0 (fun c => !sSv.coreHeld (laSv.node 0) 0 c && sSv.tailsFit 0 c (sSv.listed 3 0))).isSome = true := by decide +kernel
/-- The one core of the partition is halted, and an image of another context is in shadow storage. -/
def sSw : State := { sPr { wPr with div := { stack := [runE 0 0 0xF] } } with cdie := { stage := 3 } }
def img (gen : Nat) : Shadow := { gen := gen, ctxid := 5, waves := [(64, { w0 with state := 2 })], cores := [(1, c0)], tails := [], regions := [] }
theorem witness_ShadowSwaps : sSw.partition 0 = [(0, 0)] ∧ sSw.coreHalted 0 0 0 = true ∧
    [3, 2].all (fun g => (({ s0 with shadows := [img g] } : State).shadows.find? (fun h => decide (h.ctxid = 5))).isSome) = true ∧
    ({ s0 with shadows := [img 3] } : State).coreEmpty 0 1 = true := by decide +kernel

theorem witness_Migrations : ({} : State).memOk 0x10000 4096 = true ∧ ({} : State).memOk 0x20000 4096 = true ∧ (0x10000 + 4096 ≤ 0x20000) := by decide +kernel
/-- A load of lanes 0 and 1 that cross the dies, issued at 0; a copy line and a `done` under way. -/
def sTo : State := { at0 { w0 with main := { ld := 1, onBar := some 33 }, accs := [{ id := 1, ctx := 63, load := true, writes := [(132, 5)], xdie := 3 }] }
  { c0 with bars := [(33, { kind := 2, exparr := 1, sent := [0] })], chans := [(1, { queue := [kT] })] } with dies := [(0, { watch := 2000 })] }
theorem witness_Timeouts : ((sTo.wave 0).accs.find? (fun a => decide (a.id = 1))).isSome = true ∧ 100 * (sTo.lehr 0).tmo.toNat ≤ ((sTo.die 0).watch.toNat + 2 ^ 64 - 0) % 2 ^ 64 ∧
    (sTo.chan 0 1).queue = [kT] ∧ (sTo.bar 0 33).sent = [0] ∧ soundWaves sTo := by unfold soundWaves; decide +kernel
/-- Banks of die 0 at watch value 50,000: one HOT, one WARM, one asked for, one that wakes. -/
def sBk : State := { ({} : State) with dies := [(0, { watch := 50000 })], lehrs := [(0, { banks := [(0, { state := 0, role := 2 }), (1, { state := 1, role := 1 }),
  (2, { state := 1, role := 1, req := some ⟨0, 0, 0, 0, false⟩ }), (3, { state := 3, role := 1, req := some ⟨0, 0, 1, 0, false⟩, wakes := some (0, 1) })] })] }
theorem witness_Banks : sBk.keptHot 0 0 = false ∧ ((sBk.lehr 0).bank 0).state = 0 ∧ ((sBk.lehr 0).bank 1).req = none ∧ (sBk.lehr 0).banks.map Prod.fst = [0, 1, 2, 3] ∧
    mayWake (sBk.lehr 0) 50000 2 ∧ ((sBk.lehr 0).bank 3).wakes = some (0, 1) := by
  refine ⟨by decide +kernel, by decide +kernel, by decide +kernel, by decide +kernel, ⟨_, rfl, rfl, by decide⟩, by decide +kernel⟩
/-! ## The command die: the example of R472, and states that meet the statements' hypotheses -/

def cd (c : Cdie) : State := { ({} : State) with cdie := c }
def after1 (o : Host.Outcome State Fault Refusal) : State := match o with | .next t => t | _ => {}
/-- R472: 2,850 MHz at 1,075 mV is refused for VEC, and REJ is set; at 3/8 of WBUD the ceiling is 12, and entry 12 is 2,250 MHz at 950 mV. -/
theorem test_vft_refused : (let x := (after1 (exec (.vftWrite .punty 0 15 (.ofNat 32 (2850 * 2 ^ 16 + 1075))) (cd { hostpm := true }))).cdie.rail 0
    (x.rej, x.fmhz 15, x.vmv 15)) = (true, 2700, 1025) := by decide +kernel
theorem test_wear_ceiling : (let t := after1 (exec (.wearUpdate 0) (cd { stage := 3, off := [false, false], rails := [{ wacc := 3 * 2 ^ 49, cur := 12 }, {}, {}, {}] }))
    ((t.cdie.rail 0).ceil, (t.cdie.rail 0).fmhz 12, (t.cdie.rail 0).vmv 12, (t.cdie.rail 0).wacc.toNat - 3 * 2 ^ 49)) = (12, 2250, 950, 50) := by decide +kernel
theorem witness_PowerAndTelemetry : ({} : Cdie).rails.length = 4 ∧ heeds (cd { verified := true }) .gaffer ∧ heeds {} .punty ∧ ¬ heeds {} .host ∧
    ¬ heeds {} .gaffer ∧ vftRefused {} 15 2850 1050 ∧ ¬ vftRefused {} 15 2700 1025 ∧
    ¬ vftRefused {} 14 2600 1010 := by
  unfold heeds acts vftRefused
  decide +kernel
theorem witness_BringUp : (cd { stage := 1 }).cdie.tripped = false ∧ (cd { stage := 1, tripped := true, down := 5000000 }).cdie.down = 5000000 ∧
    (cd { qbusy := true, qaddr := 0x1000 }).memOk 0x1000 1664 = true ∧ (cd { qbusy := true, qaddr := .ofNat 64 (2 ^ 60) }).memOk (2 ^ 60) 1664 = false := by decide +kernel
theorem witness_Trips : ∃ i < 64, (cd { off := [false, false], sensors := [(5, 2000)] }).cdie.ttrip.toInt < ((cd { off := [false, false], sensors := [(5, 2000)] }).cdie.sensor i).toInt := ⟨5, by decide, by decide +kernel⟩
theorem witness_CommandDieAccess : ({} : State).gddrOk 0x1000 8 = true ∧ ({} : State).gddrOk (2 ^ 60) 8 = false ∧
    (∀ w < 16, (({} : State).wave (coreKey 0 96 * 64 + w)).n % 8 = 0 ∧ (({} : State).wave (coreKey 0 96 * 64 + w)).row % 8 = 0) ∧
    (({} : State).wave (coreKey 0 96 * 64)).valid = false := by decide +kernel

/-! ## Guard, latch, formats of floating point -/

def gAdd (sel : HoldSel) (a : Opnd) (g : Opnd := .none) (gn : Bool := false) : Instr := .add ⟨⟨g, gn, sel, if sel = .none then 0 else 1⟩, .s32, 0, .v 5, a, .v 7, .none⟩
def sLast : State := sC.modWave xm.wk (fun w => { w with div := { stack := [runE (.ofNat 57 (2 ^ 57 - 60)) 0 0xF] } })
theorem witness_Guard : formed (gAdd .none (.v 8) (.v 10)) sC xm = true ∧ sC.active xm (hdrOf (gAdd .none (.v 8) (.v 10))) = [] ∧
    sC.active xm (hdrOf (gAdd .none (.v 8) (.v 8))) = [0, 1] ∧ sC.active xm (hdrOf (gAdd .none (.v 8) (.v 8) true)) = [2, 3] := by decide +kernel
theorem witness_LatchAndExceptions : ready (gAdd .A (.v 8)) sC xm = true ∧ (sC.wave xm.wk).hLive 1 = false ∧ (gAdd .none (.h 1)).wf = true ∧
    ready (pR .nop) sLast xm = true ∧ inside sLast xm = false ∧ ready (gAdd .none (.v 8)) sLast xm = true ∧
    (let s := sC.modWave xm.wk (fun w => { w with fpctl := .ofNat 32 (1 + 0x1F00) })
      let f : FltR := ⟨h0, .f32, .dflt, false, false, .v 4, .v 12, .v 14, .none⟩
      ready (.fadd f) s xm) = true := by decide +kernel

/-! ## The whole machine -/

theorem reset_inv : Inv State.reset := ⟨by decide, by simp [State.reset]⟩
/-- R37: from PC 0x1003, +4 and -4 slots. -/
theorem test_targets : (target 0x1003 4, target 0x1003 (-4)) = (some 0x1042, some 0xFC4) := by decide +kernel
/-- R106: -7 by 2. -/
theorem test_division : (let s := s0.modWave 0 (fun w => { w with regs := [(32 * 8, .ofNat 32 (2 ^ 32 - 7)), (32 * 12, 2)] })
    let t := after1 (exec (iR .div .s32) s)
    let u := after1 (exec (iR .rem .s32) s)
    (((t.wave 0).raw 4 0).toInt, ((u.wave 0).raw 4 0).toInt)) = (-3, -1) := by decide +kernel
/-- The table of file 04 (R119 to R123): L01 to L05 in a wave of 32 lanes whose `groupid` is 3. -/
def runAll (s : State) (l : List Instr) : State := l.foldl (fun s i => (after1 (exec i s)).modWave 0 (fun w => { w with sb := [] })) s
def wAff : Wave := { w0 with div := { stack := [runE 0 0 (~~~0)] } }
def movI (imm : Word) (part : BitVec 8) : Instr := .movRi ⟨h0, .b64, part, .v 2, .none, imm⟩
def affineRun : State := runAll (at0 wAff { groups := [{ id := 1, gno := 3, waves := [0] }] }) [movI 0x1000 0, movI 0x40 2, .sadd ⟨h0, .n32, 5, .v 6, .sp .groupid, .sp .laneid, .none⟩,
  .lea ⟨h0, .n32, 4, .v 8, .v 2, .v 6, .none⟩, .aftest ⟨h0, .b64, 0, .v 10, .v 8, .none, .none⟩, .andRi ⟨h0, .b32, 0, .v 12, .sp .laneid, 1⟩,
  .addRi ⟨⟨.v 12, false, .none, 0⟩, .b32, 0, .v 6, .v 6, 1⟩, .aftest ⟨h0, .b32, 0, .v 11, .v 6, .none, .none⟩]
theorem test_affine : [0, 1, 2, 31].map (fun l => [6, 8, 9, 10, 11, 12].map (fun r => ((affineRun.wave 0).raw r l).toNat)) =
    [[96, 0x1600, 0x40, 1, 0, 0], [98, 0x1610, 0x40, 1, 0, 1], [98, 0x1620, 0x40, 1, 0, 0], [128, 0x17F0, 0x40, 1, 0, 1]] := by decide +kernel
/-- The first step after reset, with a `nop` placed where it fetches: the wave goes on to the next slot. -/
theorem test_first_step : (match step (State.reset.withFetchWord 96 0x603FE0FFFFFFFFF000000000) with
    | .next t => ((t.wave xm.wk).div.stack.map (fun e => e.pc.toNat), t.cur.isNone) | _ => ([], false)) = ([1], true) := by decide +kernel
theorem test_table_word : (match decodeTableWord 96 0x003FE0028080FFF400000000 with | some i => i == .add ⟨h0, .s32, 0, .v 5, .v 2, .v 7, .none⟩ | none => false) = true := by decide +kernel
/-- The machine after reset with a `nop` where it fetches. -/
def sNop : State := State.reset.withFetchWord 96 0x603FE0FFFFFFFFF000000000
theorem witness_StepRuns : sNop.cur = some xm ∧ sNop.running xm = true ∧ (sNop.ctx xm).sleep = none ∧ (sNop.wave xm.wk).mustStop = false ∧
    sNop.fetch xm (sNop.run xm).pc = .slot 0x603FE0FFFFFFFFF000000000 false ∧ decode 0x603FE0FFFFFFFFF000000000 = .ok (pR .nop) := by decide +kernel
theorem witness_Agenda : Inv { State.reset with agenda := [.watchCounterTick 0] } := ⟨by decide, fun i h => by rw [List.mem_singleton.mp h]; rfl⟩
/-- Lines that cannot be read, with wrong parity of the LWP, and malformed. -/
theorem witness_FetchAndDecode : (match s0.line x0 0 with | .error c => c | .ok _ => 0) = 6 ∧
    (match sNop.line xm 0 with | .ok _ => true | .error _ => false) = true ∧
    [1, 2 ^ 15].map (fun l => match (({} : State).writePhys 0 (toBytes 64 l)).line xm 0 with | .ok v => v | .error _ => 0) = [1, 2 ^ 15] := by decide +kernel
theorem witness_CorrectRounding : F32 ∈ formats ∧ (F32.round .rn false false 3 0 false).2 / fOF % 2 = 0 ∧ (F32.round .rn false false 3 200 false).2 / fOF % 2 = 1 := by decide +kernel
theorem witness_FloatSigns : num (.fin false 1 0) + num (.fin true 1 0) = 0 := by simp [num]

/-! ## Premises of single clauses -/

/-- No store of the wave is outstanding; one page migrates; every word that the lanes of `stM` store to is aligned. -/
def sMig : State := { sC with migs := [⟨0x10000, 0x20000, 4096⟩] }
theorem witness_Performed : Performed xm sMig ∧ Paged sMig ∧ hitsClear xm sMig 4 [0, 1, 2, 3] (globHit .wr (.st stM) stM sMig xm) ∧
    wordsAligned [0, 1, 2, 3] (globHit .wr (.st stM) stM sMig xm) 4 ∧ Sys2Proof.Rule.tableClear (.jtab (jt 0)) (jt 0) sMig xm ∧ sMig.absent = [] := by
  have hl : (sMig.wave xm.wk).late = [] := by decide +kernel
  refine ⟨fun e he => ?_, by unfold Paged; decide +kernel, fun e he => ?_, fun l hl pa h => ?_, fun e he => ?_, rfl⟩
  · rw [hl] at he; cases he
  · rw [hl] at he; cases he
  · have := (by decide +kernel : ([0, 1, 2, 3].all (fun l => match globHit .wr (.st stM) stM sMig xm l with
      | .ok (.glob (.phys pa)) => pa % 4 == 0 | _ => true)) = true)
    have := List.all_eq_true.mp this l hl
    rw [h] at this
    simpa using this
  · rw [hl] at he; cases he
/-- The wave of launch 3 owns a carved line. -/
theorem witness_OwnLine : ownLine { sN with regions := sR.regions } x0 0x1000 64 0 0 := by unfold ownLine; decide +kernel
/-- A store of lane 0 is on its way, and no longer in the wave's list; a load is held up by it. -/
def sLate : State := at0 { w0 with late := [{ ctx := 63, acc := 4, lane := 0, place := .sp 0 64, n := 4, v := 5 }] } c0
theorem witness_LateStores : ((sLate.wave 0).late.find? (fun e => decide (e.acc = 4))).isSome = true ∧ (∀ a ∈ (sLate.wave 0).accs, a.id ≠ 4) ∧
    ¬ Clear x0 sLate [(.sp 0 64, 4)] := by
  refine ⟨by decide +kernel, by decide +kernel, fun h => absurd (h _ (List.mem_singleton_self _) rfl _ (List.mem_singleton_self _)) (by decide +kernel)⟩
/-- The sender's message finds the other record waiting for it; a sleep that has ended; a load that would issue, and a wave that it passes over. -/
def sMsg1 : State := sMsg.setBar 99 33 { kind := 2, exparr := 3, arr := 3, sent := [7] }
theorem witness_Messages : sMsg1.otherHome (coreKey 1 0) 33 = some (0, 33) ∧ (sMsg1.bar (coreKey 1 0) 33).sent ≠ [] ∧ (sMsg1.bar 0 33).rwait = true ∧
    (sMsg1.bar 0 33).exparr ≠ 0 ∧ (sMsg1.core 0).held = [] ∧ (({ sSlp with dies := [(0, { watch := 100 })] } : State).die 0).watch = 100 ∧
    (sQp.core 0).pushes = [⟨7, 0, [1], 0⟩] ∧ rec0.tail < rec0.depth := by decide +kernel
/-- The current instruction of `sTurn` issues; wave 4 of the quadrant, also ready, has waited 1,024 turns; its node has class 5. -/
def sTurn : State := { (sNop.setWave (xm.wk + 4) (sNop.wave xm.wk)) with cur := some xm }
def sProm : State := { (atNode {} { la0 with nodes := [{ rcb := { cls := 5 } }] }).modWave 0 (fun w => { w with waited := 1024 }) with cur := none }
theorem witness_IssueTurns : sTurn.wouldIssue xm = true ∧ 4 ∈ sTurn.readyWaves 0 96 0 ∧ ((sTurn.readyCtx 0 96 4).any sTurn.wouldIssue) = true ∧
    (sProm.wave 0).valid = true ∧ sProm.readyCtx 0 0 0 ≠ [] ∧ 3 < sProm.effClass 0 (sProm.wave 0) ∧
    (let s := s0.modWave 0 (fun w => { w with main := { w.main with blk := some ⟨0, 0, [7], []⟩ } });
      (s.ctx x0).blk = some ⟨0, 0, [7], []⟩ ∧ ({ s with tick := 1 } : State).mayTry x0 = true) := by decide +kernel
theorem witness_MatrixHead : mxHead (mxAt { queue := [job] }) 0 0 job [] ∧ servedBefore full 0 { full with seq := 4 } 0 := by
  unfold mxHead servedBefore; decide +kernel
theorem witness_Reached : reached (cd { stage := 2 }) 0x1000 8 ∧ reached {} (2 ^ 47) 8 ∧ ¬ reached (cd { stage := 1 }) 0x1000 8 := by unfold reached; decide +kernel
/-- A ray whose origin is not finite. -/
def rayInf : Nat := ray0 + (0x7F800000 - fq) * 2 ^ 64
theorem witness_InvalidRays : goodRay rayInf ∧ invalidRay rayInf ∧ ¬ invalidRay ray0 := by
  refine ⟨by unfold goodRay; decide +kernel, .inr (.inl ⟨0, by decide, ?_⟩), ?_⟩
  · rintro ⟨n, m, e, h⟩
    exact absurd ((show F32.val false (fld rayInf 8 4) = .inf false by decide +kernel).symm.trans h) (by simp)
  · rintro (h | ⟨i, hi, h⟩ | h)
    · beta_reduce at h
      rw [show F32.val false (fld ray0 32 4) = .fin false 0 (-149) by decide +kernel,
        show F32.val false (fld ray0 36 4) = .fin false 13107200 (-17) by decide +kernel] at h
      norm_num [meets, below, num] at h
      rcases h with h | h <;> cases h
    · have := (by decide +kernel : ((List.range 6).all (fun i => match F32.val false (fld ray0 (8 + 4 * i) 4) with | .fin .. => true | _ => false)) = true)
      have := List.all_eq_true.mp this i (List.mem_range.mpr hi)
      apply h
      beta_reduce
      generalize F32.val false (fld ray0 (8 + 4 * i) 4) = v at this
      cases v with
      | fin n m e => exact ⟨n, m, e, rfl⟩
      | _ => simp at this
    · have := h 2 (by decide)
      beta_reduce at this
      rw [show F32.val false (fld ray0 (20 + 4 * 2) 4) = .fin false 8388608 (-23) by decide +kernel] at this
      norm_num [num] at this
theorem witness_Sensors : someSensor { off := [false, false], sensors := [(21, 2000)] } 0 (fun x => decide (1000 < x)) = true ∧
    someSensor {} 1 (fun x => decide (1000 < x)) = false := by decide +kernel
/-- Boot: of two images with their digests, each under a signature that verifies (R461: the key is the fused one, which the model leaves open). -/
theorem witness_Boot (body : List Byte) (sig : Nat) (h : Config.falconVerify (ofBytes (Config.shake256 body 64)) sig = true) :
    Sys2Proof.Rule.sound ⟨body, ofBytes (Config.shake256 body 64), sig⟩ := ⟨rfl, h⟩
/-- A migration of a page without cells; a wave of the context stopped for pre-emption whose stores are performed; a context that may resume. -/
theorem witness_FabricClauses : (∀ g ∈ sMig.migs, g.old + g.size ≤ g.new) ∧ sMig.pageBusy 0x10000 4096 = false ∧ ({} : State).dieBusy 0 = false ∧
    ({ sG laSv with preempts := [⟨0, [0, 0]⟩] } : State).canResume 0 = true ∧
    (sPr wPr).launch? 3 ≠ none ∧ soundWaves (sPr w0) := by
  refine ⟨by decide +kernel, by decide +kernel, by decide +kernel, by decide +kernel, by decide +kernel, by unfold soundWaves; decide +kernel⟩
theorem witness_BankClauses : (sBk.lehr 0).banks.map Prod.fst = [0, 1, 2, 3] ∧ (Sys2Proof.Rule.arrived { role := 1 } 5).state = 0 ∧
    ((sBk.lehr 0).outstanding false 0) = 2 ∧ (({} : Lehr).bank 7).role = 0 := by decide +kernel
/-- Two requests that wait at a channel, of classes 1 and 5; the class 5 one has a burst in progress. -/
def arb0 : Arb := { nextId := 2, waiting := [⟨0, 5, 0, 6, 0⟩, ⟨1, 1, 0, 6, 0⟩], burst := some (0, 1) }
theorem test_arbitration : [arb0, { arb0 with burst := none }, { arb0 with cycles := 127 }].map (fun a =>
    ((after1 (exec (.arbGrant 3 []) { ({} : State) with arbs := [(3, a)] })).arb 3).granted) = [some (0, 5), some (0, 1), some (0, 1)] := by decide +kernel

/-! ## Premises of the clauses on forms, causes, copies, images and clusters -/

/-- A wave whose pair v8:v9 stands in 64-bit form with stride 0. -/
def wForm : Wave := { wAff with aff64 := [(8, true)] }
theorem witness_AffineForms : run (at0 wAff c0) x0 [movI 5 0, movI 5 1, movI 5 2, iR .sub .n32, iI .subRi .s32 1, iR .shl .b32, iI .shlRi .b32 3, iR .aftest .b32] = true ∧
    settled wAff 2 4 ∧ (cxOf (iR .sub .n32) (at0 wAff c0) x0).act = List.range 32 ∧ wForm.isAff64 8 = true ∧ wForm.raw 8 0 = wForm.raw 8 1 ∧ FormsSound {} := by
  refine ⟨by decide +kernel, ⟨by decide +kernel, fun _ => by decide +kernel⟩, by decide +kernel, by decide +kernel, by decide +kernel, ?_, ?_⟩
  · exact fun r _ => ⟨0, 0, fun l _ => by simp [Sys2Proof.Rule.words, Wave.raw, FMap.get]⟩
  · exact fun r _ _ => ⟨0, 0, fun l _ => by simp [Sys2Proof.Rule.words, Wave.raw, FMap.get]⟩
/-- Products of 1.0 and of 0 × ∞, and an infinite C; a NaN. -/
theorem witness_FusedSums : read .f16x2 false 0x3C003C00 0 = .fin false 1024 (-10) ∧ (read .f16x2 false 0x7C007C00 0).isInf = true ∧
    (read .f16x2 false 0 0).isZero = true ∧ F32.val false 0x7F800000 = .inf false ∧ F32.val false 0x7FC00000 = .nan := by decide +kernel
theorem witness_Conversions2 : (Ty.s32.isInt, Ty.f16.isInt) = (true, false) ∧ F16.val false 0x3C00 = .fin false 1024 (-10) := by decide +kernel

/-- Causes of branches, tables and calls: no slot at the target; a join outside; an index out of bounds. -/
def brcOut : BrF := { brc1 with disp := 3 }
def brcJoin : BrF := { brc1 with join := -1 }
def jtOut : XF := { jt 0 with a := .v 10 }
def jtJoin : XF := { jt 0x3FFFF with h := ⟨.v 8, false, .none, 0⟩ }
theorem witness_Turned : run sC xm [.brc brcOut, .brc brcJoin, .brany { brcOut with join := 0 }, .brall ⟨h0, 3, 0, .v 10, 1⟩, .brall ⟨h0, 3, 0, .v 10, 0⟩, .jtab jtOut, .jtab jtJoin, .callt jtOut] = true ∧
    targetCheck sC xm (target (sC.run xm).pc 3) none = some (2, none) ∧ targetCheck sC xm (target (sC.run xm).pc 1) none = none ∧
    target (sC.run xm).pc (-1) = none ∧ taken (.brc brcJoin) brcJoin sC xm = [0, 1] ∧ tableCheck (.jtab jtOut) jtOut sC xm 0 = some (8, none) ∧
    ((cxOf (.jtab jtJoin) sC xm).act.all (fun l => sC.tableEntry (cxOf (.jtab jtJoin) sC xm) jtJoin l == .goes 2)) = true ∧
    (cxOf (.jtab jtJoin) sC xm).idle ≠ 0 ∧ run sFull xm [.call call0, .callt (jt 0)] = true ∧
    targetCheck sFull xm (target (sFull.run xm).pc 1) none = none ∧ tableCheck (.callt (jt 0)) (jt 0) sFull xm 0 = none := by decide +kernel
/-- The cluster window of a group of 32 KiB: its ends. -/
theorem witness_ClusterWindow : (sK.groupOf x0).clu = true ∧ [0, 8 * 32768 - 4, 8 * 32768, 2].map (fun a => (sK.cHit x0 a 4 false).cause .none) =
    [none, none, some (8, some (.ofNat 57 (8 * 32768))), some (5, some 2)] := by decide +kernel
/-- A cell at 0x1000 that holds 1.0; `.add.f32` of lane 0 to it, its other operands none. -/
def sCell : State := { s1 with cells := [(0x400, Cell.load 0 none 0x3F800000)] }
def adM : MemF := ⟨h0, .v 4, .v 12, .none, .dev, .b32, 0x30, .none, 0⟩
theorem witness_CellAdds : (adM.kind, adM.aop, adM.size.bytes) = (3, 0, 4) ∧ run sCell xm [.atom adM, .red adM] = true ∧ (cxOf (.atom adM) sCell xm).act = [0] ∧
    globAtom .rdwr (.atom adM) adM sCell xm 0 = .ok (.glob (.phys 0x1000)) ∧ globAtom .wr (.red adM) adM sCell xm 0 = .ok (.glob (.phys 0x1000)) ∧
    sCell.canon 0x1000 = 0x1000 ∧ (FMap.get none sCell.cells (0x1000 / 4)).isSome = true ∧ (sCell.wave xm.wk).late = [] ∧
    sCell.readPhys 0x1000 4 = 0x3F800000 ∧ (Cell.load 0 none 0x3F800000).nan = false := by decide +kernel
theorem witness_PagedCells : Paged sCell ∧ wordsAligned (cxOf (.atom adM) sCell xm).act (globAtom .rdwr (.atom adM) adM sCell xm) 4 := by
  refine ⟨by unfold Paged; decide +kernel, fun l hl pa h => ?_⟩
  rw [show (cxOf (.atom adM) sCell xm).act = [0] by decide +kernel] at hl
  rw [List.mem_singleton.mp hl, show globAtom .rdwr (.atom adM) adM sCell xm 0 = .ok (.glob (.phys 0x1000)) by decide +kernel] at h
  cases h
  decide

/-- An expectation with ARV while the wave holds an arrival: its Expect leaves ARR 0, or it is done already. -/
def sHeld (can : Option (Addr × Nat)) (arr : Nat) : State := (atBar { kind := 1, exparr := 3, arr := arr, bytes := 4 }).modWave 0 (fun w => { w with heldarr := 0x8001, div := { w.div with can := can } })
theorem witness_ExpectHeld : run (sHeld none 0) x0 [.barExpect (bf true (.v 8) (.v 4))] = true ∧ ((sHeld none 0).wave 0).heldarr.getLsbD 15 = true ∧
    afresh (sHeld none 0) x0 ∧ [0, 2].all (fun a => run (sHeld (some (0, 0)) a) x0 [.barExpect (bf true (.v 8) (.v 4))]) = true ∧
    ((sHeld (some (0, 0)) 2).wave 0).div.can = some (((sHeld (some (0, 0)) 2).run x0).pc, 0) ∧ plainBar (sHeld (some (0, 0)) 2) 0 33 ∧
    ((sHeld none 0).bar 0 33).bytes.toInt + 5 < 2 ^ 31 := by
  refine ⟨by decide +kernel, by decide +kernel, ?_, by decide +kernel, by decide +kernel, by unfold plainBar; decide +kernel, by decide +kernel⟩
  intro n
  rw [show ((sHeld none 0).wave x0.wk).div.can = none by decide +kernel]
  nofun
/-- A command that arrived in PHASE 0, now over. -/
theorem witness_InPhase : inPhase 0 33 1 0 ⟨7, 1, 2, 0, 0, true, some (33, 0)⟩ := ⟨0, rfl, by decide, by decide⟩

/-- Elements in bounds and out of bounds, one that may be read, one that is misaligned; a `cpys` and a `cpyd`. -/
def kB : CopyCmd := { kT with shape := { kT.shape with dims := [⟨0, 1, 4, 0, 2⟩] } }
theorem witness_Elements : ((kB.shape.elem 0).1, (kB.shape.elem 1).1) = (true, false) ∧ [Need.rd, .wr].all (fun n => (chM {}).elemAt ((chM {}).agent ⟨0, 96, 0, 63⟩) (kB.shape.elem 0).2 4 n == .ok (.phys 0x1000)) = true ∧
    (match (chM {}).elemAt ((chM {}).agent ⟨0, 96, 0, 63⟩) 0x1002 4 .rd with | .error e => e.1 | .ok _ => 0) = 3 ∧
    ((chM {}).core (coreKey 0 96)).prior = [] ∧ (blockBytes 9 64 0).isSome = true ∧ (blockRaw 0).length = 62 ∧ blockBytes 0 2 0 = none := by decide +kernel
theorem witness_CopyLines : [0, 1].all (fun kind => let k : CopyCmd := { kT with kind := kind }
      let s := chM { queue := [k] } [(0, true)]
      let c := s.core (coreKey 0 96)
      k.started && !k.dropped && FMap.get false c.owner ((c.tileBase k + 128 * k.lines) / 1024) && c.prior.isEmpty && k.lineElems == [0, 1]) = true ∧
    (let k : CopyCmd := kT
     let s := chM { queue := [k] } [(0, true)]
     (s.elemsIn (s.agent ⟨0, 96, 0, 63⟩) k k.lineElems k.snap).2.2 = none ∧ (s.elemsOut (s.agent ⟨0, 96, 0, 63⟩) (coreKey 0 96) 0 k k.lineElems).2 = none) := by decide +kernel

/-- Items that the unit finishes: an image stored, one loaded, an output in FP32; a false resolution, with a guarded job before it. -/
def mxRun (kind : Nat) : MxItem := { job with kind := kind, phase := 1, blk := if kind = 4 then 2 ^ 128 + 2 ^ 144 + 2 ^ 224 + 2 ^ 224 * 2 ^ 40 else 0 }
def mxOwn (i : MxItem) : State := (mxAt { queue := [i] }).setCore 0 { c0 with mx := { queue := [i] }, owner := (List.range 32).map (fun g => (g, true)) }
theorem witness_MatrixImages : ∀ k ∈ [1, 2, 4], mxEnds (mxOwn (mxRun k)) 0 0 (mxRun k) [] ∧ ((mxRun 4).M, (mxRun 4).N, (mxRun 4).ofmt) = (1, 1, 1) := by
  have h : [1, 2, 4].all (fun k => ((mxOwn (mxRun k)).core (coreKey 0 0)).mx.queue == [mxRun k] && (mxOwn (mxRun k)).mxCode 0 (coreKey 0 0) (mxRun k) == none &&
      ((mxOwn (mxRun k)).core (coreKey 0 0)).prior == [] && (mxRun k).kind != 5) = true := by decide +kernel
  intro k hk
  have := List.all_eq_true.mp h k hk
  simp only [Bool.and_eq_true, beq_iff_eq, bne_iff_ne] at this
  obtain ⟨⟨⟨h1, h2⟩, h3⟩, h4⟩ := this
  exact ⟨⟨⟨h1, h4⟩, rfl, rfl, h2, fun p hp => by rw [h3] at hp; cases hp⟩, by decide⟩
def resF : MxItem := { resT with eng := 0 }
theorem witness_FalseResolutions : (resF.kind, resF.eng) = (5, 0) ∧ ((mxAt { queue := [jobG, resF] }).core (coreKey 0 0)).mx.queue = jobG :: resF :: [] ∧
    (jobG.kind, jobG.guarded, jobG.phase, jobG.bar) = (0, true, 0, none) ∧ jobG.wave = resF.wave ∧ ((mxAt {}).core (coreKey 0 0)).mx.done = [] := by decide +kernel

/-- Stops that a handler meets: at a PC that a window write has moved, apart from any instruction, in the last slot. -/
def sStops (w : Wave) : State := atSub w 3
theorem witness_ResumeClauses : [{ wSub with faultpc := 8 }, { wSub with async := true }, { wSub with faultpc := .ofNat 57 (2 ^ 57 - 60), div := { stack := [runE (.ofNat 57 (2 ^ 57 - 60)) 0 0xF] } }].map (fun w =>
      (decide (((sStops w).run x0).pc = ((sStops w).wave 0).faultpc), ((sStops w).wave 0).async, (nextPc ((sStops w).run x0).pc).isSome)) =
      [(false, false, true), (true, true, true), (true, false, false)] ∧
    [{ wSub with faultpc := 8 }, { wSub with async := true }].all (fun w => run (sStops w) xm [sysI .hret (.v 9) .none .none]) = true ∧
    refusedCause 0 2 ∧ refusedCause 5 5 := by
  refine ⟨by decide +kernel, by decide +kernel, ⟨by decide, by decide⟩, by decide, by decide⟩
/-- Blocks of a window whose waves are stopped, and one whose wave runs. -/
def cW : Core := { c0 with groups := [{ id := 1, waves := [0], skib := 32, nb := 16, bbase := 0 }], bars := [(0, { kind := 1, exparr := 2, arr := 2 })], queues := [(7, rec0)] }
def sWin (w : Wave) : State := (({} : State).setWave 0 { w with binds := [(3, .ofNat 16 (2 ^ 15 + 2 * 2 ^ 13 + 7 * 2 ^ 7))] }).setCore 0 cW |>.setTail 5 tl5
theorem witness_WindowBlocks : [w0, wSub].map (fun w => ((sWin w).recStopped 0 7, (sWin w).barStopped 0 0, ((sWin w).residents 0).all (fun p => p.2.stopped), ((sWin w).wave 0).stopped,
      ((sWin w).tail 5).valid)) = [(false, false, false, false, true), (true, true, true, true, true)] ∧ ((sWin wSub).bar 0 0).kind ≤ 1 ∧ ((sWin wSub).tail 5).stack.length = 1 := by decide +kernel
/-- A load of register 4 of lane 4, on its way alone. -/
theorem witness_LoadCompletes : (match (sAcc.wave 0).access? 1 true with | some a => a.writes.map Prod.fst == [132] | none => false) = true ∧ (sAcc.wave 0).state = 0 ∧ (sAcc.wave 0).heldtok = none ∧
    (sAcc.wave 0).accs.all (fun b => b.id == 1 || (b.writes.isEmpty && b.due.isEmpty)) = true ∧ (sAcc.wave 0).late = [] := by decide +kernel
/-- A record in the scratchpad, with nothing before it outstanding. -/
def sRec : State := { sN with launches := [{ la0 with nodes := nodes2.map (fun n => { n with recsp := true }) }] }
theorem witness_ScratchRecords : (sRec.nodeOf x0).2.recsp = true ∧ (sRec.wave x0.wk).late = [] ∧ run sRec x0 [xF .recld (.v 4) (.v 9) .none 0] = true := by decide +kernel

/-- Gathering: batches of groups that are open, ranges of 20 and of 0, a steal that takes the last batch. -/
def rngOpen : Launch := { laG 1 [rcd 20] nG with opened := [(0, [⟨8, [[1, 0, 0, 0]], [0], none⟩])] }
def rng0 : Launch := { laG 1 [rcd 0] nG with opened := [(0, [⟨8, [[1, 0, 0, 0]], [0], none⟩])] }
def clu1 : Launch := laG 0 [rcd 1] { nG with clu := 1, clun := 1 }
theorem witness_Batches : mayTakeBatch (sG full) full 0 0 ∧ mayTakeBatch (sG rngOpen) rngOpen 0 0 ∧ mayTakeBatch (sG clu1) clu1 0 0 ∧ mayTakeBatch (sG part) part 0 0 ∧
    (untakenBatches 8 (rngOpen.queue 0 0)).length = 3 ∧ (rng0.queue 0 0).dropWhile (fun r => r.words.headD 0 == 0) = [] ∧ rng0.openOf 0 0 ≠ [] ∧
    (full.node 0).b = 8 ∧ (full.queue 0 0).length = 16 ∧ full.reservable 0 2 = true ∧ full.inTurn 0 0 = true ∧ (clu1.node 0).clu = 1 := by
  unfold mayTakeBatch
  decide +kernel
def rngSt : Launch := laG 1 (List.replicate 16 (rcd 20)) nG
theorem witness_Steals : (sG full).mayForm 1 = true ∧ (sG full).stealable full 0 1 = true ∧ (sG full).formable full 0 1 = false ∧
    ((untakenBatches 8 (rngSt.queue 0 0)).drop (rngSt.maxWaves 0)).length = 46 := by decide +kernel
theorem witness_LingerTakes : takesLingered part 0 0 3 := by
  refine ⟨by decide, by decide +kernel, ?_⟩
  intro r h
  rw [show (part.queue 0 0)[3]? = none by decide +kernel] at h
  cases h

/-- Placement: an empty core takes a wave at slot 0 and row 0; one that holds a wave takes the next at slot 16. -/
theorem witness_NextPlace : canTake 128 8 [] 0 ∧ slotsFree [] 0 = 16 ∧ heldSlot [(0, w0)] 0 ∧ heldBlock [(0, w0)] 0 47 ∧ freeRun 128 8 [(0, w0)] 0 48 := by
  refine ⟨⟨⟨0, by decide, fun h => by obtain ⟨p, hp, -⟩ := h; cases hp⟩, 0, by decide, fun j _ h => by obtain ⟨p, hp, -⟩ := h; cases hp⟩, by decide,
    ⟨_, List.mem_singleton_self _, rfl⟩, ⟨_, List.mem_singleton_self _, by decide⟩, by decide, fun j hj h => ?_⟩
  obtain ⟨p, hp, -, -, h⟩ := h
  rw [List.mem_singleton.mp hp] at h
  exact absurd h (by have : w0.row + w0.n = 384 := rfl
                     rw [this]; omega)
/-- A cluster of one member that starts on the first cluster of die 0. -/
def cluL : Launch := { laG 0 [] { nG with clu := 1, clun := 1, gwaves := 1 } with cmask := 255, formed := [⟨0, 0, 0, [⟨8, [[1, 0, 0, 0]], [0], none⟩]⟩], nextGno := 1 }
theorem witness_ClusterStarts : (match (sG cluL).nextPlaced 0 with
    | some (l, f) => l == cluL && f.batches.length == 1 && (match (sG cluL).placeable l f with | some (ps, _) => ps.length == 8 && (ps.map (fun p => p.waves.length)).sum == 1 | none => false)
    | none => false) = true ∧ (cluL.node 0).clun ≤ 8 := by decide +kernel
theorem witness_SoundCluster : soundLaunches (sG cluL) := by
  refine ⟨by decide +kernel, fun l hl => ?_⟩
  obtain rfl : l = cluL := by simpa [sG] using hl
  refine ⟨by decide +kernel, fun n => ?_⟩
  rcases n with _ | n
  · decide +kernel
  · exact (by decide +kernel : ({} : Node).depth ≤ 1024)

/-- Launch records: one misaligned, one outside memory, one that fails a check of its path, and one whose node is checked and fails code 6. -/
theorem witness_ImageChecks : (0x20001 % 128 ≠ 0) ∧ 0x20000 % 128 = 0 ∧ (sLaunch 0).memOk (2 ^ 56) 128 = false ∧ sArr.memOk 0x20000 128 = true := by decide +kernel
theorem witness_NodeChecks : (match (sLaunch 0).checkLaunch 0x20000 with
    | .ok l => (match (sLaunch 0).checkRest { l with nodes := l.nodes.map (fun n => { n with qcap := 4 }) } 0 with | .error r => (r.code, r.node) == (6, 0) | .ok _ => false) &&
        (match (sLaunch 0).checkRest l 0 with | .ok m => m.carves.isEmpty | .error _ => false)
    | .error _ => false) = true := by decide +kernel
/-- A wave stopped by pre-emption in an image, and in its slot when the pre-emption ends; a record that resumes. -/
theorem witness_RunsAgain : (img 3).waves.all (fun p => p.2.valid && p.2.state == 2) = true ∧ ({ s0 with shadows := [img 3] } : State).waves.sorted = true ∧
    ((img 3).waves.map Prod.fst).Nodup ∧ ((img 3).cores.map Prod.fst).Nodup ∧ ((sPr { wPr with div := {} }).wave 0).liveLanes = 0 ∧ ((sPr wPr).wave 0).state = 2 := by decide +kernel
/-- Powered dies, and Gaffer's reach. -/
theorem witness_Powered : isPowered (cd { stage := 2 }) 0 ∧ ¬ isPowered (cd { stage := 2 }) 1 ∧ isPowered (cd { stage := 3 }) 1 ∧ gafferReaches (cd { stage := 3, verified := true }) 1 ∧
    ¬ gafferReaches (cd { stage := 3 }) 0 ∧ acts (cd { verified := true }) .gaffer ∧ isPowered { sBk with cdie := { stage := 3 } } 0 := by
  unfold gafferReaches isPowered acts
  decide +kernel
/-- A carved line that a timed-out load was to fill. -/
def sFill : State := { sTo with regions := [{ die := 0, launch := 3, vbase := 0x1000, size := 0x1000, rd := true, wr := true, fill := true, wbend := true, lines := [(0, { dirty := 0, data := 7 })] }] }
theorem witness_Fills : (sFill.wave 0).late = [] ∧ (sFill.region 0).lines.sorted = true ∧ ((sFill.region 0).lines.find? 0).isSome = true := by decide +kernel
/-- Holds of the latch, the last slot, and an enabled flag: INX of 1 / 3. -/
def sFpx : State := s0.modWave 0 (fun w => { w with fpctl := .ofNat 32 (1 + 0x1F00), regs := [(256, 0x3F800000), (384, 0x40400000)] })
def divF : FltR := ⟨h0, .f32, .dflt, false, false, .v 4, .v 8, .v 12, .none⟩
theorem witness_Enabled : ready (.fdiv divF) sFpx x0 = true ∧ (fdivOp .f32 false false .rn (read .f32 false 0x3F800000 0) (read .f32 false 0x40400000 0)).2 = fNX ∧
    [gAdd .A (.v 8), .sub ⟨⟨.none, false, .A, 1⟩, .s32, 0, .v 5, .v 8, .v 7, .none⟩].all (fun i => ready i sC xm && inside sC xm) = true ∧
    run sC xm [pR .nop, .br ⟨h0, 1, 0, .none, 0⟩] = true := by decide +kernel

end Sys2Proof.Tests
end

/-!
The guard (R41): which lanes are active, that the decoder refuses GN with G = 511, and that an instruction
without an active lane only lets its wave go on.
-/
namespace Sys2Proof.Machine
open Sys2Proof.Rule

/-! ## The active lanes -/

/-- Where no replay leaves a lane out (R268), the active lanes are those of the RUN entry that the guard lets through. -/
theorem State.active_eq_filter {s : State} {x : Sel} (hr : FMap.get (~~~0) (s.wave x.wk).redo x.ctx = ~~~0) (h : Hdr) :
    s.active x h = (lanesOf (s.run x).mask).filter (s.guard x h) := by
  have hones : ~~~(0 : Mask) = BitVec.allOnes 32 := rfl
  rw [State.active, hr, hones, BitVec.and_allOnes]

theorem State.guard_none {h : Hdr} (hg : h.g = .none) (s : State) (x : Sel) (l : Nat) : s.guard x h l = true := by
  simp [State.guard, hg]

/-- Only a queue operand reads popped elements: any other source reads alike in two views of one context. -/
theorem Cx.src_congr {cx cx' : Cx} (hsel : cx.sel = cx'.sel) (s : State) (f : Fld) {o : Opnd} (hq : ∀ m, o ≠ .q m) (n l : Nat) :
    cx.src s f o n l = cx'.src s f o n l := by
  cases o with
  | q m => exact absurd rfl (hq m)
  | _ => simp only [Cx.src, hsel]

theorem bitN_zero (n : Nat) : bitN n 0 = n.testBit 0 := by
  simp [bitN, Nat.testBit_zero, beq_eq_decide]

/-- A guard operand that is no queue lets a lane through when bit 0 of the value that the instruction reads differs from GN. -/
theorem State.guard_iff {i : Instr} {s : State} {x : Sel} {l : Nat} (hn : (hdrOf i).g ≠ .none) (hq : ∀ m, (hdrOf i).g ≠ .q m) :
    s.guard x (hdrOf i) l = true ↔ (src i s x .G (hdrOf i).g 1 l).testBit 0 ≠ (hdrOf i).gn := by
  have hsrc : src i s x .G (hdrOf i).g 1 l = Cx.src ⟨x, hdrOf i, s.run x, [], [], [], 0⟩ s .G (hdrOf i).g 1 l :=
    Cx.src_congr (cxOf_sel i s x) s .G hq 1 l
  rw [hsrc, ← bitN_zero, ← bne_iff_ne]
  unfold State.guard
  cases hg : (hdrOf i).g with
  | none => exact absurd hg hn
  | _ => rfl

end Sys2Proof.Machine

/-! ## The header of a decoded instruction -/

namespace Sys2Proof

/-- The constructor of the shape keeps the fields that it is given. -/
def Shape.Keeps : Shape → Prop
  | .intR mk => ∀ f, (mk f).view = .intR f
  | .intI mk => ∀ f, (mk f).view = .intI f
  | .fltR mk => ∀ f, (mk f).view = .fltR f
  | .fltI mk => ∀ f, (mk f).view = .fltI f
  | .cvtR mk => ∀ f, (mk f).view = .cvtR f
  | .cmpR mk => ∀ f, (mk f).view = .cmpR f
  | .cmpI mk => ∀ f, (mk f).view = .cmpI f
  | .plainR mk => ∀ f, (mk f).view = .plainR f
  | .plainI mk => ∀ f, (mk f).view = .plainI f
  | .mem mk => ∀ f, (mk f).view = .mem f
  | .br mk => ∀ f, (mk f).view = .br f
  | .x mk => ∀ f, (mk f).view = .x f

theorem findOp_mem {op : Nat} {l : List (Nat × Shape)} {sh : Shape} (h : findOp op l = some sh) : (op, sh) ∈ l := by
  induction l with
  | nil => cases h
  | cons p r ih =>
    obtain ⟨k, t⟩ := p
    rw [findOp] at h
    split at h
    · next hk =>
      cases h
      exact hk ▸ List.mem_cons_self
    · exact List.mem_cons_of_mem _ (ih h)

/-- Every shape of the opcode map keeps its fields (R58 to R65). -/
theorem keeps_of_mem_opGroup (g : Nat) : ∀ p ∈ opGroup g, p.2.Keeps := by
  unfold opGroup
  split
  case h_9 => exact List.forall_mem_nil _
  all_goals
    simp only [ops0, ops0a, ops0b, ops0c, ops1, ops1a, ops1b, ops2, ops2a, ops3, ops3a, ops4, ops4a, ops4b, ops5, ops5a,
      ops6, ops6a, ops7, ops7a, List.forall_mem_append, List.forall_mem_cons, List.not_mem_nil, false_imp_iff, implies_true, and_true]
    and_intros <;> exact fun _ => rfl

theorem keeps_of_opShape {op : Nat} {sh : Shape} (h : opShape op = some sh) : sh.Keeps :=
  keeps_of_mem_opGroup _ _ (findOp_mem h)

/-- What a shape builds has the header that it is given. -/
theorem Shape.hdr_of_build {sh : Shape} (hk : sh.Keeps) {h : Hdr} {vs : List Nat} {i : Instr} (hb : sh.build h vs = .ok i) :
    i.hdr? = some h := by
  unfold Shape.build at hb
  repeat' split at hb
  all_goals cases hb
  all_goals exact congrArg View.hdr? (hk _)

theorem checkWf_ok {r : Except DecErr Instr} {i : Instr} (h : checkWf r = .ok i) : r = .ok i ∧ i.wf = true := by
  cases r with
  | error e => cases h
  | ok j =>
    rw [checkWf] at h
    split at h
    · next hw =>
      cases h
      exact ⟨rfl, hw⟩
    · cases h

/-- The header that the decoder reads from bits 95:72 (R40). -/
def slotHdr (w : Slot) : Hdr :=
  ⟨.ofCode (w.toNat / 2 ^ 77 % 2 ^ 9), w.toNat / 2 ^ 76 % 2 ^ 1 == 1, HoldSel.ofCode (w.toNat / 2 ^ 74 % 2 ^ 2), w.toNat / 2 ^ 72 % 2 ^ 2⟩

theorem build_slotHdr (w : Slot) :
    Hdr.build (unpack hdrWidths (w.toNat / 2 ^ 72)) = some (slotHdr w, w.toNat / 2 ^ 86 % 2 ^ 10) := by
  simp only [hdrWidths, unpack, Hdr.build, slotHdr, Nat.div_div_eq_div_mul, ← Nat.pow_add, Nat.reduceAdd]

/-- A slot that decodes gives a well-formed instruction with the header of its bits 95:72. -/
theorem hdr_of_decode {w : Slot} {i : Instr} (h : decode w = .ok i) : i.hdr? = some (slotHdr w) ∧ i.wf = true := by
  rw [decode, build_slotHdr] at h
  dsimp only at h
  cases hs : opShape (w.toNat / 2 ^ 86 % 2 ^ 10) with
  | none =>
    rw [hs] at h
    cases h
  | some sh =>
    rw [hs] at h
    obtain ⟨hb, hw⟩ := checkWf_ok h
    exact ⟨Shape.hdr_of_build (keeps_of_opShape hs) hb, hw⟩

theorem guardOk_of_wf {i : Instr} {h : Hdr} (hw : i.wf = true) (hh : i.hdr? = some h) : h.guardOk = true := by
  simp only [Instr.wf, hh, Bool.and_eq_true] at hw
  obtain ⟨⟨⟨-, hg, -⟩, -⟩, -⟩ := hw
  exact hg

/-- R41: GN with G = 511 is no instruction. -/
theorem decode_ne_ok_of_gn {w : Slot} (hg : w.toNat / 2 ^ 77 % 2 ^ 9 = 511) (hn : w.toNat / 2 ^ 76 % 2 = 1) (i : Instr) : decode w ≠ .ok i := by
  intro h
  obtain ⟨hh, hw⟩ := hdr_of_decode h
  have hok := guardOk_of_wf hw hh
  have hG : (slotHdr w).g = .none := congrArg Opnd.ofCode hg
  have hN : (slotHdr w).gn = true := beq_iff_eq.2 hn
  rw [Hdr.guardOk, hG, hN] at hok
  exact absurd hok (by decide)

end Sys2Proof

/-! ## An instruction without an active lane -/

namespace Sys2Proof.Machine

/-- Every slot instruction passes the gate of `issue` before its own effect (R68). -/
theorem exec_eq_issue {i : Instr} {h : Hdr} (hh : i.hdr? = some h) (s : State) : ∃ body, exec i s = issue i h s body := by
  cases i <;> cases hh <;> (unfold exec; exact ⟨_, rfl⟩)

/-- The gate skips a formed instruction that no lane is active for, once its registers are free (R41, R81, R189). -/
theorem gate_skip {i : Instr} {s : State} {x : Sel} (hf : formed i s x = true) (ha : s.active x (hdrOf i) = [])
    (hb : s.regsBlocked x i.uses = false) : gate i (hdrOf i) s x = .skip (cxOf i s x) := by
  simp only [formed, Bool.and_eq_true, Bool.not_eq_true'] at hf
  obtain ⟨⟨⟨⟨⟨hwf, hhold⟩, hgraph⟩, hpriv⟩, hacc⟩, hwin⟩ := hf
  have hguard : (i.uses.filter (fun u => u.fld == .G)).all (accepts (s.handler x) (s.tailish x) (s.wave x.wk)) = true := by
    rw [List.all_eq_true] at hacc ⊢
    exact fun u hu => hacc u (List.mem_filter.1 hu).1
  have hstray : (s.tailish x && (lanesOf (s.run x).mask).any (s.strays x (i.uses.filter (fun u => u.fld == .G)))) = false := by
    cases ht : s.tailish x with
    | false => rfl
    | true =>
      rw [ht, Bool.true_and, Bool.or_eq_false_iff, Bool.or_eq_false_iff] at hwin
      obtain ⟨⟨-, hG⟩, -⟩ := hwin
      exact hG
  unfold gate
  simp only [hguard, hwf, hhold, hgraph, hpriv, hacc, hstray, hb, regsBlocked_filter hb, ha, Bool.not_true, Bool.true_and, Bool.or_self,
    Bool.false_eq_true, if_true, if_false, List.isEmpty_nil, cxOf, popLanes]

/-- An instruction without an active lane whose checks pass completes without an effect. -/
theorem exec_skip {i : Instr} {s : State} {x : Sel} (hcur : s.cur = some x) (hrun : s.running x = true) (hi : i.hdr?.isSome = true)
    (hf : formed i s x = true) (ha : s.active x (hdrOf i) = []) (hb : s.regsBlocked x i.uses = false) :
    exec i s = .next (s.complete (cxOf i s x) false false 0) := by
  obtain ⟨h, hh⟩ := Option.isSome_iff_exists.1 hi
  have hd : hdrOf i = h := by simp [hdrOf, hh]
  obtain ⟨body, he⟩ := exec_eq_issue hh s
  have hg := gate_skip hf ha hb
  rw [hd] at hg
  rw [he, issue, hcur]
  simp only [hrun, if_true, hg]

/-- Completing where a slot follows only lets the context go on. -/
theorem onlyAdvances_of_complete {i : Instr} {s : State} {x : Sel} {eff : Mask}
    (he : exec i s = .next (s.complete (cxOf i s x) false false eff)) (hn : inside s x = true) : OnlyAdvances i s x := by
  have hhead := inside_head hn
  obtain ⟨hframe, hvals, hgoes⟩ := complete_next (cxOf i s x) s eff hhead
  have hcore := core_complete (cxOf i s x) s eff hhead x.ck
  refine ⟨_, he, fun c l _ _ => hvals.raw c l, ⟨hvals.flags, hvals.tail⟩, hframe, hgoes, fun qi _ _ => ?_, fun _ => hvals.pushes⟩
  rw [hcore]

/-- Settles O52: the active lanes are a filter of the RUN entry's lanes, the decoder checks `Hdr.guardOk`, and the gate
skips an instruction without an active lane. -/
theorem guard : Obligations.Guard := by
  unfold Obligations.Guard
  refine ⟨fun i s x hg hr => ?_, fun i s x l hn hq hr => ?_, fun w i hg hn => decode_ne_ok_of_gn hg hn i,
    fun i s x hcur hrun hi hf ha hb hin => onlyAdvances_of_complete (exec_skip hcur hrun hi hf ha hb) hin⟩
  · rw [State.active_eq_filter hr]
    exact List.filter_eq_self.2 (fun l _ => State.guard_none hg s x l)
  · rw [State.active_eq_filter hr, List.mem_filter, State.guard_iff hn hq]

end Sys2Proof.Machine

/-!
Integer arithmetic and bit instructions (R101 to R114): each function of Machine/Integer.lean is the function of the
rule, on sources as wide as their type.
-/
namespace Sys2Proof.Machine
open Sys2Proof.Rule

/-! ## What the form of a ready instruction limits (R104) -/

theorem ready_modOk {i : Instr} {s : State} {x : Sel} (h : ready i s x = true) : i.modOk = true := by
  simp only [ready, formed, Instr.wf, Bool.and_eq_true] at h
  obtain ⟨⟨⟨⟨-, ⟨⟨⟨⟨⟨-, hmod⟩, -⟩, -⟩, -⟩, -⟩, -⟩, -⟩, -⟩, -⟩ := h
  exact hmod

/-- Where the entry lists types of one register alone, the operands take one register. -/
theorem regs_of_listed {ts : List Ty} {t : Ty} {b : Bool} (h : (ts.contains t && b) = true) (hts : ∀ u ∈ ts, u.regs = 1) : t.regs = 1 := by
  rw [Bool.and_eq_true, List.contains_iff_mem] at h
  exact hts t h.1

/-- SAT and WIDE exclude each other. -/
theorem sat_of_wide {ts : List Ty} {t : Ty} {sub : BitVec 8} {sat wide : Bool} (h : (ts.contains t && satWide t sub sat wide) = true)
    (hw : sub.getLsbD 1 = true) : sub.getLsbD 0 = false := by
  simp only [satWide, hw, Bool.and_eq_true, Bool.and_true, Bool.not_eq_true'] at h
  exact h.2.2

/-- SAT stands only where the entry lists it. -/
theorem sat_listed {ts : List Ty} {t : Ty} {sub : BitVec 8} {sat wide : Bool} (h : (ts.contains t && satWide t sub sat wide) = true)
    (hs : sub.getLsbD 0 = true) : sat = true := by
  simp only [satWide, hs, Bool.and_eq_true, Bool.not_true, Bool.or_false] at h
  obtain ⟨-, ⟨⟨⟨⟨-, hsat⟩, -⟩, -⟩, -⟩, -⟩ := h
  exact hsat

/-! ## Sources fit their type -/

theorem Wave.regN_lt (w : Wave) (code lane n : Nat) : w.regN code lane n < 2 ^ (32 * n) := by
  unfold Wave.regN
  induction n with
  | zero => exact Nat.one_pos
  | succ n ih =>
    rw [List.range_succ, List.foldl_append, List.foldl_cons, List.foldl_nil, Nat.mul_succ, Nat.pow_add]
    have hword := Nat.mul_le_mul_left (2 ^ (32 * n)) (w.reg (code + n) lane).isLt
    rw [Nat.mul_succ] at hword
    omega

theorem Cx.src_lt (cx : Cx) (s : State) (f : Fld) (o : Opnd) {n : Nat} (hn : 0 < n) (l : Nat) : cx.src s f o n l < 2 ^ (32 * n) := by
  have hword (v : Word) : v.toNat < 2 ^ (32 * n) := v.isLt.trans_le (Nat.pow_le_pow_right two_pos (by omega))
  cases o with
  | v r => exact Wave.regN_lt _ _ _ _
  | k r => exact Wave.regN_lt _ _ _ _
  | h e => exact hword _
  | q m => exact hword _
  | sp z => exact Nat.mod_lt _ (Nat.two_pow_pos _)
  | rsv c => exact Nat.two_pow_pos _
  | none => exact Nat.two_pow_pos _

theorem src_lt {t : Ty} (i : Instr) (s : State) (x : Sel) (f : Fld) (o : Opnd) (l : Nat) : src i s x f o t.regs l < 2 ^ t.width :=
  Cx.src_lt _ _ _ _ (by cases t <;> decide) _

theorem src_lt_word {t : Ty} (ht : t.regs = 1) (i : Instr) (s : State) (x : Sel) (f : Fld) (o : Opnd) (l : Nat) :
    src i s x f o t.regs l < 2 ^ 32 := ht ▸ Cx.src_lt _ _ _ _ one_pos _

theorem immVal_lt (t : Ty) (v : Word) : immVal t v < 2 ^ t.width := by
  have hext : wrapTo 64 v.toInt < 2 ^ 64 := by rw [wrapTo]; omega
  have hzero : v.toNat < 2 ^ 64 := v.isLt.trans (by decide)
  cases t with
  | b64 | s64 | f64 => exact hext
  | n64 => exact hzero
  | _ => exact v.isLt

/-! ## Numbers under a type (R101, R102) -/

theorem wrapTo_eq_toNat (w : Nat) (x : Int) : wrapTo w x = (BitVec.ofInt w x).toNat := by simp [wrapTo]

theorem wrapTo_eq_Put (t : Ty) (x : Int) : wrapTo t.width x = Put t x := wrapTo_eq_toNat _ _

theorem narrow_eq_fit (t : Ty) (sat : Bool) (x : Int) : narrow t sat x = fit t sat x := wrapTo_eq_Put _ _

theorem ival_eq_I {t : Ty} {x : Nat} (hx : x < 2 ^ t.width) : ival t x = I t x := by
  unfold ival I
  cases t.signed with
  | false => simp [Nat.mod_eq_of_lt hx]
  | true => simp [BitVec.toInt_eq_msb_cond, BitVec.msb_eq_decide, Nat.mod_eq_of_lt hx]

theorem immVal_eq_imm (t : Ty) (v : Word) : immVal t v = imm t v := by
  cases t <;> rfl

theorem two_pow_width (t : Ty) : (2 : Int) ^ t.width = 2 * 2 ^ (t.width - 1) := by
  rw [← pow_succ']
  cases t <;> rfl

theorem I_range {t : Ty} (ht : t.signed = true) (x : Nat) : Lo t ≤ I t x ∧ I t x ≤ Hi t := by
  have hw := two_pow_width t
  have hlo := BitVec.le_two_mul_toInt (x := BitVec.ofNat t.width x)
  have hhi := BitVec.two_mul_toInt_lt (x := BitVec.ofNat t.width x)
  simp only [Lo, Hi, I, ht, if_true]
  omega

/-! ## Arithmetic (R105 to R109) -/

/-- The type of a product, and of the addend of `mad` (R105). -/
theorem wideTy_regs (f : IntR) : (if f.wide then wideOf f.ty else f.ty).regs = f.wideN := by
  unfold IntR.wideN
  split
  · unfold wideOf
    split <;> rfl
  · rfl

/-- R105: with WIDE, which excludes SAT, the product takes the 64 bits of the wide type. -/
theorem product_eq_fit {t : Ty} {sat wd : Bool} (h : wd = true → sat = false) (a b c : Int) :
    product t sat wd a b c = fit (if wd then wide t else t) sat (a * b + c) := by
  cases wd with
  | false => exact narrow_eq_fit _ _ _
  | true =>
    have hwidth : (wide t).width = 64 := by unfold wide; split <;> rfl
    have hput := wrapTo_eq_Put (wide t) (a * b + c)
    rw [hwidth] at hput
    rw [h rfl]
    exact hput

/-- Only the least dividend over −1 leaves the range of a signed type. -/
theorem tdiv_range {m a b : Int} (hlo : -m ≤ a) (hhi : a < m) (hc : ¬(a = -m ∧ b = -1)) : -m ≤ a.tdiv b ∧ a.tdiv b < m := by
  have habs : (a.tdiv b).natAbs = a.natAbs / b.natAbs := Int.natAbs_tdiv a b
  have hle : a.natAbs / b.natAbs ≤ a.natAbs := Nat.div_le_self _ _
  by_cases hb : 2 ≤ b.natAbs
  · have hhalf : a.natAbs / b.natAbs ≤ a.natAbs / 2 := Nat.div_le_div_left hb (by decide)
    omega
  · obtain rfl | rfl | rfl : b = 0 ∨ b = 1 ∨ b = -1 := by omega
    · rw [Int.tdiv_zero]; omega
    · rw [Int.tdiv_one]; omega
    · rw [Int.tdiv_neg, Int.tdiv_one]; omega

theorem Put_add_width (t : Ty) (x : Int) : Put t (x + 2 ^ t.width) = Put t x := by
  rw [← wrapTo_eq_Put, ← wrapTo_eq_Put, wrapTo, Int.add_emod_right, wrapTo]

/-- R106, `div`: of the corners of the table the model names the zero divisor; −2^(w−1) over −1 comes out of saturating or wrapping. -/
theorem divRes_eq_Put {t : Ty} {sat : Bool} (hs : sat = true → t.signed = true) (x y : Nat) :
    divRes t sat (I t x) (I t y) = Put t (quotient t sat (I t x) (I t y)) := by
  unfold divRes quotient
  by_cases hy : I t y = 0
  · simp only [hy, if_true, Bool.and_eq_true, decide_eq_true_eq]
    exact wrapTo_eq_Put _ _
  simp only [hy, if_false, narrow_eq_fit, fit]
  cases ht : t.signed with
  | false => simp [show sat = false by simpa [ht] using hs]
  | true =>
    obtain ⟨hxlo, hxhi⟩ := I_range ht x
    have hhi : Hi t = 2 ^ (t.width - 1) - 1 := by simp [Hi, ht]
    have hlo : Lo t = -2 ^ (t.width - 1) := by simp [Lo, ht]
    by_cases hc : I t x = Lo t ∧ I t y = -1
    · have hq : (I t x).tdiv (I t y) = 2 ^ (t.width - 1) := by
        rw [hc.1, hc.2, hlo, Int.tdiv_neg, Int.tdiv_one, neg_neg]
      rw [hq]
      simp only [hc, and_self, if_true]
      cases sat with
      | true => simp only [Sat, if_true]; congr 1; omega
      | false =>
        rw [← Put_add_width t (if false = true then Hi t else Lo t), two_pow_width]
        simp only [Bool.false_eq_true, if_false]
        congr 1
        omega
    · obtain ⟨hqlo, hqhi⟩ := tdiv_range (a := I t x) (b := I t y) (m := 2 ^ (t.width - 1)) (by omega) (by omega) (by rwa [← hlo])
      simp only [hc, and_false, if_false, Sat]
      congr 1
      split <;> omega

/-- R106, `rem`: the remainder of the least number over −1 is 0 of itself. -/
theorem remRes_eq_Put (t : Ty) (a b : Int) : remRes t a b = Put t (remainder t a b) := by
  rw [remRes, remainder, wrapTo_eq_Put]
  congr 1
  split
  · rfl
  · split
    · next hc => rw [hc.2.2, Int.tmod_neg, Int.tmod_one]
    · exact Int.tmod_def a b

/-- R108: the carry out of a sum. -/
theorem carryPair_natCast (n : Nat) : carryPair n = n % 2 ^ 32 + (if 2 ^ 32 ≤ n then 2 ^ 32 else 0) := by
  rw [carryPair, wrapTo]
  split <;> split <;> omega

/-- R108: the borrow out of a difference. -/
theorem carryPair_sub {a : Nat} (ha : a < 2 ^ 32) (b c : Nat) :
    carryPair ((a : Int) - b - c) = (((a : Int) - b - c) % 2 ^ 32).toNat + (if a < b + c then 2 ^ 32 else 0) := by
  rw [carryPair, wrapTo]
  congr 2
  simp only [eq_iff_iff]
  omega

/-- R109: element i of a packed word. -/
theorem packed_eq_element (e : Nat) (signed : Bool) (x i : Nat) : packed e signed x i = element e signed x i := by
  unfold packed element
  cases signed with
  | false => simp [Nat.shiftRight_eq_div_pow]
  | true => simp [Nat.shiftRight_eq_div_pow, BitVec.toInt_eq_msb_cond, BitVec.msb_eq_decide]

theorem sumTo_eq_sum (n : Nat) (g : Nat → Int) : sumTo n g = ((List.range n).map g).sum := by
  rw [sumTo, List.sum_eq_foldl, List.foldl_map]

/-! ## The instructions of R105 to R109 -/

@[simp] theorem IntR.A_cxOf (f : IntR) (i : Instr) (s : State) (x : Sel) (l : Nat) : IntR.A f (cxOf i s x) s l = src i s x .A f.a f.w l := rfl
@[simp] theorem IntR.B_cxOf (f : IntR) (i : Instr) (s : State) (x : Sel) (l : Nat) : IntR.B f (cxOf i s x) s l = src i s x .B f.b f.w l := rfl
@[simp] theorem IntR.C_cxOf (f : IntR) (i : Instr) (s : State) (x : Sel) (l : Nat) : IntR.C f (cxOf i s x) s l = src i s x .C f.c f.w l := rfl
@[simp] theorem IntR.B1_cxOf (f : IntR) (i : Instr) (s : State) (x : Sel) (l : Nat) : IntR.B1 f (cxOf i s x) s l = src i s x .B f.b 1 l := rfl
@[simp] theorem IntR.C1_cxOf (f : IntR) (i : Instr) (s : State) (x : Sel) (l : Nat) : IntR.C1 f (cxOf i s x) s l = src i s x .C f.c 1 l := rfl
@[simp] theorem IntI.A_cxOf (f : IntI) (i : Instr) (s : State) (x : Sel) (l : Nat) : IntI.A f (cxOf i s x) s l = src i s x .A f.a f.w l := rfl
@[simp] theorem Cx.src_cxOf (i : Instr) (s : State) (x : Sel) (f : Fld) (o : Opnd) (n l : Nat) : (cxOf i s x).src s f o n l = Rule.src i s x f o n l := rfl

@[simp] theorem IntR.ival_src (f : IntR) (i : Instr) (s : State) (x : Sel) (g : Fld) (o : Opnd) (l : Nat) :
    ival f.ty (src i s x g o f.w l) = I f.ty (src i s x g o f.w l) := ival_eq_I (src_lt ..)
@[simp] theorem IntI.ival_src (f : IntI) (i : Instr) (s : State) (x : Sel) (g : Fld) (o : Opnd) (l : Nat) :
    ival f.ty (src i s x g o f.w l) = I f.ty (src i s x g o f.w l) := ival_eq_I (src_lt ..)
@[simp] theorem ival_immVal (t : Ty) (v : Word) : ival t (immVal t v) = I t (imm t v) := by
  rw [ival_eq_I (immVal_lt t v), immVal_eq_imm]

/-- The addend of `mad` is as wide as the product. -/
theorem IntR.ival_addend (f : IntR) (i : Instr) (s : State) (x : Sel) (l : Nat) :
    ival (if f.wide then wideOf f.ty else f.ty) (src i s x .C f.c f.wideN l)
      = I (if f.wide then wide f.ty else f.ty) (src i s x .C f.c f.wideN l) := by
  have hlt := src_lt (t := if f.wide then wideOf f.ty else f.ty) i s x .C f.c l
  rw [wideTy_regs] at hlt
  exact ival_eq_I hlt

theorem integerSums : Rule.IntegerArithmetic := by
  refine ⟨fun f s x hr hn => (computes_A (exec_add f s) hr (hdr_add f) hn).congr fun l _ => ?add,
    fun f s x hr hn => (computes_A (exec_addRi f s) hr (hdr_addRi f) hn).congr fun l _ => ?addRi,
    fun f s x hr hn => (computes_A (exec_sub f s) hr (hdr_sub f) hn).congr fun l _ => ?sub,
    fun f s x hr hn => (computes_A (exec_subRi f s) hr (hdr_subRi f) hn).congr fun l _ => ?subRi,
    fun f s x hr hn => (computes_D (exec_mulhi f s) hr (hdr_mulhi f) hn).congr fun l _ => ?mulhi,
    fun f s x hr hn => (computes_D (exec_mul f s) hr (hdr_mul f) hn).congr fun l _ => ?mul,
    fun f s x hr hn => (computes_D (exec_mulRi f s) hr (hdr_mulRi f) hn).congr fun l _ => ?mulRi,
    fun f s x hr hn => (computes_D (exec_mad f s) hr (hdr_mad f) hn).congr fun l _ => ?mad⟩
  case add | addRi | sub | subRi => simp [narrow_eq_fit]
  case mulhi => simp [wrapTo_eq_Put]
  case mul | mulRi =>
    have hexcl : f.wide = true → f.sat = false := sat_of_wide (ready_modOk hr)
    simp [product_eq_fit hexcl]
  case mad =>
    have hexcl : f.wide = true → f.sat = false := sat_of_wide (ready_modOk hr)
    simp [product_eq_fit hexcl, IntR.ival_addend]

theorem integerDivision : Rule.IntegerDivision := by
  refine ⟨fun f s x hr hn => (computes_D (exec_div f s) hr (hdr_div f) hn).congr fun l _ => ?div,
    fun f s x hr hn => (computes_D (exec_divRi f s) hr (hdr_divRi f) hn).congr fun l _ => ?divRi,
    fun f s x hr hn => (computes_D (exec_rem f s) hr (hdr_rem f) hn).congr fun l _ => ?rem,
    fun f s x hr hn => (computes_D (exec_remRi f s) hr (hdr_remRi f) hn).congr fun l _ => ?remRi⟩
  case div | divRi =>
    have hsat : f.sat = true → f.ty.signed = true := sat_listed (ready_modOk hr)
    simp [divRes_eq_Put hsat]
  case rem | remRi => simp [remRes_eq_Put]

theorem integerOrderInstructions : Rule.IntegerOrderInstructions := by
  refine ⟨fun f s x hr hn => (computes_D (exec_neg f s) hr (hdr_neg f) hn).congr fun l _ => ?neg,
    fun f s x hr hn => (computes_D (exec_abs f s) hr (hdr_abs f) hn).congr fun l _ => ?abs,
    fun f s x hr hn => (computes_D (exec_min f s) hr (hdr_min f) hn).congr fun l _ => ?min,
    fun f s x hr hn => (computes_D (exec_minRi f s) hr (hdr_minRi f) hn).congr fun l _ => ?minRi,
    fun f s x hr hn => (computes_D (exec_max f s) hr (hdr_max f) hn).congr fun l _ => ?max,
    fun f s x hr hn => (computes_D (exec_maxRi f s) hr (hdr_maxRi f) hn).congr fun l _ => ?maxRi,
    fun f s x hr hn => (computes_D (exec_clamp f s) hr (hdr_clamp f) hn).congr fun l _ => ?clamp,
    fun f s x hr hn => (computes_D (exec_addc f s) hr (hdr_addc f) hn).congr fun l _ => ?addc,
    fun f s x hr hn => (computes_D (exec_subb f s) hr (hdr_subb f) hn).congr fun l _ => ?subb⟩
  case neg | abs => simp [narrow_eq_fit]
  case min | minRi | max | maxRi | clamp => simp [wrapTo_eq_Put]
  case addc => exact_mod_cast carryPair_natCast _
  case subb =>
    have hw : f.w = 1 := regs_of_listed (ts := [.n32]) (ready_modOk hr) (by decide)
    exact carryPair_sub (src_lt_word hw ..) _ _

theorem packedSums : Rule.PackedSums := by
  refine ⟨fun f s x hr hn => (computes_D (exec_sad f s) hr (hdr_sad f) hn).congr fun l _ => ?sad,
    fun f s x hr hn => (computes_D (exec_dot4 f s) hr (hdr_dot4 f) hn).congr fun l _ => ?dot4⟩
  case sad =>
    have hw : f.w = 1 := regs_of_listed (ts := [.n8, .s8, .n16, .s16]) (ready_modOk hr) (by decide)
    simp [hw, wrapTo_eq_toNat, sumTo_eq_sum, packed_eq_element]
  case dot4 =>
    have hw : f.w = 1 := regs_of_listed (ts := [.s8, .n8]) (ready_modOk hr) (by decide)
    simp [hw, wrapTo_eq_toNat, sumTo_eq_sum, packed_eq_element]

/-- Settles O1: each clause is its instruction's plan, whose function is the function of the rule. -/
theorem integerArithmetic : Obligations.IntegerArithmetic :=
  ⟨integerSums, integerDivision, integerOrderInstructions, packedSums⟩

/-! ## Bits of a number -/

theorem bitN_eq_testBit (n i : Nat) : bitN n i = n.testBit i := by
  rw [bitN, Nat.testBit_eq_decide_div_mod_eq, beq_eq_decide]

/-- Numbers added up one after the other. -/
theorem foldl_range_add (n : Nat) (g : Nat → Nat) : (List.range n).foldl (fun x i => x + g i) 0 = ∑ i ∈ Finset.range n, g i := by
  induction n with
  | zero => rfl
  | succ n ih => rw [List.range_succ, List.foldl_append, List.foldl_cons, List.foldl_nil, ih, Finset.sum_range_succ]

theorem sum_bits_eq_ofBits (n : Nat) (g : Nat → Bool) :
    ∑ i ∈ Finset.range n, (g i).toNat * 2 ^ i = Nat.ofBits (fun i : Fin n => g i) := by
  induction n generalizing g with
  | zero => rfl
  | succ n ih =>
    rw [Finset.sum_range_succ', Nat.ofBits_succ, pow_zero, mul_one]
    congr 1
    rw [show (fun i : Fin (n + 1) => g i) ∘ Fin.succ = fun i : Fin n => g (i + 1) from rfl, ← ih (fun i => g (i + 1)), Finset.mul_sum]
    exact Finset.sum_congr rfl fun i _ => by ring

/-- A number put together bit by bit, as the model does it. -/
theorem foldl_bits (n : Nat) (g : Nat → Bool) :
    (List.range n).foldl (fun x i => x + (g i).toNat * 2 ^ i) 0 = (BitVec.ofFnLE (fun i : Fin n => g i)).toNat := by
  rw [foldl_range_add, sum_bits_eq_ofBits, BitVec.toNat_ofFnLE]

/-! ## Logic (R110) -/

theorem toNat_ofNat_of_lt {w a : Nat} (ha : a < 2 ^ w) : (BitVec.ofNat w a).toNat = a := by
  rw [BitVec.toNat_ofNat, Nat.mod_eq_of_lt ha]

theorem land_eq_toNat {w a b : Nat} (ha : a < 2 ^ w) (hb : b < 2 ^ w) : Nat.land a b = (BitVec.ofNat w a &&& BitVec.ofNat w b).toNat := by
  rw [BitVec.toNat_and, toNat_ofNat_of_lt ha, toNat_ofNat_of_lt hb]
  rfl

theorem lor_eq_toNat {w a b : Nat} (ha : a < 2 ^ w) (hb : b < 2 ^ w) : Nat.lor a b = (BitVec.ofNat w a ||| BitVec.ofNat w b).toNat := by
  rw [BitVec.toNat_or, toNat_ofNat_of_lt ha, toNat_ofNat_of_lt hb]
  rfl

theorem xor_eq_toNat {w a b : Nat} (ha : a < 2 ^ w) (hb : b < 2 ^ w) : Nat.xor a b = (BitVec.ofNat w a ^^^ BitVec.ofNat w b).toNat := by
  rw [BitVec.toNat_xor, toNat_ofNat_of_lt ha, toNat_ofNat_of_lt hb]
  rfl

theorem notTo_eq_toNat {w a : Nat} (ha : a < 2 ^ w) : notTo w a = (~~~BitVec.ofNat w a).toNat := by
  rw [BitVec.toNat_not, toNat_ofNat_of_lt ha, notTo]

theorem notTo_lt (w a : Nat) : notTo w a < 2 ^ w := by
  have := Nat.two_pow_pos w
  rw [notTo]
  omega

theorem andn_eq_toNat {w a b : Nat} (ha : a < 2 ^ w) (hb : b < 2 ^ w) :
    Nat.land a (notTo w b) = (BitVec.ofNat w a &&& ~~~BitVec.ofNat w b).toNat := by
  rw [land_eq_toNat ha (notTo_lt w b), notTo_eq_toNat hb, BitVec.ofNat_toNat, BitVec.setWidth_eq]

theorem bfnRes_eq_toNat (w : Nat) (fn : BitVec 8) (a b c : Nat) : bfnRes w fn.toNat a b c = (BitVec.ofFnLE (fun i : Fin w =>
    fn.getLsbD ((a.testBit i).toNat + 2 * (b.testBit i).toNat + 4 * (c.testBit i).toNat))).toNat := by
  simp only [bfnRes, bitN_eq_testBit]
  exact foldl_bits w _

/-! ## Shifts and rotates (R111) -/

theorem shlRes_eq_shl {w a : Nat} (ha : a < 2 ^ w) (b : Nat) : shlRes w a b = Rule.shl w a (b % 256) := by
  rw [shlRes, Rule.shl, BitVec.toNat_shiftLeft, toNat_ofNat_of_lt ha, Nat.shiftLeft_eq]

/-- The source shifted right by k, extended as its type says (R111, R112). -/
def shiftedRight (t : Ty) (a k : Nat) : BitVec t.width :=
  if t.signed then (BitVec.ofNat t.width a).sshiftRight k else BitVec.ofNat t.width a >>> k

theorem toNat_shiftedRight {t : Ty} {a : Nat} (ha : a < 2 ^ t.width) (k : Nat) :
    (shiftedRight t a k).toNat = wrapTo t.width (ival t a / 2 ^ k) := by
  have hpow : ((2 : Int) ^ k) = (2 ^ k : Nat) := by norm_cast
  rw [ival_eq_I ha, wrapTo_eq_toNat, shiftedRight, I, hpow]
  cases t.signed with
  | true => rw [if_pos rfl, if_pos rfl, BitVec.sshiftRight_eq, Int.shiftRight_eq_div_pow]
  | false =>
    rw [if_neg Bool.false_ne_true, if_neg Bool.false_ne_true, ← Int.natCast_ediv, BitVec.ofInt_natCast, ← Nat.shiftRight_eq_div_pow,
      ← BitVec.toNat_ushiftRight, BitVec.ofNat_toNat, BitVec.setWidth_eq]

theorem getLsbD_shiftedRight (t : Ty) (a k : Nat) {w j : Nat} (hw : t.width = w) (hj : j < w) :
    (shiftedRight t a k).getLsbD j = if k + j < w then a.testBit (k + j) else t.signed && a.testBit (w - 1) := by
  subst hw
  have hpos : t.width - 1 < t.width := by omega
  rw [shiftedRight]
  cases t.signed with
  | true =>
    rw [if_pos rfl, BitVec.getLsbD_sshiftRight, BitVec.msb_eq_getLsbD_last, BitVec.getLsbD_ofNat, BitVec.getLsbD_ofNat]
    by_cases hk : k + j < t.width <;> simp [hj, hk, hpos]
  | false =>
    rw [if_neg Bool.false_ne_true, BitVec.getLsbD_ushiftRight, BitVec.getLsbD_ofNat]
    by_cases hk : k + j < t.width <;> simp [hk]

theorem shrRes_eq_shr {t : Ty} {a : Nat} (ha : a < 2 ^ t.width) (b : Nat) : shrRes t a b = Rule.shr t a (b % 256) := by
  rw [shrRes, Rule.shr, ← toNat_shiftedRight ha, ival_eq_I ha, ← BitVec.toNat_allOnes, shiftedRight, apply_ite BitVec.toNat]

/-- The bits that a rotation keeps and those that it brings round do not overlap, so their sum is their union. -/
theorem rotRes_eq_rot {w a : Nat} (hw : 0 < w) (ha : a < 2 ^ w) (b : Nat) : rotRes w a b = Rule.rot w a (b % 256) := by
  unfold rotRes Rule.rot
  have hk : b % 256 % w < w := Nat.mod_lt _ hw
  generalize b % 256 % w = k at hk
  have hpow : 2 ^ w = 2 ^ k * 2 ^ (w - k) := by rw [← Nat.pow_add]; congr 1; omega
  have hlow : a / 2 ^ (w - k) < 2 ^ k := Nat.div_lt_of_lt_mul (by rwa [Nat.mul_comm, ← hpow])
  have hhigh : a * 2 ^ k % 2 ^ w = 2 ^ k * (a % 2 ^ (w - k)) := by rw [hpow, Nat.mul_comm a, Nat.mul_mod_mul_left]
  rw [BitVec.toNat_rotateLeft, toNat_ofNat_of_lt ha, Nat.mod_eq_of_lt hk, Nat.shiftLeft_eq, Nat.shiftRight_eq_div_pow, hhigh,
    Nat.two_pow_add_eq_or_of_lt hlow]

/-! ## Fields (R112) -/

/-- A field cut out of a number is cut out of its low word. -/
theorem toNat_emod_two_pow {len w : Nat} (hlen : len ≤ w) (x : Int) : (x % 2 ^ len).toNat = wrapTo w x % 2 ^ len := by
  have hdvd : (2 : Int) ^ len ∣ 2 ^ w := pow_dvd_pow 2 hlen
  have hnn : 0 ≤ x % 2 ^ w := Int.emod_nonneg _ (by positivity)
  rw [← Int.emod_emod_of_dvd x hdvd, wrapTo, Int.toNat_emod hnn (by positivity)]
  norm_cast

/-- A field extended to a word from its highest bit, or with zeros. -/
theorem toNat_extend {n : Nat} (hn : n ≤ 32) (signed : Bool) (x : BitVec n) :
    (if signed && decide (2 ^ (n - 1) ≤ x.toNat) then wrapTo 32 ((x.toNat : Int) - 2 ^ n) else x.toNat)
      = (if signed then x.signExtend 32 else x.setWidth 32).toNat := by
  have hlt : x.toNat < 2 ^ 32 := x.isLt.trans_le (Nat.pow_le_pow_right two_pos hn)
  cases signed with
  | false => rw [if_neg (by simp), if_neg Bool.false_ne_true, BitVec.toNat_setWidth, Nat.mod_eq_of_lt hlt]
  | true =>
    rw [if_pos rfl, BitVec.signExtend, BitVec.toInt_eq_msb_cond, BitVec.msb_eq_decide, Bool.true_and, wrapTo_eq_toNat]
    split
    · norm_cast
    · rw [BitVec.ofInt_natCast, BitVec.toNat_ofNat, Nat.mod_eq_of_lt hlt]

/-- The n low bits of a number extended to a word, bit by bit. -/
theorem extend_eq_ofFnLE {n w : Nat} (hn0 : 0 < n) (hn : n ≤ 32) (signed : Bool) (x : BitVec w) {bit : Nat → Bool}
    (hbit : ∀ j < 32, x.getLsbD j = bit j) :
    (if signed then (x.setWidth n).signExtend 32 else (x.setWidth n).setWidth 32)
      = BitVec.ofFnLE (fun j : Fin 32 => if (j : Nat) < n then bit j else signed && bit (n - 1)) := by
  refine BitVec.eq_of_getLsbD_eq fun j hj => ?_
  have htop : n - 1 < n := by omega
  rw [BitVec.getLsbD_ofFnLE, dif_pos hj, ← hbit j hj, ← hbit (n - 1) (by omega)]
  cases signed with
  | true =>
    rw [if_pos rfl, BitVec.getLsbD_signExtend, BitVec.msb_eq_getLsbD_last, BitVec.getLsbD_setWidth, BitVec.getLsbD_setWidth]
    by_cases hk : j < n <;> simp only [hj, hk, htop, decide_true, Bool.true_and, if_true, if_false]
  | false =>
    rw [if_neg Bool.false_ne_true, BitVec.getLsbD_setWidth, BitVec.getLsbD_setWidth]
    by_cases hk : j < n <;> simp [hj, hk]

/-- Bit j of the field at pos, whose source is extended above bit 31. -/
def fieldBit (t : Ty) (a pos j : Nat) : Bool := if pos + j < 32 then a.testBit (pos + j) else t.signed && a.testBit 31

theorem bfx_eq_fieldBit (t : Ty) (a b : Nat) : Rule.bfx t a b = if fieldLen b = 0 then 0 else
    (BitVec.ofFnLE (fun j : Fin 32 => if (j : Nat) < fieldLen b then fieldBit t a (fieldPos b) j
      else t.signed && fieldBit t a (fieldPos b) (fieldLen b - 1))).toNat := rfl

theorem bfxRes_eq_bfx {t : Ty} (ht : t.regs = 1) {a : Nat} (ha : a < 2 ^ 32) (b : Nat) : bfxRes t a b = Rule.bfx t a b := by
  have hlen : fieldLen b ≤ 32 := Nat.min_le_right _ _
  have hwidth : t.width = 32 := by rw [Ty.width, ht]
  have hcut : (ival t a / 2 ^ fieldPos b % 2 ^ fieldLen b).toNat = ((shiftedRight t a (fieldPos b)).setWidth (fieldLen b)).toNat := by
    rw [toNat_emod_two_pow (hwidth ▸ hlen), ← toNat_shiftedRight (hwidth ▸ ha), BitVec.toNat_setWidth]
  have hbit : ∀ j < 32, (shiftedRight t a (fieldPos b)).getLsbD j = fieldBit t a (fieldPos b) j :=
    fun j hj => getLsbD_shiftedRight t a (fieldPos b) hwidth hj
  rw [bfx_eq_fieldBit, bfxRes]
  simp only [hcut, toNat_extend hlen]
  split
  · rfl
  · next h0 => rw [extend_eq_ofFnLE (Nat.pos_of_ne_zero h0) hlen t.signed _ hbit]

theorem bfiRes_eq_bfi (base a b : Nat) : bfiRes base a b = Rule.bfi base a b := by
  simp only [bfiRes, bitN_eq_testBit, Rule.bfi]
  exact foldl_bits 32 _

/-! ## Counts and the reversal of bits (R113) -/

theorem popcRes_eq_length (w a : Nat) : popcRes w a = ((List.range w).filter (fun i => a.testBit i)).length := by
  simp only [popcRes, bitN_eq_testBit]

theorem clzRes_eq_clz {w a : Nat} (hw : 0 < w) (ha : a < 2 ^ w) : clzRes w a = (BitVec.ofNat w a).clz.toNat := by
  have hx : (BitVec.ofNat w a).toNat = a := toNat_ofNat_of_lt ha
  have htop : ((w : BitVec w)).toNat = w := by
    rw [BitVec.natCast_eq_ofNat, BitVec.toNat_ofNat, Nat.mod_eq_of_lt Nat.lt_two_pow_self]
  have hsize : a.size ≤ w - (BitVec.ofNat w a).clz.toNat :=
    Nat.size_le.2 (by simpa only [hx] using BitVec.toNat_lt_two_pow_sub_clz (x := BitVec.ofNat w a))
  rw [clzRes]
  by_cases h0 : BitVec.ofNat w a = 0#w
  · rw [BitVec.clz_eq_iff_eq_zero.2 h0, htop] at hsize ⊢
    omega
  · have hlt := BitVec.lt_def.1 (BitVec.clz_lt_iff_ne_zero.2 h0)
    have hle := BitVec.two_pow_sub_clz_le_toNat_of_ne_zero hw h0
    rw [hx, ← Nat.lt_size] at hle
    omega

/-- The first number that a test lets through, of those below n. -/
theorem lowest_getD (n : Nat) (p : Nat → Bool) : (lowest n p).getD n = (List.range n).findIdx p := by
  rw [lowest, List.find?_eq_getElem?_findIdx]
  have hle : (List.range n).findIdx p ≤ n := by simpa using List.findIdx_le_length (p := p) (xs := List.range n)
  obtain hlt | heq := Nat.lt_or_eq_of_le hle
  · rw [List.getElem?_range hlt, Option.getD_some]
  · rw [List.getElem?_eq_none (by rw [List.length_range, heq]), Option.getD_none, heq]

theorem ctzRes_eq_findIdx (w a : Nat) : ctzRes w a = if a = 0 then w else (List.range w).findIdx (fun i => a.testBit i) := by
  simp only [ctzRes, bitN_eq_testBit, lowest_getD]
  split
  · next h0 =>
    rw [h0, List.findIdx_eq_length_of_false (fun i _ => Nat.zero_testBit i), List.length_range]
  · rfl

theorem brevRes_eq_reverse (w a : Nat) : brevRes w a = (BitVec.ofNat w a).reverse.toNat := by
  simp only [brevRes, bitN_eq_testBit]
  rw [foldl_range_add, ← Finset.sum_range_reflect]
  have hbits : ∀ j ∈ Finset.range w, (a.testBit (w - 1 - j)).toNat * 2 ^ (w - 1 - (w - 1 - j)) = (a.testBit (w - 1 - j)).toNat * 2 ^ j := by
    intro j hj
    rw [Nat.sub_sub_self (by have := Finset.mem_range.1 hj; omega)]
  rw [Finset.sum_congr rfl hbits, sum_bits_eq_ofBits w (fun j => a.testBit (w - 1 - j)), ← BitVec.toNat_ofFnLE]
  congr 1
  refine BitVec.eq_of_getLsbD_eq fun i hi => ?_
  have hrev : w - 1 - i < w := by omega
  rw [BitVec.getLsbD_ofFnLE, dif_pos hi, BitVec.getLsbD_reverse, BitVec.getMsbD_eq_getLsbD, BitVec.getLsbD_ofNat, decide_eq_true hi,
    decide_eq_true hrev, Bool.true_and, Bool.true_and]

/-! ## Picked bytes (R114) -/

/-- Byte n of the pool. -/
theorem pool_byte {a : Nat} (ha : a < 2 ^ 32) (b : Nat) {n : Nat} (hn : n < 8) :
    (a + 2 ^ 32 * b) / 2 ^ (8 * n) % 256 = if n < 4 then a / 2 ^ (8 * n) % 256 else b / 2 ^ (8 * (n - 4)) % 256 := by
  interval_cases n <;> norm_num <;> omega

theorem bpickRes_eq_bpick {a : Nat} (ha : a < 2 ^ 32) (b sel : Nat) : bpickRes a b sel = Rule.bpick a b sel := by
  have hbytes : bpickRes a b sel = ∑ i ∈ Finset.range 4, bpickByte a b sel i * 2 ^ (8 * i) := by
    rw [← foldl_range_add]
    unfold bpickRes
    congr 1
    funext y i
    have hidx : bits sel (3 * i + 2) (3 * i) = sel / 2 ^ (3 * i) % 8 := by
      rw [bits, show 3 * i + 2 + 1 - 3 * i = 3 by omega]; rfl
    have hfill : bits sel (13 + 2 * i) (12 + 2 * i) = sel / 2 ^ (12 + 2 * i) % 4 := by
      rw [bits, show 13 + 2 * i + 1 - (12 + 2 * i) = 2 by omega]; rfl
    rw [hidx, hfill, pool_byte ha b (Nat.mod_lt _ (by decide))]
    unfold bpickByte
    dsimp only
    have hm : sel / 2 ^ (12 + 2 * i) % 4 < 4 := Nat.mod_lt _ (by decide)
    generalize sel / 2 ^ (12 + 2 * i) % 4 = m at hm
    generalize sel / 2 ^ (3 * i) % 8 = n
    generalize hy : (if n < 4 then a / 2 ^ (8 * n) % 256 else b / 2 ^ (8 * (n - 4)) % 256) = z
    have hz : z < 256 := by split at hy <;> omega
    have hsign : z.testBit 7 = decide (128 ≤ z) := by
      rw [Nat.testBit_eq_decide_div_mod_eq, decide_eq_decide]
      omega
    interval_cases m
    · rfl
    · rfl
    · simp [hsign]
    · rfl
  rw [hbytes, Rule.bpick]
  simp only [Finset.sum_range_succ, Finset.sum_range_zero]
  ring

/-! ## The instructions of R110 to R114 -/

theorem width_pos (t : Ty) : 0 < t.width := by cases t <;> decide

theorem imm_lt (t : Ty) (v : Word) : imm t v < 2 ^ t.width := immVal_eq_imm t v ▸ immVal_lt t v

/-- The entry's bound on the bits of an immediate. -/
theorem imm_lt_of_lowBits {b : Bool} {v n : Nat} (h : (b && lowBits v n) = true) : v < 2 ^ n := by
  rw [Bool.and_eq_true] at h
  exact of_decide_eq_true h.2

theorem bitwiseLogic : Rule.BitwiseLogic := by
  refine ⟨fun f s x hr hn => (computes_D (exec_and f s) hr (hdr_and f) hn).congr fun l _ => ?and,
    fun f s x hr hn => (computes_D (exec_andRi f s) hr (hdr_andRi f) hn).congr fun l _ => ?andRi,
    fun f s x hr hn => (computes_D (exec_or f s) hr (hdr_or f) hn).congr fun l _ => ?or,
    fun f s x hr hn => (computes_D (exec_orRi f s) hr (hdr_orRi f) hn).congr fun l _ => ?orRi,
    fun f s x hr hn => (computes_D (exec_xor f s) hr (hdr_xor f) hn).congr fun l _ => ?xor,
    fun f s x hr hn => (computes_D (exec_xorRi f s) hr (hdr_xorRi f) hn).congr fun l _ => ?xorRi,
    fun f s x hr hn => (computes_D (exec_andn f s) hr (hdr_andn f) hn).congr fun l _ => ?andn,
    fun f s x hr hn => (computes_D (exec_not f s) hr (hdr_not f) hn).congr fun l _ => ?not,
    fun f s x hr hn => (computes_D (exec_bfn f s) hr (hdr_bfn f) hn).congr fun l _ => ?bfn⟩
  case and => exact land_eq_toNat (src_lt ..) (src_lt ..)
  case or => exact lor_eq_toNat (src_lt ..) (src_lt ..)
  case xor => exact xor_eq_toNat (src_lt ..) (src_lt ..)
  case andRi => rw [immVal_eq_imm]; exact land_eq_toNat (src_lt ..) (imm_lt ..)
  case orRi => rw [immVal_eq_imm]; exact lor_eq_toNat (src_lt ..) (imm_lt ..)
  case xorRi => rw [immVal_eq_imm]; exact xor_eq_toNat (src_lt ..) (imm_lt ..)
  case andn => exact andn_eq_toNat (src_lt ..) (src_lt ..)
  case not => exact notTo_eq_toNat (src_lt ..)
  case bfn => exact bfnRes_eq_toNat _ _ _ _ _

theorem shifts : Rule.Shifts := by
  refine ⟨fun f s x hr hn => (computes_A (exec_shl f s) hr (hdr_shl f) hn).congr fun l _ => ?shl,
    fun f s x hr hn => (computes_A (exec_shlRi f s) hr (hdr_shlRi f) hn).congr fun l _ => ?shlRi,
    fun f s x hr hn => (computes_D (exec_shr f s) hr (hdr_shr f) hn).congr fun l _ => ?shr,
    fun f s x hr hn => (computes_D (exec_shrRi f s) hr (hdr_shrRi f) hn).congr fun l _ => ?shrRi,
    fun f s x hr hn => (computes_D (exec_rot f s) hr (hdr_rot f) hn).congr fun l _ => ?rot,
    fun f s x hr hn => (computes_D (exec_rotRi f s) hr (hdr_rotRi f) hn).congr fun l _ => ?rotRi⟩
  case shl => exact shlRes_eq_shl (src_lt ..) _
  case shr => exact shrRes_eq_shr (src_lt ..) _
  case rot => exact rotRes_eq_rot (width_pos f.ty) (src_lt ..) _
  all_goals
    have hcount : f.imm.toNat % 256 = f.imm.toNat := Nat.mod_eq_of_lt (imm_lt_of_lowBits (n := 8) (ready_modOk hr))
  case shlRi => exact (shlRes_eq_shl (src_lt ..) _).trans (by rw [hcount]; rfl)
  case shrRi => exact (shrRes_eq_shr (src_lt ..) _).trans (by rw [hcount]; rfl)
  case rotRi => exact (rotRes_eq_rot (width_pos f.ty) (src_lt ..) _).trans (by rw [hcount]; rfl)

theorem bitFields : Rule.BitFields := by
  refine ⟨fun f s x hr hn => (computes_D (exec_bfx f s) hr (hdr_bfx f) hn).congr fun l _ => ?bfx,
    fun f s x hr hn => (computes_D (exec_bfxRi f s) hr (hdr_bfxRi f) hn).congr fun l _ => ?bfxRi,
    fun f s x hr hn => (computes_D (exec_bfi f s) hr (hdr_bfi f) hn).congr fun l _ => ?bfi,
    fun f s x hr hn => (computes_D (exec_bfiRi f s) hr (hdr_bfiRi f) hn).congr fun l _ => ?bfiRi,
    fun f s x hr hn => (computes_D (exec_popc f s) hr (hdr_popc f) hn).congr fun l _ => ?popc,
    fun f s x hr hn => (computes_D (exec_clz f s) hr (hdr_clz f) hn).congr fun l _ => ?clz,
    fun f s x hr hn => (computes_D (exec_ctz f s) hr (hdr_ctz f) hn).congr fun l _ => ?ctz,
    fun f s x hr hn => (computes_D (exec_brev f s) hr (hdr_brev f) hn).congr fun l _ => ?brev,
    fun f s x hr hn => (computes_D (exec_bpick f s) hr (hdr_bpick f) hn).congr fun l _ => ?bpick,
    fun f s x hr hn => (computes_D (exec_bpickRi f s) hr (hdr_bpickRi f) hn).congr fun l _ => ?bpickRi⟩
  case bfx =>
    have hw : f.ty.regs = 1 := regs_of_listed (ts := [.n32, .s32]) (ready_modOk hr) (by decide)
    exact bfxRes_eq_bfx hw (src_lt_word hw ..) _
  case bfxRi =>
    have hw : f.ty.regs = 1 := regs_of_listed (ts := [.n32, .s32]) (Bool.and_elim_left (ready_modOk hr)) (by decide)
    exact bfxRes_eq_bfx hw (src_lt_word hw ..) _
  case bfi | bfiRi => exact bfiRes_eq_bfi _ _ _
  case popc => exact popcRes_eq_length _ _
  case clz => exact clzRes_eq_clz (width_pos f.ty) (src_lt ..)
  case ctz => exact ctzRes_eq_findIdx _ _
  case brev => exact brevRes_eq_reverse _ _
  case bpick =>
    have hw : f.w = 1 := regs_of_listed (ts := [.b32]) (ready_modOk hr) (by decide)
    exact bpickRes_eq_bpick (src_lt_word hw ..) _ _
  case bpickRi =>
    have hw : f.w = 1 := regs_of_listed (ts := [.b32]) (Bool.and_elim_left (ready_modOk hr)) (by decide)
    exact bpickRes_eq_bpick (src_lt_word hw ..) _ _

/-- Settles O2: each clause is its instruction's plan, whose function of the sources' bits is the function of the rule. -/
theorem bitInstructions : Obligations.BitInstructions := ⟨bitwiseLogic, shifts, bitFields⟩

end Sys2Proof.Machine
